-- ==== Sys2Proof/Word.lean ====
section
/-! DEFINITION. The word types of the Z768 (R1 to R3, R100) and nothing else. -/

namespace Sys2Proof

/-- One byte of memory (R208: a location is one byte). -/
abbrev Byte := BitVec 8
/-- A halfword. -/
abbrev Half := BitVec 16
/-- An instruction word, a lane element, a mask of 32 lanes (R22, R100). -/
abbrev Word := BitVec 32
/-- A scalar register, an address, a program counter (R81, R169). -/
abbrev Dword := BitVec 64
/-- A 7-bit register field of an instruction word (R104). -/
abbrev Reg := BitVec 7
/-- One vector register: lane i is the 32-bit symbol i (R90). -/
abbrev Lanes := Vector Word 32

end Sys2Proof
end

