-- ==== Sys2Proof/Syntax.lean ====
section
/-! DEFINITION. The instructions and events of the Z768, one constructor per row of spec/opcode_table.json, with the
prefixes of a bundle (R101, R108, R112, R113, R117) and the code fields that the table numbers (R130, R131, R136). -/

namespace Sys2Proof

/-- Ordering kinds of the ORD prefix and of FENCE (R112, R399). -/
inductive OrdKind where
  | relaxed | acquire | release | acqRel | seq
  deriving DecidableEq, Repr

/-- Scope codes (R29, R214). -/
inductive Scope where
  | grp | core | clu | pkg | sys
  deriving DecidableEq, Repr

/-- Access widths of LD and ST (R130): 8, 16, 32 and 64 bits. -/
inductive Width where
  | w8 | w16 | w32 | w64
  deriving DecidableEq, Repr

/-- Atomic operations (R131). -/
inductive AtomOp where
  | add | and | or | xor | min | max | minn | maxn | swap | cas | fadd
  deriving DecidableEq, Repr

/-- Format pairs of the matrix operations (R136), in code order 0 to 11. -/
inductive MatPair where
  | bf16 | f16 | e4m3 | e5m2 | e4m3e5m2 | e5m2e4m3 | e2m3 | e3m2 | e2m1 | bf16ts8 | e4m3ts8 | i8
  deriving DecidableEq, Repr

/-- System registers that RDSR and WRSR name (R93), in index order 0x00 to 0x0A. -/
inductive SysReg where
  | fctl | fflags | tvec | tcause | tpc | tval | rpidx | errbud | em | live | wbase
  deriving DecidableEq, Repr

/-- Reliability classes of frames, kernels and scratchpads (R289, R298). -/
inductive Cls where
  | p | d | u
  deriving DecidableEq, Repr

/-- States of a virtual function's TDI (R347). -/
inductive Tdi where
  | unlocked | locked | run | error
  deriving DecidableEq, Repr

/-- What an INJECT command names (R312): a sector of a cluster's L2, of L3, of HBM, or a scratchpad row. -/
inductive Site where
  | l2 (cluster : Nat) (pa : Nat)
  | l3 (pa : Nat)
  | hbm (pa : Nat)
  | row (core : Nat) (off : Nat)
  deriving DecidableEq, Repr

/-- A failure notice of the fabric: the command that it fails, and whether a peer's home turned its request for a credit away for its queue's
header, which is no endpoint of 64-byte entries (R243, R355, R434). -/
structure Notice where
  cmd : Nat
  refused : Bool
  deriving DecidableEq, Repr

/-- An access of a peer's page to the device: a read or a write, and the class that the page has at the peer (R260). -/
structure PeerAccess where
  wr : Bool
  cls : Cls
  deriving DecidableEq, Repr

/-- What an interval of the arbiter brings: the package's 1 ms average and the grants that follow, in milliwatts (R13, R14). -/
structure Interval where
  mw : Nat
  grants : Vector Nat 7
  deriving DecidableEq, Repr

/-- The ORD prefix (R112). -/
structure OrdPfx where
  kind : OrdKind
  scope : Scope
  w64 : Bool
  deriving DecidableEq, Repr

/-- The REP prefix (R113): N - 1, the step flags of d, a and b, and the stride code. -/
structure RepPfx where
  count : BitVec 6
  d : Bool
  a : Bool
  b : Bool
  stride : BitVec 2
  deriving DecidableEq, Repr

/-- One lane pattern of the LANE prefix with an argument inside its limits (R117). -/
inductive LanePat where
  | none
  | rot (n : BitVec 5)
  | rev
  | xor (n : BitVec 3)
  | bcast (n : BitVec 5)
  deriving DecidableEq, Repr

/-- The LANE prefix: the patterns of a and of b (R117). -/
structure LanePfx where
  a : LanePat
  b : LanePat
  deriving DecidableEq, Repr

/-- The prefixes of a bundle, at most one of each kind (R101). -/
structure Pfx where
  imm : Option (BitVec 25)
  ord : Option OrdPfx
  rep : Option RepPfx
  lane : Option LanePfx
  deriving DecidableEq, Repr

/-- No prefix. -/
def Pfx.none : Pfx := { imm := .none, ord := .none, rep := .none, lane := .none }

/-- What every bundle has besides its instruction's own fields: the switch marker Z (R100) and the prefixes. -/
structure Pre where
  z : Bool
  px : Pfx
  deriving DecidableEq, Repr

/-- A bundle without marker and without prefixes. -/
def Pre.plain : Pre := { z := false, px := Pfx.none }

/-- The instructions (first part, with their bundle's prefixes and fields; register fields keep their 7 bits) and the
events of the device's other agents (second part, with what the agent brings). -/
inductive Instr where
  /-- NOP (R427): Does nothing; with the marker, parks until pending results land. -/
  | nop (x : Pre)
  /-- EXIT (R397): Drains the group's accesses and pending results, then ends the group. -/
  | exit (x : Pre)
  /-- TRAP (R471): Raises TRAPI with TVAL from s[b] or the immediate. -/
  | trap (x : Pre) (b : Reg)
  /-- TFENCE (R168): Waits for earlier flag setters, then raises ARITH if enabled flags are set. -/
  | tfence (x : Pre)
  /-- ERET (R283): Returns from a trap handler to TPC, applying the resume index and unfinished-lane mask. -/
  | eret (x : Pre)
  /-- YIELD (R519): Makes the group unready for one cycle and resets its waiting age. -/
  | yield (x : Pre)
  /-- RDFLAG (R439): Waits for earlier flag setters, then reads FFLAGS into s[d]. -/
  | rdflag (x : Pre) (d : Reg)
  /-- CLRFLAG (R382): Waits for earlier flag setters, then clears the masked FFLAGS bits. -/
  | clrflag (x : Pre) (b : Reg)
  /-- RDCYC (R438): Reads the core's cycle counter into s[d]; logged as VALUE. -/
  | rdcyc (x : Pre) (d : Reg)
  /-- SADD (R445): Scalar add. -/
  | sadd (x : Pre) (d : Reg) (a : Reg) (b : Reg)
  /-- SSUB (R445): Scalar subtract. -/
  | ssub (x : Pre) (d : Reg) (a : Reg) (b : Reg)
  /-- SMUL (R445): Scalar multiply, low 64 bits. -/
  | smul (x : Pre) (d : Reg) (a : Reg) (b : Reg)
  /-- SMULH (R445): Scalar signed multiply, high 64 bits. -/
  | smulh (x : Pre) (d : Reg) (a : Reg) (b : Reg)
  /-- SAND (R445): Scalar bitwise AND. -/
  | sand (x : Pre) (d : Reg) (a : Reg) (b : Reg)
  /-- SOR (R445): Scalar bitwise OR. -/
  | sor (x : Pre) (d : Reg) (a : Reg) (b : Reg)
  /-- SXOR (R445): Scalar bitwise XOR. -/
  | sxor (x : Pre) (d : Reg) (a : Reg) (b : Reg)
  /-- SSHL (R445): Scalar shift left by b[5:0]. -/
  | sshl (x : Pre) (d : Reg) (a : Reg) (b : Reg)
  /-- SSHR (R445): Scalar logical shift right. -/
  | sshr (x : Pre) (d : Reg) (a : Reg) (b : Reg)
  /-- SSRA (R445): Scalar arithmetic shift right. -/
  | ssra (x : Pre) (d : Reg) (a : Reg) (b : Reg)
  /-- SMIN (R445): Scalar signed minimum. -/
  | smin (x : Pre) (d : Reg) (a : Reg) (b : Reg)
  /-- SMAX (R445): Scalar signed maximum. -/
  | smax (x : Pre) (d : Reg) (a : Reg) (b : Reg)
  /-- SMINN (R445): Scalar unsigned minimum. -/
  | sminn (x : Pre) (d : Reg) (a : Reg) (b : Reg)
  /-- SMAXN (R445): Scalar unsigned maximum. -/
  | smaxn (x : Pre) (d : Reg) (a : Reg) (b : Reg)
  /-- SSEL (R445): Selects a or b by whether the old s[d] is nonzero. -/
  | ssel (x : Pre) (d : Reg) (a : Reg) (b : Reg)
  /-- SMOV (R445): Scalar move. -/
  | smov (x : Pre) (d : Reg) (b : Reg)
  /-- SDIV (R445): Scalar signed divide. -/
  | sdiv (x : Pre) (d : Reg) (a : Reg) (b : Reg)
  /-- SDIVN (R445): Scalar unsigned divide. -/
  | sdivn (x : Pre) (d : Reg) (a : Reg) (b : Reg)
  /-- SREM (R445): Scalar signed remainder. -/
  | srem (x : Pre) (d : Reg) (a : Reg) (b : Reg)
  /-- SREMN (R445): Scalar unsigned remainder. -/
  | sremn (x : Pre) (d : Reg) (a : Reg) (b : Reg)
  /-- SCLZ (R445): Counts leading zero bits of s[a]. -/
  | sclz (x : Pre) (d : Reg) (a : Reg)
  /-- SPOP (R445): Counts set bits of s[a]. -/
  | spop (x : Pre) (d : Reg) (a : Reg)
  /-- SSEXT (R445): Sign-extends s[a] from bit b[5:0]. -/
  | ssext (x : Pre) (d : Reg) (a : Reg) (b : Reg)
  /-- SBFX (R445): Extracts an unsigned bit field of s[a]. -/
  | sbfx (x : Pre) (d : Reg) (a : Reg) (b : Reg)
  /-- SCMP_EQ (R445): Scalar compare equal. -/
  | scmpEq (x : Pre) (d : Reg) (a : Reg) (b : Reg)
  /-- SCMP_NE (R445): Scalar compare not equal. -/
  | scmpNe (x : Pre) (d : Reg) (a : Reg) (b : Reg)
  /-- SCMP_LT (R445): Scalar compare signed less than. -/
  | scmpLt (x : Pre) (d : Reg) (a : Reg) (b : Reg)
  /-- SCMP_LTN (R445): Scalar compare unsigned less than. -/
  | scmpLtn (x : Pre) (d : Reg) (a : Reg) (b : Reg)
  /-- SCMP_LE (R445): Scalar compare signed less or equal. -/
  | scmpLe (x : Pre) (d : Reg) (a : Reg) (b : Reg)
  /-- SCMP_LEN (R445): Scalar compare unsigned less or equal. -/
  | scmpLen (x : Pre) (d : Reg) (a : Reg) (b : Reg)
  /-- SADDI (R446): Scalar add of a sign-extended immediate. -/
  | saddi (x : Pre) (d : Reg) (a : Reg) (i : BitVec 11)
  /-- SANDI (R446): Scalar AND with a sign-extended immediate. -/
  | sandi (x : Pre) (d : Reg) (a : Reg) (i : BitVec 11)
  /-- SORI (R446): Scalar OR with a sign-extended immediate. -/
  | sori (x : Pre) (d : Reg) (a : Reg) (i : BitVec 11)
  /-- SXORI (R446): Scalar XOR with a sign-extended immediate. -/
  | sxori (x : Pre) (d : Reg) (a : Reg) (i : BitVec 11)
  /-- SSHI_SHL (R446): Scalar shift left by an immediate. -/
  | sshiShl (x : Pre) (d : Reg) (a : Reg) (i : BitVec 6)
  /-- SSHI_SHR (R446): Scalar logical shift right by an immediate. -/
  | sshiShr (x : Pre) (d : Reg) (a : Reg) (i : BitVec 6)
  /-- SSHI_SRA (R446): Scalar arithmetic shift right by an immediate. -/
  | sshiSra (x : Pre) (d : Reg) (a : Reg) (i : BitVec 6)
  /-- SCMPI_EQ (R446): Scalar compare equal to an immediate. -/
  | scmpiEq (x : Pre) (d : Reg) (a : Reg) (i : BitVec 9)
  /-- SCMPI_LT (R446): Scalar signed compare less than an immediate. -/
  | scmpiLt (x : Pre) (d : Reg) (a : Reg) (i : BitVec 9)
  /-- SCMPI_LTN (R446): Scalar unsigned compare less than an immediate. -/
  | scmpiLtn (x : Pre) (d : Reg) (a : Reg) (i : BitVec 9)
  /-- SCMPI_NE (R446): Scalar compare not equal to an immediate. -/
  | scmpiNe (x : Pre) (d : Reg) (a : Reg) (i : BitVec 9)
  /-- SLUI (R446): Loads an unsigned 18-bit immediate shifted left by 14. -/
  | slui (x : Pre) (d : Reg) (i : BitVec 18)
  /-- SMOVI (R446): Loads a sign-extended immediate. -/
  | smovi (x : Pre) (d : Reg) (i : BitVec 18)
  /-- BR (R378): Unconditional relative branch. -/
  | br (x : Pre) (o : BitVec 14)
  /-- BR_Z (R378): Branch when s[a] is zero. -/
  | brZ (x : Pre) (a : Reg) (o : BitVec 14)
  /-- BR_NZ (R378): Branch when s[a] is nonzero. -/
  | brNz (x : Pre) (a : Reg) (o : BitVec 14)
  /-- BR_NEG (R378): Branch when s[a] bit 63 is set. -/
  | brNeg (x : Pre) (a : Reg) (o : BitVec 14)
  /-- BR_NNEG (R378): Branch when s[a] bit 63 is clear. -/
  | brNneg (x : Pre) (a : Reg) (o : BitVec 14)
  /-- BR_PANY (R378): Branch when any live lane of p[a] is set. -/
  | brPany (x : Pre) (a : Reg) (o : BitVec 14)
  /-- BR_PALL (R378): Branch when every live lane of p[a] is set. -/
  | brPall (x : Pre) (a : Reg) (o : BitVec 14)
  /-- BR_PNONE (R378): Branch when no live lane of p[a] is set. -/
  | brPnone (x : Pre) (a : Reg) (o : BitVec 14)
  /-- BR_EMZ (R378): Branch when ACT is empty. -/
  | brEmz (x : Pre) (o : BitVec 14)
  /-- CALL (R380): Pushes the return and slides, moves the windows up and branches. -/
  | call (x : Pre) (k : BitVec 7) (i : BitVec 18)
  /-- RET (R442): Pops the link stack, moves the windows down with fills, and returns. -/
  | ret (x : Pre)
  /-- JR (R407): Jumps to the address in s[a]. -/
  | jr (x : Pre) (a : Reg)
  /-- CALLR (R381): Calls the address in s[a] with window slides. -/
  | callr (x : Pre) (k : BitVec 7) (a : Reg)
  /-- WINV (R515): Moves the vector window base by 16k registers. -/
  | winv (x : Pre) (b : Reg)
  /-- WINS (R515): Moves the scalar window base by 8k registers. -/
  | wins (x : Pre) (b : Reg)
  /-- WINQ (R515): Reads WBASE into s[d]. -/
  | winq (x : Pre) (d : Reg)
  /-- PAND (R429): Predicate AND. -/
  | pand (x : Pre) (d : Reg) (a : Reg) (b : Reg)
  /-- POR (R429): Predicate OR. -/
  | por (x : Pre) (d : Reg) (a : Reg) (b : Reg)
  /-- PXOR (R429): Predicate XOR. -/
  | pxor (x : Pre) (d : Reg) (a : Reg) (b : Reg)
  /-- PANDN (R429): Predicate AND-NOT. -/
  | pandn (x : Pre) (d : Reg) (a : Reg) (b : Reg)
  /-- PNOT (R429): Predicate NOT. -/
  | pnot (x : Pre) (d : Reg) (a : Reg)
  /-- PSET (R429): Sets a predicate from s[b] bits [31:0]. -/
  | pset (x : Pre) (d : Reg) (b : Reg)
  /-- PGET (R429): Reads a predicate into s[d]. -/
  | pget (x : Pre) (d : Reg) (a : Reg)
  /-- EMSET (R394): Sets EM from p[a]. -/
  | emset (x : Pre) (a : Reg)
  /-- EMGET (R394): Copies EM into p[d]. -/
  | emget (x : Pre) (d : Reg)
  /-- EMAND (R394): ANDs EM with p[a]. -/
  | emand (x : Pre) (a : Reg)
  /-- PPOP (R429): Counts set bits of p[a] & LIVE. -/
  | ppop (x : Pre) (d : Reg) (a : Reg)
  /-- PFIRST (R429): Finds the lowest set bit of p[a] & LIVE. -/
  | pfirst (x : Pre) (d : Reg) (a : Reg)
  /-- VADD_I32 (R476): Vector 32-bit add. -/
  | vaddI32 (x : Pre) (d : Reg) (a : Reg) (b : Reg)
  /-- VSUB_I32 (R497): Vector 32-bit subtract. -/
  | vsubI32 (x : Pre) (d : Reg) (a : Reg) (b : Reg)
  /-- VMUL_I32 (R497): Vector 32-bit multiply, low half. -/
  | vmulI32 (x : Pre) (d : Reg) (a : Reg) (b : Reg)
  /-- VMULH_I32 (R497): Vector 32-bit signed multiply, high half. -/
  | vmulhI32 (x : Pre) (d : Reg) (a : Reg) (b : Reg)
  /-- VMAD_I32 (R497): Vector 32-bit multiply-add into d. -/
  | vmadI32 (x : Pre) (d : Reg) (a : Reg) (b : Reg)
  /-- VAND_I32 (R476): Vector 32-bit AND. -/
  | vandI32 (x : Pre) (d : Reg) (a : Reg) (b : Reg)
  /-- VOR_I32 (R497): Vector 32-bit OR. -/
  | vorI32 (x : Pre) (d : Reg) (a : Reg) (b : Reg)
  /-- VXOR_I32 (R497): Vector 32-bit XOR. -/
  | vxorI32 (x : Pre) (d : Reg) (a : Reg) (b : Reg)
  /-- VSHL_I32 (R506): Vector 32-bit shift left. -/
  | vshlI32 (x : Pre) (d : Reg) (a : Reg) (b : Reg)
  /-- VSHR_I32 (R506): Vector 32-bit logical shift right. -/
  | vshrI32 (x : Pre) (d : Reg) (a : Reg) (b : Reg)
  /-- VSRA_I32 (R506): Vector 32-bit arithmetic shift right. -/
  | vsraI32 (x : Pre) (d : Reg) (a : Reg) (b : Reg)
  /-- VMIN_I32 (R497): Vector 32-bit signed minimum. -/
  | vminI32 (x : Pre) (d : Reg) (a : Reg) (b : Reg)
  /-- VMAX_I32 (R497): Vector 32-bit signed maximum. -/
  | vmaxI32 (x : Pre) (d : Reg) (a : Reg) (b : Reg)
  /-- VMINN_I32 (R497): Vector 32-bit unsigned minimum. -/
  | vminnI32 (x : Pre) (d : Reg) (a : Reg) (b : Reg)
  /-- VMAXN_I32 (R497): Vector 32-bit unsigned maximum. -/
  | vmaxnI32 (x : Pre) (d : Reg) (a : Reg) (b : Reg)
  /-- VABS_I32 (R476): Vector 32-bit absolute value. -/
  | vabsI32 (x : Pre) (d : Reg) (a : Reg)
  /-- VADD_I16 (R476): Vector packed 16-bit add. -/
  | vaddI16 (x : Pre) (d : Reg) (a : Reg) (b : Reg)
  /-- VSUB_I16 (R497): Vector packed 16-bit subtract. -/
  | vsubI16 (x : Pre) (d : Reg) (a : Reg) (b : Reg)
  /-- VMUL_I16 (R497): Vector packed 16-bit multiply, low half. -/
  | vmulI16 (x : Pre) (d : Reg) (a : Reg) (b : Reg)
  /-- VMULH_I16 (R497): Vector packed 16-bit signed multiply, high half. -/
  | vmulhI16 (x : Pre) (d : Reg) (a : Reg) (b : Reg)
  /-- VMAD_I16 (R497): Vector packed 16-bit multiply-add. -/
  | vmadI16 (x : Pre) (d : Reg) (a : Reg) (b : Reg)
  /-- VAND_I16 (R476): Vector packed 16-bit AND. -/
  | vandI16 (x : Pre) (d : Reg) (a : Reg) (b : Reg)
  /-- VOR_I16 (R497): Vector packed 16-bit OR. -/
  | vorI16 (x : Pre) (d : Reg) (a : Reg) (b : Reg)
  /-- VXOR_I16 (R497): Vector packed 16-bit XOR. -/
  | vxorI16 (x : Pre) (d : Reg) (a : Reg) (b : Reg)
  /-- VSHL_I16 (R506): Vector packed 16-bit shift left. -/
  | vshlI16 (x : Pre) (d : Reg) (a : Reg) (b : Reg)
  /-- VSHR_I16 (R506): Vector packed 16-bit logical shift right. -/
  | vshrI16 (x : Pre) (d : Reg) (a : Reg) (b : Reg)
  /-- VSRA_I16 (R506): Vector packed 16-bit arithmetic shift right. -/
  | vsraI16 (x : Pre) (d : Reg) (a : Reg) (b : Reg)
  /-- VMIN_I16 (R497): Vector packed 16-bit signed minimum. -/
  | vminI16 (x : Pre) (d : Reg) (a : Reg) (b : Reg)
  /-- VMAX_I16 (R497): Vector packed 16-bit signed maximum. -/
  | vmaxI16 (x : Pre) (d : Reg) (a : Reg) (b : Reg)
  /-- VMINN_I16 (R497): Vector packed 16-bit unsigned minimum. -/
  | vminnI16 (x : Pre) (d : Reg) (a : Reg) (b : Reg)
  /-- VMAXN_I16 (R497): Vector packed 16-bit unsigned maximum. -/
  | vmaxnI16 (x : Pre) (d : Reg) (a : Reg) (b : Reg)
  /-- VABS_I16 (R476): Vector packed 16-bit absolute value. -/
  | vabsI16 (x : Pre) (d : Reg) (a : Reg)
  /-- VADD_I64 (R476): Vector 64-bit add on register pairs. -/
  | vaddI64 (x : Pre) (d : Reg) (a : Reg) (b : Reg)
  /-- VSUB_I64 (R497): Vector 64-bit subtract. -/
  | vsubI64 (x : Pre) (d : Reg) (a : Reg) (b : Reg)
  /-- VMUL_I64 (R497): Vector 64-bit multiply, low half. -/
  | vmulI64 (x : Pre) (d : Reg) (a : Reg) (b : Reg)
  /-- VMULH_I64 (R497): Vector 64-bit signed multiply, high half. -/
  | vmulhI64 (x : Pre) (d : Reg) (a : Reg) (b : Reg)
  /-- VMAD_I64 (R497): Vector 64-bit multiply-add. -/
  | vmadI64 (x : Pre) (d : Reg) (a : Reg) (b : Reg)
  /-- VAND_I64 (R476): Vector 64-bit AND. -/
  | vandI64 (x : Pre) (d : Reg) (a : Reg) (b : Reg)
  /-- VOR_I64 (R497): Vector 64-bit OR. -/
  | vorI64 (x : Pre) (d : Reg) (a : Reg) (b : Reg)
  /-- VXOR_I64 (R497): Vector 64-bit XOR. -/
  | vxorI64 (x : Pre) (d : Reg) (a : Reg) (b : Reg)
  /-- VSHL_I64 (R506): Vector 64-bit shift left. -/
  | vshlI64 (x : Pre) (d : Reg) (a : Reg) (b : Reg)
  /-- VSHR_I64 (R506): Vector 64-bit logical shift right. -/
  | vshrI64 (x : Pre) (d : Reg) (a : Reg) (b : Reg)
  /-- VSRA_I64 (R506): Vector 64-bit arithmetic shift right. -/
  | vsraI64 (x : Pre) (d : Reg) (a : Reg) (b : Reg)
  /-- VMIN_I64 (R497): Vector 64-bit signed minimum. -/
  | vminI64 (x : Pre) (d : Reg) (a : Reg) (b : Reg)
  /-- VMAX_I64 (R497): Vector 64-bit signed maximum. -/
  | vmaxI64 (x : Pre) (d : Reg) (a : Reg) (b : Reg)
  /-- VMINN_I64 (R497): Vector 64-bit unsigned minimum. -/
  | vminnI64 (x : Pre) (d : Reg) (a : Reg) (b : Reg)
  /-- VMAXN_I64 (R497): Vector 64-bit unsigned maximum. -/
  | vmaxnI64 (x : Pre) (d : Reg) (a : Reg) (b : Reg)
  /-- VABS_I64 (R476): Vector 64-bit absolute value. -/
  | vabsI64 (x : Pre) (d : Reg) (a : Reg)
  /-- VSEL (R505): Selects a or b per lane by predicate p[k] named by the minor. -/
  | vsel (x : Pre) (k : BitVec 3) (d : Reg) (a : Reg) (b : Reg)
  /-- VMOV (R498): Vector move. -/
  | vmov (x : Pre) (d : Reg) (b : Reg)
  /-- VCLZ (R482): Per-lane leading zero count. -/
  | vclz (x : Pre) (d : Reg) (a : Reg)
  /-- VPOP (R501): Per-lane population count. -/
  | vpop (x : Pre) (d : Reg) (a : Reg)
  /-- VLID (R496): Writes each lane's number. -/
  | vlid (x : Pre) (d : Reg)
  /-- VCMP_EQ_I32 (R484): Vector compare equal into a predicate. -/
  | vcmpEqI32 (x : Pre) (d : Reg) (a : Reg) (b : Reg)
  /-- VCMP_NE_I32 (R484): Vector compare not equal. -/
  | vcmpNeI32 (x : Pre) (d : Reg) (a : Reg) (b : Reg)
  /-- VCMP_LT_I32 (R484): Vector signed less-than compare. -/
  | vcmpLtI32 (x : Pre) (d : Reg) (a : Reg) (b : Reg)
  /-- VCMP_LE_I32 (R484): Vector signed less-or-equal compare. -/
  | vcmpLeI32 (x : Pre) (d : Reg) (a : Reg) (b : Reg)
  /-- VCMP_LT_N32 (R484): Vector unsigned less-than compare. -/
  | vcmpLtN32 (x : Pre) (d : Reg) (a : Reg) (b : Reg)
  /-- VCMP_LE_N32 (R484): Vector unsigned less-or-equal compare. -/
  | vcmpLeN32 (x : Pre) (d : Reg) (a : Reg) (b : Reg)
  /-- VCMP_EQ_F32 (R484): Vector F32 equal compare. -/
  | vcmpEqF32 (x : Pre) (d : Reg) (a : Reg) (b : Reg)
  /-- VCMP_LT_F32 (R484): Vector F32 less-than compare. -/
  | vcmpLtF32 (x : Pre) (d : Reg) (a : Reg) (b : Reg)
  /-- VCMP_LE_F32 (R484): Vector F32 less-or-equal compare. -/
  | vcmpLeF32 (x : Pre) (d : Reg) (a : Reg) (b : Reg)
  /-- VCMP_UN_F32 (R484): Vector F32 unordered test. -/
  | vcmpUnF32 (x : Pre) (d : Reg) (a : Reg) (b : Reg)
  /-- VCMP_EQ_F64 (R484): Vector F64 equal compare. -/
  | vcmpEqF64 (x : Pre) (d : Reg) (a : Reg) (b : Reg)
  /-- VCMP_LT_F64 (R484): Vector F64 less-than compare. -/
  | vcmpLtF64 (x : Pre) (d : Reg) (a : Reg) (b : Reg)
  /-- VCMP_LE_F64 (R484): Vector F64 less-or-equal compare. -/
  | vcmpLeF64 (x : Pre) (d : Reg) (a : Reg) (b : Reg)
  /-- VCMP_UN_F64 (R484): Vector F64 unordered test. -/
  | vcmpUnF64 (x : Pre) (d : Reg) (a : Reg) (b : Reg)
  /-- VFADD_F32 (R489): Vector F32 add. -/
  | vfaddF32 (x : Pre) (d : Reg) (a : Reg) (b : Reg)
  /-- VFSUB_F32 (R489): Vector F32 subtract. -/
  | vfsubF32 (x : Pre) (d : Reg) (a : Reg) (b : Reg)
  /-- VFMUL_F32 (R489): Vector F32 multiply. -/
  | vfmulF32 (x : Pre) (d : Reg) (a : Reg) (b : Reg)
  /-- VFMA_F32 (R489): Vector F32 fused multiply-add into d. -/
  | vfmaF32 (x : Pre) (d : Reg) (a : Reg) (b : Reg)
  /-- VFNMA_F32 (R489): Vector F32 negated multiply-add. -/
  | vfnmaF32 (x : Pre) (d : Reg) (a : Reg) (b : Reg)
  /-- VFMIN_F32 (R489): Vector F32 minimumNumber. -/
  | vfminF32 (x : Pre) (d : Reg) (a : Reg) (b : Reg)
  /-- VFMAX_F32 (R489): Vector F32 maximumNumber. -/
  | vfmaxF32 (x : Pre) (d : Reg) (a : Reg) (b : Reg)
  /-- VFABS_F32 (R489): Vector F32 absolute value. -/
  | vfabsF32 (x : Pre) (d : Reg) (a : Reg)
  /-- VFNEG_F32 (R489): Vector F32 negate. -/
  | vfnegF32 (x : Pre) (d : Reg) (a : Reg)
  /-- VFCLASS_F32 (R489): Vector F32 class mask. -/
  | vfclassF32 (x : Pre) (d : Reg) (a : Reg)
  /-- VFADD_F16 (R489): Vector packed F16 add. -/
  | vfaddF16 (x : Pre) (d : Reg) (a : Reg) (b : Reg)
  /-- VFSUB_F16 (R489): Vector packed F16 subtract. -/
  | vfsubF16 (x : Pre) (d : Reg) (a : Reg) (b : Reg)
  /-- VFMUL_F16 (R489): Vector packed F16 multiply. -/
  | vfmulF16 (x : Pre) (d : Reg) (a : Reg) (b : Reg)
  /-- VFMA_F16 (R489): Vector packed F16 fused multiply-add. -/
  | vfmaF16 (x : Pre) (d : Reg) (a : Reg) (b : Reg)
  /-- VFNMA_F16 (R489): Vector packed F16 negated multiply-add. -/
  | vfnmaF16 (x : Pre) (d : Reg) (a : Reg) (b : Reg)
  /-- VFMIN_F16 (R489): Vector packed F16 minimumNumber. -/
  | vfminF16 (x : Pre) (d : Reg) (a : Reg) (b : Reg)
  /-- VFMAX_F16 (R489): Vector packed F16 maximumNumber. -/
  | vfmaxF16 (x : Pre) (d : Reg) (a : Reg) (b : Reg)
  /-- VFNEG_F16 (R489): Vector packed F16 negate. -/
  | vfnegF16 (x : Pre) (d : Reg) (a : Reg)
  /-- VFADD_BF16 (R489): Vector packed BF16 add. -/
  | vfaddBf16 (x : Pre) (d : Reg) (a : Reg) (b : Reg)
  /-- VFSUB_BF16 (R489): Vector packed BF16 subtract. -/
  | vfsubBf16 (x : Pre) (d : Reg) (a : Reg) (b : Reg)
  /-- VFMUL_BF16 (R489): Vector packed BF16 multiply. -/
  | vfmulBf16 (x : Pre) (d : Reg) (a : Reg) (b : Reg)
  /-- VFMA_BF16 (R489): Vector packed BF16 fused multiply-add. -/
  | vfmaBf16 (x : Pre) (d : Reg) (a : Reg) (b : Reg)
  /-- VFNMA_BF16 (R489): Vector packed BF16 negated multiply-add. -/
  | vfnmaBf16 (x : Pre) (d : Reg) (a : Reg) (b : Reg)
  /-- VFMIN_BF16 (R489): Vector packed BF16 minimumNumber. -/
  | vfminBf16 (x : Pre) (d : Reg) (a : Reg) (b : Reg)
  /-- VFMAX_BF16 (R489): Vector packed BF16 maximumNumber. -/
  | vfmaxBf16 (x : Pre) (d : Reg) (a : Reg) (b : Reg)
  /-- VFNEG_BF16 (R489): Vector packed BF16 negate. -/
  | vfnegBf16 (x : Pre) (d : Reg) (a : Reg)
  /-- VFADD_F64 (R489): Vector F64 add. -/
  | vfaddF64 (x : Pre) (d : Reg) (a : Reg) (b : Reg)
  /-- VFSUB_F64 (R489): Vector F64 subtract. -/
  | vfsubF64 (x : Pre) (d : Reg) (a : Reg) (b : Reg)
  /-- VFMUL_F64 (R489): Vector F64 multiply. -/
  | vfmulF64 (x : Pre) (d : Reg) (a : Reg) (b : Reg)
  /-- VFMA_F64 (R489): Vector F64 fused multiply-add. -/
  | vfmaF64 (x : Pre) (d : Reg) (a : Reg) (b : Reg)
  /-- VFNMA_F64 (R489): Vector F64 negated multiply-add. -/
  | vfnmaF64 (x : Pre) (d : Reg) (a : Reg) (b : Reg)
  /-- VFMIN_F64 (R489): Vector F64 minimumNumber. -/
  | vfminF64 (x : Pre) (d : Reg) (a : Reg) (b : Reg)
  /-- VFMAX_F64 (R489): Vector F64 maximumNumber. -/
  | vfmaxF64 (x : Pre) (d : Reg) (a : Reg) (b : Reg)
  /-- VFABS_F64 (R489): Vector F64 absolute value. -/
  | vfabsF64 (x : Pre) (d : Reg) (a : Reg)
  /-- VFNEG_F64 (R489): Vector F64 negate. -/
  | vfnegF64 (x : Pre) (d : Reg) (a : Reg)
  /-- VFCLASS_F64 (R489): Vector F64 class mask. -/
  | vfclassF64 (x : Pre) (d : Reg) (a : Reg)
  /-- VFRCP (R490): SFU F32 reciprocal; result pending until a marker. -/
  | vfrcp (x : Pre) (d : Reg) (a : Reg)
  /-- VFRSQ (R490): SFU F32 reciprocal square root. -/
  | vfrsq (x : Pre) (d : Reg) (a : Reg)
  /-- VFSQRT (R490): SFU F32 square root, correctly rounded. -/
  | vfsqrt (x : Pre) (d : Reg) (a : Reg)
  /-- VFDIV (R490): SFU F32 divide, correctly rounded. -/
  | vfdiv (x : Pre) (d : Reg) (a : Reg) (b : Reg)
  /-- VFEXP2 (R490): SFU F32 base-2 exponential. -/
  | vfexp2 (x : Pre) (d : Reg) (a : Reg)
  /-- VFLOG2 (R490): SFU F32 base-2 logarithm. -/
  | vflog2 (x : Pre) (d : Reg) (a : Reg)
  /-- VFSIN (R490): SFU sin(pi x). -/
  | vfsin (x : Pre) (d : Reg) (a : Reg)
  /-- VFCOS (R490): SFU cos(pi x). -/
  | vfcos (x : Pre) (d : Reg) (a : Reg)
  /-- VFTANH (R490): SFU hyperbolic tangent. -/
  | vftanh (x : Pre) (d : Reg) (a : Reg)
  /-- VFRCP_F64 (R490): SFU F64 reciprocal approximation. -/
  | vfrcpF64 (x : Pre) (d : Reg) (a : Reg)
  /-- VFRSQ_F64 (R490): SFU F64 reciprocal square root approximation. -/
  | vfrsqF64 (x : Pre) (d : Reg) (a : Reg)
  /-- VCVT (R486): Converts by a conversion code under FCTL.RM. -/
  | vcvt (x : Pre) (d : Reg) (a : Reg) (c : BitVec 7)
  /-- VCVT_RZ (R486): Converts by a conversion code rounding to zero. -/
  | vcvtRz (x : Pre) (d : Reg) (a : Reg) (c : BitVec 7)
  /-- VCVT_RN (R486): Converts by a conversion code rounding to nearest-even. -/
  | vcvtRn (x : Pre) (d : Reg) (a : Reg) (c : BitVec 7)
  /-- VCVT_SR (R486): Converts with stochastic rounding, advancing draw counters. -/
  | vcvtSr (x : Pre) (d : Reg) (a : Reg) (c : BitVec 7)
  /-- VPACK (R500): Converts several F32 sources and packs them into one word. -/
  | vpack (x : Pre) (d : Reg) (a : Reg) (c : BitVec 7)
  /-- VUNPK (R500): Unpacks packed elements and converts each to F32. -/
  | vunpk (x : Pre) (d : Reg) (a : Reg) (c : BitVec 7)
  /-- VSCACC_E8M0 (R504): Accumulates a partial times two E8M0 scales with one rounding. -/
  | vscaccE8m0 (x : Pre) (d : Reg) (a : Reg) (b : Reg)
  /-- VSCACC_E4M3 (R504): Accumulates a partial times two E4M3 scales. -/
  | vscaccE4m3 (x : Pre) (d : Reg) (a : Reg) (b : Reg)
  /-- VSCACC_BF16 (R504): Accumulates a partial times two BF16 scales. -/
  | vscaccBf16 (x : Pre) (d : Reg) (a : Reg) (b : Reg)
  /-- VSCACC_F32 (R504): Accumulates a partial times one F32 scale. -/
  | vscaccF32 (x : Pre) (d : Reg) (a : Reg) (b : Reg)
  /-- VSHUF (R507): Reads each lane's value from the lane its index names. -/
  | vshuf (x : Pre) (d : Reg) (a : Reg) (b : Reg)
  /-- VVOTE (R511): Ballots the member lanes into a scalar result. -/
  | vvote (x : Pre) (d : Reg) (a : Reg) (b : Reg)
  /-- VELECT (R487): Elects the lowest lane for each distinct value. -/
  | velect (x : Pre) (d : Reg) (a : Reg)
  /-- VRED_ADD_F32 (R503): Fixed-tree F32 sum reduction. -/
  | vredAddF32 (x : Pre) (d : Reg) (a : Reg)
  /-- VRED_ADD_I32 (R503): Integer sum reduction. -/
  | vredAddI32 (x : Pre) (d : Reg) (a : Reg)
  /-- VRED_MAX_F32 (R503): Fixed-tree F32 maximum reduction. -/
  | vredMaxF32 (x : Pre) (d : Reg) (a : Reg)
  /-- VRED_MIN_F32 (R503): Fixed-tree F32 minimum reduction. -/
  | vredMinF32 (x : Pre) (d : Reg) (a : Reg)
  /-- VSCAN_ADD_I32 (R503): Inclusive integer prefix sum over ACT. -/
  | vscanAddI32 (x : Pre) (d : Reg) (a : Reg)
  /-- LD (R412): Scalar load of 1 to 8 bytes; result pending until a marker. -/
  | ld (x : Pre) (w : Width) (s : Bool) (d : Reg) (a : Reg) (b : Reg)
  /-- ST (R459): Scalar store of 1 to 8 bytes. -/
  | st (x : Pre) (w : Width) (d : Reg) (a : Reg) (b : Reg)
  /-- VLD (R493): Split-phase indexed vector load counted on an arrival counter. -/
  | vld (x : Pre) (c : BitVec 4) (d : Reg) (a : Reg) (b : Reg)
  /-- VLDC (R493): Split-phase contiguous vector load. -/
  | vldc (x : Pre) (c : BitVec 4) (d : Reg) (a : Reg) (b : Reg)
  /-- VLD2 (R493): Split-phase indexed 64-bit vector load into a pair. -/
  | vld2 (x : Pre) (c : BitVec 4) (d : Reg) (a : Reg) (b : Reg)
  /-- VST (R509): Indexed vector store. -/
  | vst (x : Pre) (d : Reg) (a : Reg) (b : Reg)
  /-- VSTC (R509): Contiguous vector store. -/
  | vstc (x : Pre) (d : Reg) (a : Reg) (b : Reg)
  /-- VST2 (R509): Indexed 64-bit vector store from a pair. -/
  | vst2 (x : Pre) (d : Reg) (a : Reg) (b : Reg)
  /-- SPLD (R454): Vector load from cluster scratchpad. -/
  | spld (x : Pre) (d : Reg) (a : Reg) (b : Reg)
  /-- SPST (R456): Vector store to cluster scratchpad. -/
  | spst (x : Pre) (d : Reg) (a : Reg) (b : Reg)
  /-- ATOM (R363): Scalar atomic read-modify-write at the point of coherence. -/
  | atom (x : Pre) (o : AtomOp) (d : Reg) (a : Reg) (b : Reg)
  /-- VATOM (R479): Per-lane atomics on global memory. -/
  | vatom (x : Pre) (o : AtomOp) (d : Reg) (a : Reg) (b : Reg)
  /-- SPATOM (R449): Per-lane atomics on scratchpad. -/
  | spatom (x : Pre) (o : AtomOp) (d : Reg) (a : Reg) (b : Reg)
  /-- FENCE (R399): Orders earlier against later accesses at a kind and scope. -/
  | fence (x : Pre) (k : OrdKind) (s : Scope)
  /-- FLUSH (R399): Performs the write-back of a release at a scope. -/
  | flush (x : Pre) (s : Scope)
  /-- INVAL (R399): Performs the invalidation of an acquire at a scope. -/
  | inval (x : Pre) (s : Scope)
  /-- PREF (R432): Prefetches a line into L1 and L2 or L2 only. -/
  | pref (x : Pre) (l : Bool) (a : Reg) (b : Reg)
  /-- WAITC (R513): Parks until at most n loads on a counter are uncounted. -/
  | waitc (x : Pre) (a : Reg) (b : Reg)
  /-- MWAIT (R424): Parks until a doubleword differs from a value. -/
  | mwait (x : Pre) (d : Reg) (a : Reg) (b : Reg)
  /-- SYNCW (R462): Parks until a sync word's GEN differs from g. -/
  | syncw (x : Pre) (d : Reg) (a : Reg) (b : Reg)
  /-- SYNCSET (R461): Atomically writes a sync word. -/
  | syncset (x : Pre) (a : Reg) (b : Reg)
  /-- BAR (R366): Crew barrier arrival; parks until all groups arrive. -/
  | bar (x : Pre)
  /-- BOARR (R374): Arrives on a barrier object and binds the group to it. -/
  | boarr (x : Pre) (d : Reg) (a : Reg)
  /-- BOWAIT (R376): Parks until a barrier object's GEN differs from g. -/
  | bowait (x : Pre) (a : Reg) (b : Reg)
  /-- BOINIT (R373): Claims, resets or releases a barrier object. -/
  | boinit (x : Pre) (a : Reg) (b : Reg)
  /-- CPY_G2S (R385): Engine copy from global memory to scratchpad. -/
  | cpyG2s (x : Pre) (a : Reg) (b : Reg) (e : Reg)
  /-- CPY_S2G (R385): Engine copy from scratchpad to global memory. -/
  | cpyS2g (x : Pre) (a : Reg) (b : Reg) (e : Reg)
  /-- CPY_S2S (R385): Engine copy between scratchpads, optionally multicast. -/
  | cpyS2s (x : Pre) (a : Reg) (b : Reg) (e : Reg)
  /-- CPY_X (R385): Engine copy between virtual ranges with class checks. -/
  | cpyX (x : Pre) (a : Reg) (b : Reg) (e : Reg)
  /-- GTHR (R405): Engine gather of table rows by an index list. -/
  | gthr (x : Pre) (a : Reg) (b : Reg) (e : Reg)
  /-- COLL (R384): Joins a collective on a communicator. -/
  | coll (x : Pre) (a : Reg) (b : Reg) (e : Reg)
  /-- FSEND (R403): Sends a 64-byte message to a fabric-endpoint queue. -/
  | fsend (x : Pre) (a : Reg) (b : Reg) (e : Reg)
  /-- TGIVE (R469): Hands scratchpad tiles to an engine class. -/
  | tgive (x : Pre) (a : Reg) (b : Reg) (e : Reg)
  /-- TTAKE (R473): Closes tiles, waits for registered commands, reports status, returns tiles to THREAD. -/
  | ttake (x : Pre) (a : Reg) (b : Reg)
  /-- TCHK (R466): Reads a tile's owner state and busy bit. -/
  | tchk (x : Pre) (a : Reg) (b : Reg)
  /-- MMA (R237): Queues a pair matrix multiply-accumulate into C. -/
  | mma (x : Pre) (f : MatPair) (a : Reg) (b : Reg) (e : Reg)
  /-- MMAB (R240): Queues a block-scaled pair matrix operation writing partial tiles. -/
  | mmab (x : Pre) (f : MatPair) (a : Reg) (b : Reg) (e : Reg)
  /-- MBATCH (R242): Closes the open batch, optionally arranging an arrival. -/
  | mbatch (x : Pre) (d : Reg) (a : Reg)
  /-- MBWAIT (R244): Waits for batches to retire and reports their status. -/
  | mbwait (x : Pre) (d : Reg) (a : Reg)
  /-- MQRY (R245): Reads the engine status word; logged as VALUE. -/
  | mqry (x : Pre) (d : Reg)
  /-- SPAWN (R452): Deposits one entry per active lane into a spawn bin. -/
  | spawn (x : Pre) (a : Reg) (b : Reg)
  /-- BINCFG (R369): Sets, replaces or removes a spawn-bin configuration. -/
  | bincfg (x : Pre) (a : Reg) (b : Reg)
  /-- BINFLUSH (R370): Closes every non-empty bin of the context on the core. -/
  | binflush (x : Pre)
  /-- LAUNCH (R409): Submits a launch record as a device launch. -/
  | launch (x : Pre) (a : Reg)
  /-- DQPUSH (R391): Pushes an entry at the bottom of the core's deque. -/
  | dqpush (x : Pre) (d : Reg) (b : Reg)
  /-- DQPOP (R391): Pops an entry from the bottom of the core's deque. -/
  | dqpop (x : Pre) (d : Reg)
  /-- DQSTEAL (R391): Steals from the top of a core's deque. -/
  | dqsteal (x : Pre) (d : Reg) (a : Reg)
  /-- DQLEN (R391): Reads a deque's entry count; logged as VALUE. -/
  | dqlen (x : Pre) (d : Reg) (a : Reg)
  /-- QPUT (R436): Puts an entry into a graph-edge queue, parking when full. -/
  | qput (x : Pre) (a : Reg) (b : Reg)
  /-- QGET (R436): Takes an entry from a queue, parking when empty. -/
  | qget (x : Pre) (d : Reg) (a : Reg) (b : Reg)
  /-- QFREE (R437): Reads a queue's free-slot count. -/
  | qfree (x : Pre) (d : Reg) (a : Reg)
  /-- QTRYPUT (R437): Puts into a queue without parking. -/
  | qtryput (x : Pre) (d : Reg) (a : Reg) (b : Reg)
  /-- QTRYGET (R437): Takes from a queue without parking. -/
  | qtryget (x : Pre) (d : Reg) (a : Reg) (b : Reg)
  /-- TBSET (R464): Loads a bound register from a descriptor. -/
  | tbset (x : Pre) (d : Reg) (a : Reg)
  /-- TBCLR (R464): Clears a bound register. -/
  | tbclr (x : Pre) (d : Reg)
  /-- EBUD (R393): Reads the context's error budget; logged as VALUE. -/
  | ebud (x : Pre) (d : Reg)
  /-- LIVEQ (R414): Reads LIVE and its lane count. -/
  | liveq (x : Pre) (d : Reg)
  /-- BKPT (R371): Raises BKPT with TVAL 8. -/
  | bkpt (x : Pre)
  /-- RMARK (R443): Writes or consumes a USER record in a session. -/
  | rmark (x : Pre) (b : Reg)
  /-- DMBOX (R388): Sends a 64-byte mailbox REPORT or COMMAND. -/
  | dmbox (x : Pre) (a : Reg)
  /-- RDSR (R440): Reads a system register by index. -/
  | rdsr (x : Pre) (d : Reg) (i : SysReg)
  /-- WRSR (R517): Writes a system register by index with its checks. -/
  | wrsr (x : Pre) (a : Reg) (i : SysReg)
  /-- RUNAHEAD_END (R206): Run-ahead ends on the awaited return, 512 bundles or an invalid branch, restoring the checkpoint. -/
  | runaheadEnd (g : Nat)
  /-- VARIABLE_RESULT_LANDS (R119): An SFU, scalar load, scratchpad load, atomic or fill result lands in its register. -/
  | variableResultLands (g : Nat) (i : Nat)
  /-- SPLIT_LOAD_REPLY (R493): A lane reply of a split-phase load lands and may count the load. -/
  | splitLoadReply (g : Nat) (i : Nat)
  /-- GROUP_END (R27): A group ends, releasing slot, registers, attic and applying its binding. -/
  | groupEnd (g : Nat)
  /-- RETIREMENT_RELEASE_DONE (R33): A unit's retirement release at its level's scope completes. -/
  | retirementReleaseDone (l : Nat) (lv : Nat) (u : Nat)
  /-- OUTQ_PUT (R39): A finished launch puts its completion entry into OUTQ, waiting for room. -/
  | outqPut (l : Nat)
  /-- INQ_TAKE (R39): An admitted launch takes one entry from its INQ before placing. -/
  | inqTake (l : Nat)
  /-- BOUND_ARRAY_LOAD (R302): The BOUNDP array is read into b0-b15 before the first crew is placed. -/
  | boundArrayLoad (l : Nat)
  /-- QTAIL_DOORBELL (R51): Host writes the new tail index of a submission queue. -/
  | qtailDoorbell (t : Nat) (q : Nat) (v : Dword)
  /-- QBASE_WRITE (R52): Host writes a ring base, refused with error 0x02 while enabled. -/
  | qbaseWrite (t : Nat) (q : Nat) (v : Dword)
  /-- QCTL_WRITE (R52): Host enables or configures a submission queue. -/
  | qctlWrite (t : Nat) (q : Nat) (v : Dword)
  /-- SUBMISSION_ENTRY_FETCH (R55): The dispatcher takes one ring entry in round-robin order and checks it. -/
  | submissionEntryFetch (fail : Bool)
  /-- PLACEMENT_PASS (R61): Every 64 hub cycles the dispatcher applies frees and places units. -/
  | placementPass
  /-- TURN_END (R77): A context's turn ends at its count or with no ready group; the next slot takes the turn. -/
  | turnEnd (core : Nat)
  /-- PROGRESS_EVICTION (R49): After 65,536 parked issue cycles a placement unit is evicted for progress. -/
  | progressEviction (core : Nat)
  /-- SPAWN_BIN_TIMER (R68): A bin's timer expires and closes the bin. -/
  | spawnBinTimer (core : Nat) (bin : Nat)
  /-- DEQUE_SERVICE (R72): A deque cycle serves one bottom and one top request. -/
  | dequeService (core : Nat)
  /-- COPY_PIECE_LANDS (R248): A piece of a copy lands at its destination. -/
  | copyPieceLands (core : Nat) (cmd : Nat) (first : Nat) (count : Nat)
  /-- GATHER_ROW_LANDS (R405): A gathered row lands at its destination. -/
  | gatherRowLands (core : Nat) (cmd : Nat) (row : Nat)
  /-- MATRIX_OPERATION (R238): A pair starts its next queued matrix operation after the previous one. -/
  | matrixOperation (pair : Nat)
  /-- COLLECTIVE_COMPLETE (R384): Once all ranks arrive, the reduced result lands at each rank. -/
  | collectiveComplete (ctx : Nat) (comm : Nat) (peers : (List (Nat × List Byte)))
  /-- ENGINE_COMMAND_COMPLETE (R473): An engine command completes and deregisters from its tiles. -/
  | engineCommandComplete (core : Nat) (cmd : Nat)
  /-- FABRIC_CREDIT_REQUEST (R75): A sender's credit request reaches the destination queue home. -/
  | fabricCreditRequest (dev : Nat) (t : Nat) (q : Nat)
  /-- FABRIC_DELIVERY (R436): A fabric message arrives and fills a queue slot. It names the sender's cluster and the order number of
  its sending chunk, and `ext` says that the sender is outside the recorded set (R315, R323). -/
  | fabricDelivery (dev : Nat) (t : Nat) (q : Nat) (clu : Nat) (order : Nat) (ext : Bool) (payload : (BitVec 512))
  /-- FABRIC_FAILURE_NOTICE (R355): A failure notice reaches the sender; credit returns, status 0x16, or 0x17 for a request turned away for its
  queue's header. -/
  | fabricFailureNotice (core : Nat) (cmd : Notice)
  /-- FABRIC_LINK_DOWN (R353): A link failing 64 retries of a flit is taken down. -/
  | fabricLinkDown (port : Nat)
  /-- PEER_WINDOW_REQUEST (R356): A peer's fabric-window request is served through the export table. -/
  | peerWindowRequest (t : Nat) (wr : PeerAccess) (off : Nat) (n : Nat) (data : Dword)
  /-- EXPORT_TABLE_WRITE (R356): PF0 writes an export-table entry, refused on overlap. -/
  | exportTableWrite (k : Nat) (wbase : Dword) (rbase : Dword) (len : Dword) (t : Byte) (valid : Byte)
  /-- FAULT_SERVICE (R269): The fault service unit takes a parked page fault and resolves or escalates it. -/
  | faultService (f : Nat)
  /-- CELLAR_EXPANSION_DONE (R183): A cellar page finishes expanding; waiting groups' counts fall. -/
  | cellarExpansionDone (f : Nat)
  /-- MIGRATE_ON_TOUCH_DONE (R269): A migrate-on-touch page finishes copying in. -/
  | migrateOnTouchDone (f : Nat)
  /-- FRES_WRITE (R270): The host answers a fault record as resolved or unresolvable. -/
  | fresWrite (t : Nat) (ring : Bool) (v : Dword)
  /-- WALK_COMPLETE (R275): A page walk finishes and fills or is discarded. -/
  | walkComplete (k : Nat)
  /-- PAGE_MIGRATION (R272): Firmware migrates a resident page line by line. -/
  | pageMigration (ctx : Nat) (va : Dword) (dst : Dword)
  /-- SHOOTDOWN_COMPLETE (R274): A shoot-down completes and takes the next sequence number. -/
  | shootdownComplete (k : Nat)
  /-- FILTER_CLEAR (R179): A slice's miss count reaches 2^W and clears the filter. -/
  | filterClear (slice : Nat)
  /-- PIN_SWAP (R306): A pin passing the corrected-error threshold is mapped to a spare lane. -/
  | pinSwap (stack : Nat) (channel : Nat) (pin : Nat)
  /-- SECTOR_PIN (R307): Firmware pins a failing sector into a locked L3 way. -/
  | sectorPin (pa : Nat)
  /-- FORMAT (R292): Firmware reformats an unused frame. -/
  | format (frame : Nat) (fmt : Cls)
  /-- INJECT (R312): Test firmware marks a sector for an injected error. -/
  | inject (site : Site) (uncorr : Bool) (dirty : Bool)
  /-- TEST_MODE_EXIT (R527): Leaving test mode closes small-larder sessions and drops armed marks. -/
  | testModeExit
  /-- RESET (R8): Reset runs self-test, maps cores and may hold the device in reset. -/
  | reset (bad : (List Nat)) (bootOk : Bool) (dev : (BitVec 12))
  /-- HOST_SELF_TEST (R9): Self-test on host command; a failing core becomes unavailable. -/
  | hostSelfTest (core : Nat) (pass : Bool)
  /-- POWER_ALARM (R15): A current monitor alarm places the C-die in narrowed mode. -/
  | powerAlarm (die : Nat)
  /-- ARBITER_INTERVAL (R14): Every 16,384 hub cycles the arbiter reallocates the power budget. -/
  | arbiterInterval (mw : Interval)
  /-- JUNCTION_TEMPERATURE_ALARM (R20): A die at 105 °C enters narrowed mode. -/
  | junctionTemperatureAlarm (die : Nat) (temp : Nat)
  /-- OVERTEMPERATURE_CUTOFF (R20): A die at 115 °C makes the controller cut package power. -/
  | overtemperatureCutoff (die : Nat) (temp : Nat)
  /-- TDI_ERROR (R348): A TDI entering ERROR terminates the tenant's enclave contexts. -/
  | tdiError (t : Nat)
  /-- CREATE (R350): Tenant command creating a context from a checked descriptor. -/
  | create (t : Nat)
  /-- TERMINATE (R288): Tenant command terminating a context. -/
  | terminate (t : Nat)
  /-- PREEMPT (R284): Tenant command pre-empting a context on a set of cores. -/
  | preempt (t : Nat)
  /-- RETURN (R285): Tenant command returning a pre-empted context to its cores. -/
  | returnCtx (t : Nat)
  /-- REFILL (R299): Tenant command setting the error budget. -/
  | refill (t : Nat)
  /-- SHOOT (R274): Tenant command starting a shoot-down of a range. -/
  | shoot (t : Nat)
  /-- POOL (R350): Tenant command adding or removing a frame of a free pool. -/
  | pool (t : Nat)
  /-- SHARE (R309): Tenant command setting a shared-frame table entry. -/
  | share (t : Nat)
  /-- SEALIN (R359): Tenant command decrypting a sealed blob into enclave pages. -/
  | sealin (t : Nat)
  /-- REKEY (R358): Tenant command re-keying an enclave region. -/
  | rekey (t : Nat)
  /-- ATTEST (R360): Tenant command writing a signed attestation report. -/
  | attest (t : Nat)
  /-- RING_RRD_WRITE (R352): Host advances a fault or error ring's read count, checked. -/
  | ringRrdWrite (t : Nat) (ring : Bool) (v : Dword)
  /-- RING_ENABLE (R352): Enabling a ring releases held fault records and the lost-count record. -/
  | ringEnable (t : Nat) (ring : Bool) (v : Dword)
  /-- SESSION_OPEN (R314): Setting LCTL.EN opens a record or replay session, or is refused. -/
  | sessionOpen (t : Nat) (k : Nat) (v : Dword)
  /-- SESSION_CLOSE (R314): Clearing LCTL.EN starts closing the session. -/
  | sessionClose (t : Nat) (k : Nat) (v : Dword)
  /-- SESSION_CLOSE_COMPLETE (R314): The close finishes after final records or terminations. -/
  | sessionCloseComplete (t : Nat) (k : Nat)
  /-- LRD_WRITE (R325): Host advances the larder read count over whole records. -/
  | lrdWrite (t : Nat) (k : Nat) (v : Dword)
  /-- LWR_WRITE (R328): In replay the host advances the write count of log written. -/
  | lwrWrite (t : Nat) (k : Nat) (v : Dword)
  /-- REPLAY_RESUME (R330): Clearing STOPPED resumes a halted replay. -/
  | replayResume (t : Nat) (k : Nat) (v : Dword)
  /-- RECORDER_SPILL (R326): A recorder spills buffered records into the larder ring. -/
  | recorderSpill (u : Nat)
  /-- CHUNK_COUNT_LIMIT (R317): A chunk reaching 16,384 instructions ends with code 0. -/
  | chunkCountLimit (g : Nat)
  /-- SAMPLE (R333): At each 2^k cycles each scheduler samples a slot into the sample ring. -/
  | sample (core : Nat)
  /-- DEBUG_REGISTER_WRITE (R338): A tenant writes a breakpoint or watchpoint register under ownership checks. -/
  | debugRegisterWrite (t : Nat) (core : Nat) (off : Nat) (v : Dword)
  /-- WRBP (R344): Debug command writing a breakpoint. -/
  | wrbp (core : Nat)
  /-- WRWP (R344): Debug command writing a watchpoint. -/
  | wrwp (core : Nat)
  /-- HALT (R342): Debug command halting a group set. -/
  | halt (core : Nat)
  /-- RESUME (R523): Debug command resuming a halted group set. -/
  | resume (core : Nat)
  /-- STEP (R343): Debug command stepping one halted group one bundle. -/
  | step (core : Nat)
  /-- RDST (R345): Debug command reading a halted group's PC, masks and stall code. -/
  | rdst (core : Nat)
  /-- RDV (R345): Debug command reading a vector register of a halted group. -/
  | rdv (core : Nat)
  /-- SETEV (R344): Debug command setting the halt-event address. -/
  | setev (core : Nat)
  /-- REGISTER_WRITE (R349): Any other device register write, with its field rules. -/
  | registerWrite (t : Nat) (off : Nat) (v : Dword)
  /-- ILLEGAL_WORD (R137): A fetched word that decodes to no instruction raises ILLEGAL with its reason. -/
  | illegalWord (reason : Byte) (word : Word)
  /-- CELLAR_COMPRESSION (R183): Firmware ages a cold page and the hub codec compresses it in place, setting its PTE to CELLAR. -/
  | cellarCompression (ctx : Nat) (va : Dword) (img : Dword)
  /-- ACCESS_PERFORMED (R219): A store, spill or write-back performs at the L2 or at its point of coherence, freeing request slots and ending ordering waits. -/
  | accessPerformed (g : Nat) (i : Nat)
  /-- FETCH_RETURN (R80): An instruction-fetch miss returns and the group waiting with stall reason 23 becomes ready. -/
  | fetchReturn (g : Nat)
  /-- FABRIC_ACKNOWLEDGEMENT (R355): The acknowledgement of a delivered message reaches the sending port, which releases the message, and the
  FSEND completes with its sync update. -/
  | fabricAcknowledgement (core : Nat) (cmd : Nat)
  /-- FABRIC_CREDIT_GRANT (R75): A slot credit granted by a remote queue home reaches the sender, letting its port accept the held message. -/
  | fabricCreditGrant (core : Nat) (cmd : Nat)
  /-- TDI_STATE_CHANGE (R348): The host moves a virtual function's TDI between CONFIG_UNLOCKED, CONFIG_LOCKED and RUN through TDISP. -/
  | tdiStateChange (t : Nat) (st : Tdi)
  /-- TEST_MODE_ENTRY (R312): The management controller sets test mode, refused while any enclave context exists. -/
  | testModeEntry
  /-- HOST_LINK_DOWN (R346): The PCI Express link goes down, after which core dumps are read through the management controller's side-band port. -/
  | hostLinkDown
  deriving DecidableEq, Repr

end Sys2Proof
end

