-- ==== Sys2Proof/WellFormed.lean ====
section
/-! DEFINITION. The instructions that a bundle can encode: the prefixes an instruction accepts (R108, R112, R113, R117,
R118) and the code fields that have a meaning (R130, R131, R134). Register fields are judged when the instruction issues,
because their validity depends on the group's windows (R104 to R107). -/

namespace Sys2Proof

/-- The marker and prefixes of an instruction; an event has none. -/
def Instr.pre? : Instr → Option Pre
  | .nop x | .exit x | .trap x .. | .tfence x | .eret x | .yield x | .rdflag x .. | .clrflag x .. | .rdcyc x ..
  | .sadd x .. | .ssub x .. | .smul x .. | .smulh x .. | .sand x .. | .sor x .. | .sxor x .. | .sshl x .. | .sshr x ..
  | .ssra x .. | .smin x .. | .smax x .. | .sminn x .. | .smaxn x .. | .ssel x .. | .smov x .. | .sdiv x ..
  | .sdivn x .. | .srem x .. | .sremn x .. | .sclz x .. | .spop x .. | .ssext x .. | .sbfx x .. | .scmpEq x ..
  | .scmpNe x .. | .scmpLt x .. | .scmpLtn x .. | .scmpLe x .. | .scmpLen x .. | .saddi x .. | .sandi x .. | .sori x ..
  | .sxori x .. | .sshiShl x .. | .sshiShr x .. | .sshiSra x .. | .scmpiEq x .. | .scmpiLt x .. | .scmpiLtn x ..
  | .scmpiNe x .. | .slui x .. | .smovi x .. | .br x .. | .brZ x .. | .brNz x .. | .brNeg x .. | .brNneg x ..
  | .brPany x .. | .brPall x .. | .brPnone x .. | .brEmz x .. | .call x .. | .ret x | .jr x .. | .callr x ..
  | .winv x .. | .wins x .. | .winq x .. | .pand x .. | .por x .. | .pxor x .. | .pandn x .. | .pnot x .. | .pset x ..
  | .pget x .. | .emset x .. | .emget x .. | .emand x .. | .ppop x .. | .pfirst x .. | .vaddI32 x .. | .vsubI32 x ..
  | .vmulI32 x .. | .vmulhI32 x .. | .vmadI32 x .. | .vandI32 x .. | .vorI32 x .. | .vxorI32 x .. | .vshlI32 x ..
  | .vshrI32 x .. | .vsraI32 x .. | .vminI32 x .. | .vmaxI32 x .. | .vminnI32 x .. | .vmaxnI32 x .. | .vabsI32 x ..
  | .vaddI16 x .. | .vsubI16 x .. | .vmulI16 x .. | .vmulhI16 x .. | .vmadI16 x .. | .vandI16 x .. | .vorI16 x ..
  | .vxorI16 x .. | .vshlI16 x .. | .vshrI16 x .. | .vsraI16 x .. | .vminI16 x .. | .vmaxI16 x .. | .vminnI16 x ..
  | .vmaxnI16 x .. | .vabsI16 x .. | .vaddI64 x .. | .vsubI64 x .. | .vmulI64 x .. | .vmulhI64 x .. | .vmadI64 x ..
  | .vandI64 x .. | .vorI64 x .. | .vxorI64 x .. | .vshlI64 x .. | .vshrI64 x .. | .vsraI64 x .. | .vminI64 x ..
  | .vmaxI64 x .. | .vminnI64 x .. | .vmaxnI64 x .. | .vabsI64 x .. | .vsel x .. | .vmov x .. | .vclz x .. | .vpop x ..
  | .vlid x .. | .vcmpEqI32 x .. | .vcmpNeI32 x .. | .vcmpLtI32 x .. | .vcmpLeI32 x .. | .vcmpLtN32 x ..
  | .vcmpLeN32 x .. | .vcmpEqF32 x .. | .vcmpLtF32 x .. | .vcmpLeF32 x .. | .vcmpUnF32 x .. | .vcmpEqF64 x ..
  | .vcmpLtF64 x .. | .vcmpLeF64 x .. | .vcmpUnF64 x .. | .vfaddF32 x .. | .vfsubF32 x .. | .vfmulF32 x ..
  | .vfmaF32 x .. | .vfnmaF32 x .. | .vfminF32 x .. | .vfmaxF32 x .. | .vfabsF32 x .. | .vfnegF32 x ..
  | .vfclassF32 x .. | .vfaddF16 x .. | .vfsubF16 x .. | .vfmulF16 x .. | .vfmaF16 x .. | .vfnmaF16 x ..
  | .vfminF16 x .. | .vfmaxF16 x .. | .vfnegF16 x .. | .vfaddBf16 x .. | .vfsubBf16 x .. | .vfmulBf16 x ..
  | .vfmaBf16 x .. | .vfnmaBf16 x .. | .vfminBf16 x .. | .vfmaxBf16 x .. | .vfnegBf16 x .. | .vfaddF64 x ..
  | .vfsubF64 x .. | .vfmulF64 x .. | .vfmaF64 x .. | .vfnmaF64 x .. | .vfminF64 x .. | .vfmaxF64 x .. | .vfabsF64 x ..
  | .vfnegF64 x .. | .vfclassF64 x .. | .vfrcp x .. | .vfrsq x .. | .vfsqrt x .. | .vfdiv x .. | .vfexp2 x ..
  | .vflog2 x .. | .vfsin x .. | .vfcos x .. | .vftanh x .. | .vfrcpF64 x .. | .vfrsqF64 x .. | .vcvt x ..
  | .vcvtRz x .. | .vcvtRn x .. | .vcvtSr x .. | .vpack x .. | .vunpk x .. | .vscaccE8m0 x .. | .vscaccE4m3 x ..
  | .vscaccBf16 x .. | .vscaccF32 x .. | .vshuf x .. | .vvote x .. | .velect x .. | .vredAddF32 x .. | .vredAddI32 x ..
  | .vredMaxF32 x .. | .vredMinF32 x .. | .vscanAddI32 x .. | .ld x .. | .st x .. | .vld x .. | .vldc x .. | .vld2 x ..
  | .vst x .. | .vstc x .. | .vst2 x .. | .spld x .. | .spst x .. | .atom x .. | .vatom x .. | .spatom x ..
  | .fence x .. | .flush x .. | .inval x .. | .pref x .. | .waitc x .. | .mwait x .. | .syncw x .. | .syncset x ..
  | .bar x | .boarr x .. | .bowait x .. | .boinit x .. | .cpyG2s x .. | .cpyS2g x .. | .cpyS2s x .. | .cpyX x ..
  | .gthr x .. | .coll x .. | .fsend x .. | .tgive x .. | .ttake x .. | .tchk x .. | .mma x .. | .mmab x ..
  | .mbatch x .. | .mbwait x .. | .mqry x .. | .spawn x .. | .bincfg x .. | .binflush x | .launch x .. | .dqpush x ..
  | .dqpop x .. | .dqsteal x .. | .dqlen x .. | .qput x .. | .qget x .. | .qfree x .. | .qtryput x .. | .qtryget x ..
  | .tbset x .. | .tbclr x .. | .ebud x .. | .liveq x .. | .bkpt x | .rmark x .. | .dmbox x .. | .rdsr x ..
  | .wrsr x .. => some x
  | .runaheadEnd .. | .variableResultLands .. | .splitLoadReply .. | .groupEnd .. | .retirementReleaseDone ..
  | .outqPut .. | .inqTake .. | .boundArrayLoad .. | .qtailDoorbell .. | .qbaseWrite .. | .qctlWrite ..
  | .submissionEntryFetch .. | .placementPass | .turnEnd .. | .progressEviction .. | .spawnBinTimer ..
  | .dequeService .. | .copyPieceLands .. | .gatherRowLands .. | .matrixOperation .. | .collectiveComplete ..
  | .engineCommandComplete .. | .fabricCreditRequest .. | .fabricDelivery .. | .fabricFailureNotice ..
  | .fabricLinkDown .. | .peerWindowRequest .. | .exportTableWrite .. | .faultService .. | .cellarExpansionDone ..
  | .migrateOnTouchDone .. | .fresWrite .. | .walkComplete .. | .pageMigration .. | .shootdownComplete ..
  | .filterClear .. | .pinSwap .. | .sectorPin .. | .format .. | .inject .. | .testModeExit | .reset ..
  | .hostSelfTest .. | .powerAlarm .. | .arbiterInterval .. | .junctionTemperatureAlarm .. | .overtemperatureCutoff ..
  | .tdiError .. | .create .. | .terminate .. | .preempt .. | .returnCtx .. | .refill .. | .shoot .. | .pool ..
  | .share .. | .sealin .. | .rekey .. | .attest .. | .ringRrdWrite .. | .ringEnable .. | .sessionOpen ..
  | .sessionClose .. | .sessionCloseComplete .. | .lrdWrite .. | .lwrWrite .. | .replayResume .. | .recorderSpill ..
  | .chunkCountLimit .. | .sample .. | .debugRegisterWrite .. | .wrbp .. | .wrwp .. | .halt .. | .resume .. | .step ..
  | .rdst .. | .rdv .. | .setev .. | .registerWrite .. | .illegalWord .. | .cellarCompression .. | .accessPerformed ..
  | .fetchReturn .. | .fabricAcknowledgement .. | .fabricCreditGrant .. | .tdiStateChange .. | .testModeEntry
  | .hostLinkDown => none

/-- The prefixes an instruction accepts: IMM, ORD, REP, LANE, and LANE patterns on a and on b. -/
structure Takes where
  imm : Bool
  ord : Bool
  rep : Bool
  lane : Bool
  laneA : Bool
  laneB : Bool
  deriving DecidableEq, Repr

/-- The prefix acceptance table of R118 with the rules of R108 and R117, instruction by instruction. -/
def Instr.takes : Instr → Takes
  | .nop .. | .exit .. | .tfence .. | .eret .. | .yield .. | .rdflag .. | .rdcyc .. | .ret .. | .jr .. | .callr ..
  | .winq .. | .fence .. | .flush .. | .inval .. | .bar .. | .boarr .. | .cpyG2s .. | .cpyS2g .. | .cpyS2s ..
  | .cpyX .. | .gthr .. | .coll .. | .fsend .. | .ttake .. | .tchk .. | .mma .. | .mmab .. | .mbatch .. | .mbwait ..
  | .mqry .. | .binflush .. | .launch .. | .dqpop .. | .dqsteal .. | .dqlen .. | .qfree .. | .tbset .. | .tbclr ..
  | .ebud .. | .liveq .. | .bkpt .. | .dmbox .. | .rdsr .. | .wrsr .. =>
    ⟨false, false, false, false, false, false⟩
  | .trap .. | .clrflag .. | .br .. | .brZ .. | .brNz .. | .brNeg .. | .brNneg .. | .brPany .. | .brPall ..
  | .brPnone .. | .brEmz .. | .call .. | .winv .. | .wins .. | .pref .. | .waitc .. | .mwait .. | .syncw ..
  | .syncset .. | .bowait .. | .boinit .. | .tgive .. | .spawn .. | .bincfg .. | .dqpush .. | .qput .. | .qget ..
  | .qtryput .. | .qtryget .. | .rmark .. =>
    ⟨true, false, false, false, false, false⟩
  | .sadd .. | .ssub .. | .smul .. | .smulh .. | .sand .. | .sor .. | .sxor .. | .sshl .. | .sshr .. | .ssra ..
  | .smin .. | .smax .. | .sminn .. | .smaxn .. | .ssel .. | .smov .. | .sdiv .. | .sdivn .. | .srem .. | .sremn ..
  | .ssext .. | .sbfx .. | .scmpEq .. | .scmpNe .. | .scmpLt .. | .scmpLtn .. | .scmpLe .. | .scmpLen .. | .saddi ..
  | .sandi .. | .sori .. | .sxori .. | .scmpiEq .. | .scmpiLt .. | .scmpiLtn .. | .scmpiNe .. | .smovi .. | .pset ..
  | .vfdiv .. | .vscaccE8m0 .. | .vscaccE4m3 .. | .vscaccBf16 .. | .vscaccF32 .. | .vshuf .. =>
    ⟨true, false, true, false, false, false⟩
  | .sclz .. | .spop .. | .sshiShl .. | .sshiShr .. | .sshiSra .. | .slui .. | .pand .. | .por .. | .pxor ..
  | .pandn .. | .pnot .. | .pget .. | .emset .. | .emget .. | .emand .. | .ppop .. | .pfirst .. | .vlid .. | .vfrcp ..
  | .vfrsq .. | .vfsqrt .. | .vfexp2 .. | .vflog2 .. | .vfsin .. | .vfcos .. | .vftanh .. | .vfrcpF64 .. | .vfrsqF64 ..
  | .vvote .. | .velect .. | .vredAddF32 .. | .vredAddI32 .. | .vredMaxF32 .. | .vredMinF32 .. | .vscanAddI32 .. =>
    ⟨false, false, true, false, false, false⟩
  | .vaddI32 .. | .vsubI32 .. | .vmulI32 .. | .vmulhI32 .. | .vmadI32 .. | .vandI32 .. | .vorI32 .. | .vxorI32 ..
  | .vshlI32 .. | .vshrI32 .. | .vsraI32 .. | .vminI32 .. | .vmaxI32 .. | .vminnI32 .. | .vmaxnI32 .. | .vaddI16 ..
  | .vsubI16 .. | .vmulI16 .. | .vmulhI16 .. | .vmadI16 .. | .vandI16 .. | .vorI16 .. | .vxorI16 .. | .vshlI16 ..
  | .vshrI16 .. | .vsraI16 .. | .vminI16 .. | .vmaxI16 .. | .vminnI16 .. | .vmaxnI16 .. | .vaddI64 .. | .vsubI64 ..
  | .vmulI64 .. | .vmulhI64 .. | .vmadI64 .. | .vandI64 .. | .vorI64 .. | .vxorI64 .. | .vshlI64 .. | .vshrI64 ..
  | .vsraI64 .. | .vminI64 .. | .vmaxI64 .. | .vminnI64 .. | .vmaxnI64 .. | .vsel .. | .vcmpEqI32 .. | .vcmpNeI32 ..
  | .vcmpLtI32 .. | .vcmpLeI32 .. | .vcmpLtN32 .. | .vcmpLeN32 .. | .vcmpEqF32 .. | .vcmpLtF32 .. | .vcmpLeF32 ..
  | .vcmpUnF32 .. | .vcmpEqF64 .. | .vcmpLtF64 .. | .vcmpLeF64 .. | .vcmpUnF64 .. | .vfaddF32 .. | .vfsubF32 ..
  | .vfmulF32 .. | .vfmaF32 .. | .vfnmaF32 .. | .vfminF32 .. | .vfmaxF32 .. | .vfaddF16 .. | .vfsubF16 ..
  | .vfmulF16 .. | .vfmaF16 .. | .vfnmaF16 .. | .vfminF16 .. | .vfmaxF16 .. | .vfaddBf16 .. | .vfsubBf16 ..
  | .vfmulBf16 .. | .vfmaBf16 .. | .vfnmaBf16 .. | .vfminBf16 .. | .vfmaxBf16 .. | .vfaddF64 .. | .vfsubF64 ..
  | .vfmulF64 .. | .vfmaF64 .. | .vfnmaF64 .. | .vfminF64 .. | .vfmaxF64 .. =>
    ⟨true, false, true, true, true, true⟩
  | .vabsI32 .. | .vabsI16 .. | .vabsI64 .. | .vclz .. | .vpop .. | .vfabsF32 .. | .vfnegF32 .. | .vfclassF32 ..
  | .vfnegF16 .. | .vfnegBf16 .. | .vfabsF64 .. | .vfnegF64 .. | .vfclassF64 .. | .vcvt .. | .vcvtRz .. | .vcvtRn ..
  | .vcvtSr .. | .vpack .. | .vunpk .. =>
    ⟨false, false, true, true, true, false⟩
  | .vmov .. =>
    ⟨true, false, true, true, false, true⟩
  | .ld .. | .st .. | .vld .. | .vldc .. | .vld2 .. | .vst .. | .vstc .. | .vst2 .. | .spld .. | .spst .. | .atom ..
  | .vatom .. | .spatom .. =>
    ⟨true, true, true, false, false, false⟩
  | .runaheadEnd .. | .variableResultLands .. | .splitLoadReply .. | .groupEnd .. | .retirementReleaseDone ..
  | .outqPut .. | .inqTake .. | .boundArrayLoad .. | .qtailDoorbell .. | .qbaseWrite .. | .qctlWrite ..
  | .submissionEntryFetch .. | .placementPass | .turnEnd .. | .progressEviction .. | .spawnBinTimer ..
  | .dequeService .. | .copyPieceLands .. | .gatherRowLands .. | .matrixOperation .. | .collectiveComplete ..
  | .engineCommandComplete .. | .fabricCreditRequest .. | .fabricDelivery .. | .fabricFailureNotice ..
  | .fabricLinkDown .. | .peerWindowRequest .. | .exportTableWrite .. | .faultService .. | .cellarExpansionDone ..
  | .migrateOnTouchDone .. | .fresWrite .. | .walkComplete .. | .pageMigration .. | .shootdownComplete ..
  | .filterClear .. | .pinSwap .. | .sectorPin .. | .format .. | .inject .. | .testModeExit | .reset ..
  | .hostSelfTest .. | .powerAlarm .. | .arbiterInterval .. | .junctionTemperatureAlarm .. | .overtemperatureCutoff ..
  | .tdiError .. | .create .. | .terminate .. | .preempt .. | .returnCtx .. | .refill .. | .shoot .. | .pool ..
  | .share .. | .sealin .. | .rekey .. | .attest .. | .ringRrdWrite .. | .ringEnable .. | .sessionOpen ..
  | .sessionClose .. | .sessionCloseComplete .. | .lrdWrite .. | .lwrWrite .. | .replayResume .. | .recorderSpill ..
  | .chunkCountLimit .. | .sample .. | .debugRegisterWrite .. | .wrbp .. | .wrwp .. | .halt .. | .resume .. | .step ..
  | .rdst .. | .rdv .. | .setev .. | .registerWrite .. | .illegalWord .. | .cellarCompression .. | .accessPerformed ..
  | .fetchReturn .. | .fabricAcknowledgement .. | .fabricCreditGrant .. | .tdiStateChange .. | .testModeEntry
  | .hostLinkDown =>
    ⟨false, false, false, false, false, false⟩

/-- Conversion codes that a minor of major 0x1A accepts (R134, R135): VCVT, VCVT.RZ and VCVT.RN; VCVT.SR; VPACK; VUNPK. -/
def convPlain (c : BitVec 7) : Bool := c.toNat ≤ 0x0D || (0x10 ≤ c.toNat && c.toNat ≤ 0x16) || (0x18 ≤ c.toNat && c.toNat ≤ 0x1E)
def convSr (c : BitVec 7) : Bool := [0x00, 0x02, 0x03, 0x10, 0x11, 0x12, 0x13, 0x14, 0x15, 0x16].contains c.toNat
def convPack (c : BitVec 7) : Bool := [0x02, 0x03, 0x10, 0x11, 0x12, 0x13, 0x14, 0x15, 0x16].contains c.toNat
def convUnpack (c : BitVec 7) : Bool := [0x04, 0x05, 0x18, 0x19, 0x1A, 0x1B, 0x1C].contains c.toNat

/-- ORD kinds that an access accepts (R112): loads take no release, stores no acquire, and acq_rel and W64 are for atomics. -/
def ordLoad (p : OrdPfx) : Bool := p.kind != .release && p.kind != .acqRel && !p.w64
def ordStore (p : OrdPfx) : Bool := p.kind != .acquire && p.kind != .acqRel && !p.w64
def ordAtom (o : AtomOp) (p : OrdPfx) : Bool := !(p.w64 && o == .fadd)
/-- Scopes that a cluster scratchpad access accepts (R112). -/
def ordSp (p : OrdPfx) : Bool := p.scope != .pkg && p.scope != .sys

/-- Code fields with a meaning, and the ORD prefix the access accepts. -/
def Instr.codesOk (i : Instr) (px : Pfx) : Bool :=
  match i with
  | .ld _ w s _ _ _ => !(w == .w64 && s) && px.ord.all ordLoad
  | .st .. | .vst .. | .vstc .. | .vst2 .. => px.ord.all ordStore
  | .vld .. | .vldc .. | .vld2 .. => px.ord.all ordLoad
  | .spld .. => px.ord.all fun p => ordLoad p && ordSp p
  | .spst .. => px.ord.all fun p => ordStore p && ordSp p
  | .atom _ o _ _ _ | .vatom _ o _ _ _ => px.ord.all (ordAtom o)
  | .spatom _ o _ _ _ => px.ord.all fun p => ordAtom o p && ordSp p
  | .fence _ k _ => k != .relaxed
  | .vcvt _ _ _ c | .vcvtRz _ _ _ c | .vcvtRn _ _ _ c => convPlain c
  | .vcvtSr _ _ _ c => convSr c
  | .vpack _ _ _ c => convPack c && (c.toNat < 0x10 || px.lane.all fun l => l.a == .none)
  | .vunpk _ _ _ c => convUnpack c
  | _ => true

/-- An instruction that some bundle encodes. -/
def Instr.WellFormed (i : Instr) : Bool :=
  match i.pre? with
  | none => false
  | some x =>
    let t := i.takes
    (x.px.imm.isNone || t.imm) && (x.px.ord.isNone || t.ord) && (x.px.rep.isNone || t.rep) &&
    (x.px.lane.all fun l => t.lane && (l.a == .none || t.laneA) && (l.b == .none || (t.laneB && x.px.imm.isNone))) &&
    i.codesOk x.px

end Sys2Proof
end

