-- ==== Sys2Proof/Decode.lean ====
section
/-! DEFINITION. From words to instructions and back: steps 1 to 3 of R124 (prefixes, opcode and must-be-zero bits, prefix
acceptance) with the reasons of R125 and R137, then the encoder written from the same formats (R103, R127). -/

namespace Sys2Proof

/-- A refused word: the reason of R125 and the word in which the failing check lies. -/
structure DecErr where
  reason : Byte
  word : Word
  deriving DecidableEq, Repr

/-- Bits [lo + n - 1 : lo] of a word. -/
def bitsW (w : Word) (lo n : Nat) : BitVec n := w.extractLsb' lo n
/-- The major opcode (R100) and the minor (R103). -/
def majorOf (w : Word) : Nat := (bitsW w 25 6).toNat
def minorOf (w : Word) : Nat := (bitsW w 21 4).toNat

/-- Codes of the code fields (R29, R112, R130, R131, R136, R93). -/
def ordKindOf : Nat → Option OrdKind
  | 0 => some .relaxed | 1 => some .acquire | 2 => some .release | 3 => some .acqRel | 4 => some .seq | _ => none
def OrdKind.code : OrdKind → BitVec 3
  | .relaxed => 0 | .acquire => 1 | .release => 2 | .acqRel => 3 | .seq => 4
def scopeOf : Nat → Option Scope
  | 0 => some .grp | 1 => some .core | 2 => some .clu | 3 => some .pkg | 4 => some .sys | _ => none
def Scope.code : Scope → BitVec 3
  | .grp => 0 | .core => 1 | .clu => 2 | .pkg => 3 | .sys => 4
def widthOf : BitVec 2 → Width
  | 0 => .w8 | 1 => .w16 | 2 => .w32 | 3 => .w64
def Width.code : Width → BitVec 2
  | .w8 => 0 | .w16 => 1 | .w32 => 2 | .w64 => 3
def atomOpOf : Nat → Option AtomOp
  | 0 => some .add | 1 => some .and | 2 => some .or | 3 => some .xor | 4 => some .min | 5 => some .max | 6 => some .minn
  | 7 => some .maxn | 8 => some .swap | 9 => some .cas | 10 => some .fadd | _ => none
def AtomOp.code : AtomOp → BitVec 4
  | .add => 0 | .and => 1 | .or => 2 | .xor => 3 | .min => 4 | .max => 5 | .minn => 6 | .maxn => 7 | .swap => 8 | .cas => 9
  | .fadd => 10
def matPairOf : Nat → Option MatPair
  | 0 => some .bf16 | 1 => some .f16 | 2 => some .e4m3 | 3 => some .e5m2 | 4 => some .e4m3e5m2 | 5 => some .e5m2e4m3
  | 6 => some .e2m3 | 7 => some .e3m2 | 8 => some .e2m1 | 9 => some .bf16ts8 | 10 => some .e4m3ts8 | 11 => some .i8 | _ => none
def MatPair.code : MatPair → BitVec 4
  | .bf16 => 0 | .f16 => 1 | .e4m3 => 2 | .e5m2 => 3 | .e4m3e5m2 => 4 | .e5m2e4m3 => 5 | .e2m3 => 6 | .e3m2 => 7 | .e2m1 => 8
  | .bf16ts8 => 9 | .e4m3ts8 => 10 | .i8 => 11
def sysRegOf : Nat → Option SysReg
  | 0 => some .fctl | 1 => some .fflags | 2 => some .tvec | 3 => some .tcause | 4 => some .tpc | 5 => some .tval
  | 6 => some .rpidx | 7 => some .errbud | 8 => some .em | 9 => some .live | 10 => some .wbase | _ => none
def SysReg.code : SysReg → BitVec 7
  | .fctl => 0 | .fflags => 1 | .tvec => 2 | .tcause => 3 | .tpc => 4 | .tval => 5 | .rpidx => 6 | .errbud => 7 | .em => 8
  | .live => 9 | .wbase => 10

/-! ### Prefixes: step 1 of R124 -/

/-- A LANE pattern and its argument, or none outside the limits of R117. -/
def lanePatOf (p : BitVec 3) (n : BitVec 5) : Option LanePat :=
  match p.toNat with
  | 0 => if n = 0 then some .none else none
  | 1 => some (.rot n)
  | 2 => if n = 0 then some .rev else none
  | 3 => if n.toNat < 8 then some (.xor (n.extractLsb' 0 3)) else none
  | 4 => some (.bcast n)
  | _ => none

def LanePat.code : LanePat → BitVec 3 × BitVec 5
  | .none => (0, 0) | .rot n => (1, n) | .rev => (2, 0) | .xor n => (3, n.zeroExtend 5) | .bcast n => (4, n)

/-- Prefix words (R100, R108, R112, R113, R117). -/
def immWord (p : BitVec 25) : Word := 0#1 ++ 0x01#6 ++ p
def ordWord (p : OrdPfx) : Word := 0#1 ++ 0x3D#6 ++ p.kind.code ++ p.scope.code ++ BitVec.ofBool p.w64 ++ 0#18
def repWord (p : RepPfx) : Word :=
  0#1 ++ 0x3E#6 ++ p.count ++ BitVec.ofBool p.d ++ BitVec.ofBool p.a ++ BitVec.ofBool p.b ++ p.stride ++ 0#14
def laneWord (p : LanePfx) : Word :=
  0#1 ++ 0x3F#6 ++ 0#1 ++ p.a.code.1 ++ p.a.code.2 ++ p.b.code.1 ++ p.b.code.2 ++ 0#8

/-- Adds one prefix word to those of the bundle; none when the word is no prefix. -/
def addPrefix (px : Pfx) (w : Word) : Option (Except DecErr Pfx) :=
  let err (r : Byte) : Option (Except DecErr Pfx) := some (.error ⟨r, w⟩)
  match majorOf w with
  | 0x01 =>
    if w.msb then err 0x09 else if px.imm.isSome then err 0x06
    else some (.ok { px with imm := some (bitsW w 0 25) })
  | 0x3D =>
    if w.msb then err 0x09 else if bitsW w 0 18 ≠ 0 then err 0x02 else
    match ordKindOf (bitsW w 22 3).toNat, scopeOf (bitsW w 19 3).toNat with
    | some k, some s =>
      if px.ord.isSome then err 0x06 else some (.ok { px with ord := some ⟨k, s, w.getLsbD 18⟩ })
    | _, _ => err 0x07
  | 0x3E =>
    if w.msb then err 0x09 else if bitsW w 0 14 ≠ 0 then err 0x02 else if px.rep.isSome then err 0x06
    else some (.ok { px with rep := some ⟨bitsW w 19 6, w.getLsbD 18, w.getLsbD 17, w.getLsbD 16, bitsW w 14 2⟩ })
  | 0x3F =>
    if w.msb then err 0x09 else if bitsW w 0 8 ≠ 0 || w.getLsbD 24 then err 0x02 else
    match lanePatOf (bitsW w 21 3) (bitsW w 16 5), lanePatOf (bitsW w 13 3) (bitsW w 8 5) with
    | some a, some b => if px.lane.isSome then err 0x06 else some (.ok { px with lane := some ⟨a, b⟩ })
    | _, _ => err 0x07
  | _ => none

/-! ### The instruction word: step 2 of R124

Lean's compiler cannot build a term of a constructor numbered above 243, so the definitions that do are noncomputable: the
kernel evaluates them like any other. -/

/-- The instruction when the must-be-zero fields are zero (R138), else reason 0x02. -/
def zeros (zs : List Reg) (i : Instr) : Except Byte Instr := if zs.all (· == 0) then .ok i else .error 0x02

def dec00 (x : Pre) (w : Word) : Except Byte Instr :=
  let d : Reg := bitsW w 14 7
  let a : Reg := bitsW w 7 7
  let b : Reg := bitsW w 0 7
  match minorOf w with
  | 0 => zeros [d, a, b] (.nop x)
  | 1 => zeros [d, a, b] (.exit x)
  | 2 => zeros [d, a] (.trap x b)
  | 3 => zeros [d, a, b] (.tfence x)
  | 4 => zeros [d, a, b] (.eret x)
  | 5 => zeros [d, a, b] (.yield x)
  | 6 => zeros [a, b] (.rdflag x d)
  | 7 => zeros [d, a] (.clrflag x b)
  | 8 => zeros [a, b] (.rdcyc x d)
  | _ => .error 0x01

def dec02 (x : Pre) (w : Word) : Except Byte Instr :=
  let d : Reg := bitsW w 14 7
  let a : Reg := bitsW w 7 7
  let b : Reg := bitsW w 0 7
  match minorOf w with
  | 0 => .ok (.sadd x d a b)
  | 1 => .ok (.ssub x d a b)
  | 2 => .ok (.smul x d a b)
  | 3 => .ok (.smulh x d a b)
  | 4 => .ok (.sand x d a b)
  | 5 => .ok (.sor x d a b)
  | 6 => .ok (.sxor x d a b)
  | 7 => .ok (.sshl x d a b)
  | 8 => .ok (.sshr x d a b)
  | 9 => .ok (.ssra x d a b)
  | 10 => .ok (.smin x d a b)
  | 11 => .ok (.smax x d a b)
  | 12 => .ok (.sminn x d a b)
  | 13 => .ok (.smaxn x d a b)
  | 14 => .ok (.ssel x d a b)
  | _ => zeros [a] (.smov x d b)

def dec03 (x : Pre) (w : Word) : Except Byte Instr :=
  let d : Reg := bitsW w 14 7
  let a : Reg := bitsW w 7 7
  let b : Reg := bitsW w 0 7
  match minorOf w with
  | 0 => .ok (.sdiv x d a b)
  | 1 => .ok (.sdivn x d a b)
  | 2 => .ok (.srem x d a b)
  | 3 => .ok (.sremn x d a b)
  | 4 => zeros [b] (.sclz x d a)
  | 5 => zeros [b] (.spop x d a)
  | 6 => .ok (.ssext x d a b)
  | 7 => .ok (.sbfx x d a b)
  | 8 => .ok (.scmpEq x d a b)
  | 9 => .ok (.scmpNe x d a b)
  | 10 => .ok (.scmpLt x d a b)
  | 11 => .ok (.scmpLtn x d a b)
  | 12 => .ok (.scmpLe x d a b)
  | 13 => .ok (.scmpLen x d a b)
  | _ => .error 0x01

def dec04 (x : Pre) (w : Word) : Except Byte Instr :=
  .ok (.saddi x (bitsW w 18 7) (bitsW w 11 7) (bitsW w 0 11))

def dec05 (x : Pre) (w : Word) : Except Byte Instr :=
  .ok (.sandi x (bitsW w 18 7) (bitsW w 11 7) (bitsW w 0 11))

def dec06 (x : Pre) (w : Word) : Except Byte Instr :=
  .ok (.sori x (bitsW w 18 7) (bitsW w 11 7) (bitsW w 0 11))

def dec07 (x : Pre) (w : Word) : Except Byte Instr :=
  .ok (.sxori x (bitsW w 18 7) (bitsW w 11 7) (bitsW w 0 11))

def dec08 (x : Pre) (w : Word) : Except Byte Instr :=
  let d : Reg := bitsW w 18 7
  let a : Reg := bitsW w 11 7
  if bitsW w 9 2 = 3 then .error 0x01 else if bitsW w 6 3 ≠ 0 then .error 0x02 else
  let i : BitVec 6 := bitsW w 0 6
  .ok (match (bitsW w 9 2).toNat with | 0 => .sshiShl x d a i | 1 => .sshiShr x d a i | _ => .sshiSra x d a i)

def dec09 (x : Pre) (w : Word) : Except Byte Instr :=
  let d : Reg := bitsW w 18 7
  let a : Reg := bitsW w 11 7
  let i : BitVec 9 := bitsW w 0 9
  .ok (match (bitsW w 9 2).toNat with | 0 => .scmpiEq x d a i | 1 => .scmpiLt x d a i | 2 => .scmpiLtn x d a i | _ => .scmpiNe x d a i)

def dec0A (x : Pre) (w : Word) : Except Byte Instr := .ok (.slui x (bitsW w 18 7) (bitsW w 0 18))

def dec0B (x : Pre) (w : Word) : Except Byte Instr := .ok (.smovi x (bitsW w 18 7) (bitsW w 0 18))

def dec0C (x : Pre) (w : Word) : Except Byte Instr :=
  let a : Reg := bitsW w 14 7
  let o : BitVec 14 := bitsW w 0 14
  match minorOf w with
  | 0 => zeros [a] (.br x o)
  | 1 => .ok (.brZ x a o)
  | 2 => .ok (.brNz x a o)
  | 3 => .ok (.brNeg x a o)
  | 4 => .ok (.brNneg x a o)
  | 5 => .ok (.brPany x a o)
  | 6 => .ok (.brPall x a o)
  | 7 => .ok (.brPnone x a o)
  | 8 => zeros [a] (.brEmz x o)
  | _ => .error 0x01

def dec0D (x : Pre) (w : Word) : Except Byte Instr := .ok (.call x (bitsW w 18 7) (bitsW w 0 18))

def dec0E (x : Pre) (w : Word) : Except Byte Instr :=
  let d : Reg := bitsW w 14 7
  let a : Reg := bitsW w 7 7
  let b : Reg := bitsW w 0 7
  match minorOf w with
  | 0 => zeros [d, a, b] (.ret x)
  | 1 => zeros [d, b] (.jr x a)
  | 2 => zeros [b] (.callr x d a)
  | _ => .error 0x01

def dec0F (x : Pre) (w : Word) : Except Byte Instr :=
  let d : Reg := bitsW w 14 7
  let a : Reg := bitsW w 7 7
  let b : Reg := bitsW w 0 7
  match minorOf w with
  | 0 => zeros [d, a] (.winv x b)
  | 1 => zeros [d, a] (.wins x b)
  | 2 => zeros [a, b] (.winq x d)
  | _ => .error 0x01

def dec10 (x : Pre) (w : Word) : Except Byte Instr :=
  let d : Reg := bitsW w 14 7
  let a : Reg := bitsW w 7 7
  let b : Reg := bitsW w 0 7
  match minorOf w with
  | 0 => .ok (.pand x d a b)
  | 1 => .ok (.por x d a b)
  | 2 => .ok (.pxor x d a b)
  | 3 => .ok (.pandn x d a b)
  | 4 => zeros [b] (.pnot x d a)
  | 5 => zeros [a] (.pset x d b)
  | 6 => zeros [b] (.pget x d a)
  | 7 => zeros [d, b] (.emset x a)
  | 8 => zeros [a, b] (.emget x d)
  | 9 => zeros [d, b] (.emand x a)
  | 10 => zeros [b] (.ppop x d a)
  | 11 => zeros [b] (.pfirst x d a)
  | _ => .error 0x01

def dec11 (x : Pre) (w : Word) : Except Byte Instr :=
  let d : Reg := bitsW w 14 7
  let a : Reg := bitsW w 7 7
  let b : Reg := bitsW w 0 7
  match minorOf w with
  | 0 => .ok (.vaddI32 x d a b)
  | 1 => .ok (.vsubI32 x d a b)
  | 2 => .ok (.vmulI32 x d a b)
  | 3 => .ok (.vmulhI32 x d a b)
  | 4 => .ok (.vmadI32 x d a b)
  | 5 => .ok (.vandI32 x d a b)
  | 6 => .ok (.vorI32 x d a b)
  | 7 => .ok (.vxorI32 x d a b)
  | 8 => .ok (.vshlI32 x d a b)
  | 9 => .ok (.vshrI32 x d a b)
  | 10 => .ok (.vsraI32 x d a b)
  | 11 => .ok (.vminI32 x d a b)
  | 12 => .ok (.vmaxI32 x d a b)
  | 13 => .ok (.vminnI32 x d a b)
  | 14 => .ok (.vmaxnI32 x d a b)
  | _ => zeros [b] (.vabsI32 x d a)

def dec12 (x : Pre) (w : Word) : Except Byte Instr :=
  let d : Reg := bitsW w 14 7
  let a : Reg := bitsW w 7 7
  let b : Reg := bitsW w 0 7
  match minorOf w with
  | 0 => .ok (.vaddI16 x d a b)
  | 1 => .ok (.vsubI16 x d a b)
  | 2 => .ok (.vmulI16 x d a b)
  | 3 => .ok (.vmulhI16 x d a b)
  | 4 => .ok (.vmadI16 x d a b)
  | 5 => .ok (.vandI16 x d a b)
  | 6 => .ok (.vorI16 x d a b)
  | 7 => .ok (.vxorI16 x d a b)
  | 8 => .ok (.vshlI16 x d a b)
  | 9 => .ok (.vshrI16 x d a b)
  | 10 => .ok (.vsraI16 x d a b)
  | 11 => .ok (.vminI16 x d a b)
  | 12 => .ok (.vmaxI16 x d a b)
  | 13 => .ok (.vminnI16 x d a b)
  | 14 => .ok (.vmaxnI16 x d a b)
  | _ => zeros [b] (.vabsI16 x d a)

def dec13 (x : Pre) (w : Word) : Except Byte Instr :=
  let d : Reg := bitsW w 14 7
  let a : Reg := bitsW w 7 7
  let b : Reg := bitsW w 0 7
  match minorOf w with
  | 0 => .ok (.vaddI64 x d a b)
  | 1 => .ok (.vsubI64 x d a b)
  | 2 => .ok (.vmulI64 x d a b)
  | 3 => .ok (.vmulhI64 x d a b)
  | 4 => .ok (.vmadI64 x d a b)
  | 5 => .ok (.vandI64 x d a b)
  | 6 => .ok (.vorI64 x d a b)
  | 7 => .ok (.vxorI64 x d a b)
  | 8 => .ok (.vshlI64 x d a b)
  | 9 => .ok (.vshrI64 x d a b)
  | 10 => .ok (.vsraI64 x d a b)
  | 11 => .ok (.vminI64 x d a b)
  | 12 => .ok (.vmaxI64 x d a b)
  | 13 => .ok (.vminnI64 x d a b)
  | 14 => .ok (.vmaxnI64 x d a b)
  | _ => zeros [b] (.vabsI64 x d a)

def dec14 (x : Pre) (w : Word) : Except Byte Instr :=
  let d : Reg := bitsW w 14 7
  let a : Reg := bitsW w 7 7
  let b : Reg := bitsW w 0 7
  let m := minorOf w
  if m < 8 then .ok (.vsel x (bitsW w 21 3) d a b) else
  match m with
  | 8 => zeros [a] (.vmov x d b)
  | 9 => zeros [b] (.vclz x d a)
  | 10 => zeros [b] (.vpop x d a)
  | 11 => zeros [a, b] (.vlid x d)
  | _ => .error 0x01

def dec15 (x : Pre) (w : Word) : Except Byte Instr :=
  let d : Reg := bitsW w 14 7
  let a : Reg := bitsW w 7 7
  let b : Reg := bitsW w 0 7
  match minorOf w with
  | 0 => .ok (.vcmpEqI32 x d a b)
  | 1 => .ok (.vcmpNeI32 x d a b)
  | 2 => .ok (.vcmpLtI32 x d a b)
  | 3 => .ok (.vcmpLeI32 x d a b)
  | 4 => .ok (.vcmpLtN32 x d a b)
  | 5 => .ok (.vcmpLeN32 x d a b)
  | 6 => .ok (.vcmpEqF32 x d a b)
  | 7 => .ok (.vcmpLtF32 x d a b)
  | 8 => .ok (.vcmpLeF32 x d a b)
  | 9 => .ok (.vcmpUnF32 x d a b)
  | 10 => .ok (.vcmpEqF64 x d a b)
  | 11 => .ok (.vcmpLtF64 x d a b)
  | 12 => .ok (.vcmpLeF64 x d a b)
  | 13 => .ok (.vcmpUnF64 x d a b)
  | _ => .error 0x01

def dec16 (x : Pre) (w : Word) : Except Byte Instr :=
  let d : Reg := bitsW w 14 7
  let a : Reg := bitsW w 7 7
  let b : Reg := bitsW w 0 7
  match minorOf w with
  | 0 => .ok (.vfaddF32 x d a b)
  | 1 => .ok (.vfsubF32 x d a b)
  | 2 => .ok (.vfmulF32 x d a b)
  | 3 => .ok (.vfmaF32 x d a b)
  | 4 => .ok (.vfnmaF32 x d a b)
  | 5 => .ok (.vfminF32 x d a b)
  | 6 => .ok (.vfmaxF32 x d a b)
  | 7 => zeros [b] (.vfabsF32 x d a)
  | 8 => zeros [b] (.vfnegF32 x d a)
  | 9 => zeros [b] (.vfclassF32 x d a)
  | _ => .error 0x01

def dec17 (x : Pre) (w : Word) : Except Byte Instr :=
  let d : Reg := bitsW w 14 7
  let a : Reg := bitsW w 7 7
  let b : Reg := bitsW w 0 7
  match minorOf w with
  | 0 => .ok (.vfaddF16 x d a b)
  | 1 => .ok (.vfsubF16 x d a b)
  | 2 => .ok (.vfmulF16 x d a b)
  | 3 => .ok (.vfmaF16 x d a b)
  | 4 => .ok (.vfnmaF16 x d a b)
  | 5 => .ok (.vfminF16 x d a b)
  | 6 => .ok (.vfmaxF16 x d a b)
  | 7 => zeros [b] (.vfnegF16 x d a)
  | 8 => .ok (.vfaddBf16 x d a b)
  | 9 => .ok (.vfsubBf16 x d a b)
  | 10 => .ok (.vfmulBf16 x d a b)
  | 11 => .ok (.vfmaBf16 x d a b)
  | 12 => .ok (.vfnmaBf16 x d a b)
  | 13 => .ok (.vfminBf16 x d a b)
  | 14 => .ok (.vfmaxBf16 x d a b)
  | _ => zeros [b] (.vfnegBf16 x d a)

def dec18 (x : Pre) (w : Word) : Except Byte Instr :=
  let d : Reg := bitsW w 14 7
  let a : Reg := bitsW w 7 7
  let b : Reg := bitsW w 0 7
  match minorOf w with
  | 0 => .ok (.vfaddF64 x d a b)
  | 1 => .ok (.vfsubF64 x d a b)
  | 2 => .ok (.vfmulF64 x d a b)
  | 3 => .ok (.vfmaF64 x d a b)
  | 4 => .ok (.vfnmaF64 x d a b)
  | 5 => .ok (.vfminF64 x d a b)
  | 6 => .ok (.vfmaxF64 x d a b)
  | 7 => zeros [b] (.vfabsF64 x d a)
  | 8 => zeros [b] (.vfnegF64 x d a)
  | 9 => zeros [b] (.vfclassF64 x d a)
  | _ => .error 0x01

def dec19 (x : Pre) (w : Word) : Except Byte Instr :=
  let d : Reg := bitsW w 14 7
  let a : Reg := bitsW w 7 7
  let b : Reg := bitsW w 0 7
  match minorOf w with
  | 0 => zeros [b] (.vfrcp x d a)
  | 1 => zeros [b] (.vfrsq x d a)
  | 2 => zeros [b] (.vfsqrt x d a)
  | 3 => .ok (.vfdiv x d a b)
  | 4 => zeros [b] (.vfexp2 x d a)
  | 5 => zeros [b] (.vflog2 x d a)
  | 6 => zeros [b] (.vfsin x d a)
  | 7 => zeros [b] (.vfcos x d a)
  | 8 => zeros [b] (.vftanh x d a)
  | 9 => zeros [b] (.vfrcpF64 x d a)
  | 10 => zeros [b] (.vfrsqF64 x d a)
  | _ => .error 0x01

def dec1A (x : Pre) (w : Word) : Except Byte Instr :=
  let d : Reg := bitsW w 14 7
  let a : Reg := bitsW w 7 7
  let b : Reg := bitsW w 0 7
  match minorOf w with
  | 0 => if convPlain b then .ok (.vcvt x d a b) else .error 0x01
  | 1 => if convPlain b then .ok (.vcvtRz x d a b) else .error 0x01
  | 2 => if convPlain b then .ok (.vcvtRn x d a b) else .error 0x01
  | 3 => if convSr b then .ok (.vcvtSr x d a b) else .error 0x01
  | 4 => if convPack b then .ok (.vpack x d a b) else .error 0x01
  | 5 => if convUnpack b then .ok (.vunpk x d a b) else .error 0x01
  | _ => .error 0x01

def dec1B (x : Pre) (w : Word) : Except Byte Instr :=
  let d : Reg := bitsW w 14 7
  let a : Reg := bitsW w 7 7
  let b : Reg := bitsW w 0 7
  match minorOf w with
  | 0 => .ok (.vscaccE8m0 x d a b)
  | 1 => .ok (.vscaccE4m3 x d a b)
  | 2 => .ok (.vscaccBf16 x d a b)
  | 3 => .ok (.vscaccF32 x d a b)
  | _ => .error 0x01

def dec1C (x : Pre) (w : Word) : Except Byte Instr :=
  let d : Reg := bitsW w 14 7
  let a : Reg := bitsW w 7 7
  let b : Reg := bitsW w 0 7
  match minorOf w with
  | 0 => .ok (.vshuf x d a b)
  | 1 => .ok (.vvote x d a b)
  | 2 => zeros [b] (.velect x d a)
  | 3 => zeros [b] (.vredAddF32 x d a)
  | 4 => zeros [b] (.vredAddI32 x d a)
  | 5 => zeros [b] (.vredMaxF32 x d a)
  | 6 => zeros [b] (.vredMinF32 x d a)
  | 7 => zeros [b] (.vscanAddI32 x d a)
  | _ => .error 0x01

def dec20 (x : Pre) (w : Word) : Except Byte Instr :=
  if w.getLsbD 21 || (bitsW w 23 2 = 3 && w.getLsbD 22) then .error 0x02
  else .ok (.ld x (widthOf (bitsW w 23 2)) (w.getLsbD 22) (bitsW w 14 7) (bitsW w 7 7) (bitsW w 0 7))

def dec21 (x : Pre) (w : Word) : Except Byte Instr :=
  if bitsW w 21 2 ≠ 0 then .error 0x02 else .ok (.st x (widthOf (bitsW w 23 2)) (bitsW w 14 7) (bitsW w 7 7) (bitsW w 0 7))

def dec22 (x : Pre) (w : Word) : Except Byte Instr :=
  .ok (.vld x (bitsW w 21 4) (bitsW w 14 7) (bitsW w 7 7) (bitsW w 0 7))

def dec23 (x : Pre) (w : Word) : Except Byte Instr :=
  .ok (.vldc x (bitsW w 21 4) (bitsW w 14 7) (bitsW w 7 7) (bitsW w 0 7))

def dec24 (x : Pre) (w : Word) : Except Byte Instr :=
  .ok (.vld2 x (bitsW w 21 4) (bitsW w 14 7) (bitsW w 7 7) (bitsW w 0 7))

def dec25 (x : Pre) (w : Word) : Except Byte Instr :=
  if minorOf w ≠ 0 then .error 0x02 else .ok (.vst x (bitsW w 14 7) (bitsW w 7 7) (bitsW w 0 7))

def dec26 (x : Pre) (w : Word) : Except Byte Instr :=
  if minorOf w ≠ 0 then .error 0x02 else .ok (.vstc x (bitsW w 14 7) (bitsW w 7 7) (bitsW w 0 7))

def dec27 (x : Pre) (w : Word) : Except Byte Instr :=
  if minorOf w ≠ 0 then .error 0x02 else .ok (.vst2 x (bitsW w 14 7) (bitsW w 7 7) (bitsW w 0 7))

def dec28 (x : Pre) (w : Word) : Except Byte Instr :=
  if minorOf w ≠ 0 then .error 0x02 else .ok (.spld x (bitsW w 14 7) (bitsW w 7 7) (bitsW w 0 7))

def dec29 (x : Pre) (w : Word) : Except Byte Instr :=
  if minorOf w ≠ 0 then .error 0x02 else .ok (.spst x (bitsW w 14 7) (bitsW w 7 7) (bitsW w 0 7))

def dec2A (x : Pre) (w : Word) : Except Byte Instr :=
  match atomOpOf (minorOf w) with
  | some o => .ok (.atom x o (bitsW w 14 7) (bitsW w 7 7) (bitsW w 0 7))
  | none => .error 0x01

def dec2B (x : Pre) (w : Word) : Except Byte Instr :=
  match atomOpOf (minorOf w) with
  | some o => .ok (.vatom x o (bitsW w 14 7) (bitsW w 7 7) (bitsW w 0 7))
  | none => .error 0x01

def dec2C (x : Pre) (w : Word) : Except Byte Instr :=
  match atomOpOf (minorOf w) with
  | some o => .ok (.spatom x o (bitsW w 14 7) (bitsW w 7 7) (bitsW w 0 7))
  | none => .error 0x01

def dec2D (x : Pre) (w : Word) : Except Byte Instr :=
  let d : Reg := bitsW w 14 7
  let a : Reg := bitsW w 7 7
  let b : Reg := bitsW w 0 7
  match minorOf w with
  | 0 => if (d ||| a) ≠ 0 || w.getLsbD 6 then .error 0x02 else
    match ordKindOf (bitsW w 3 3).toNat, scopeOf (bitsW w 0 3).toNat with
    | some .relaxed, _ => .error 0x07
    | some k, some s => .ok (.fence x k s)
    | _, _ => .error 0x07
  | 1 => if (d ||| a) ≠ 0 || bitsW w 3 4 ≠ 0 then .error 0x02 else
    match scopeOf (bitsW w 0 3).toNat with | some s => .ok (.flush x s) | none => .error 0x07
  | 2 => if (d ||| a) ≠ 0 || bitsW w 3 4 ≠ 0 then .error 0x02 else
    match scopeOf (bitsW w 0 3).toNat with | some s => .ok (.inval x s) | none => .error 0x07
  | 3 => if d.extractLsb' 1 6 ≠ 0 then .error 0x02 else .ok (.pref x (d.getLsbD 0) a b)
  | 4 => zeros [d] (.waitc x a b)
  | 5 => .ok (.mwait x d a b)
  | 6 => .ok (.syncw x d a b)
  | 7 => zeros [d] (.syncset x a b)
  | _ => .error 0x01

def dec2E (x : Pre) (w : Word) : Except Byte Instr :=
  let d : Reg := bitsW w 14 7
  let a : Reg := bitsW w 7 7
  let b : Reg := bitsW w 0 7
  match minorOf w with
  | 0 => zeros [d, a, b] (.bar x)
  | 1 => zeros [b] (.boarr x d a)
  | 2 => zeros [d] (.bowait x a b)
  | 3 => zeros [d] (.boinit x a b)
  | _ => .error 0x01

def dec2F (x : Pre) (w : Word) : Except Byte Instr :=
  let a : Reg := bitsW w 14 7
  let b : Reg := bitsW w 7 7
  let e : Reg := bitsW w 0 7
  match minorOf w with
  | 0 => .ok (.cpyG2s x a b e)
  | 1 => .ok (.cpyS2g x a b e)
  | 2 => .ok (.cpyS2s x a b e)
  | 3 => .ok (.cpyX x a b e)
  | 4 => .ok (.gthr x a b e)
  | 5 => .ok (.coll x a b e)
  | 6 => .ok (.fsend x a b e)
  | _ => .error 0x01

noncomputable def dec30 (x : Pre) (w : Word) : Except Byte Instr :=
  let a : Reg := bitsW w 14 7
  let b : Reg := bitsW w 7 7
  let e : Reg := bitsW w 0 7
  match minorOf w with
  | 0 => .ok (.tgive x a b e)
  | 1 => zeros [e] (.ttake x a b)
  | 2 => zeros [e] (.tchk x a b)
  | _ => .error 0x01

noncomputable def dec31 (x : Pre) (w : Word) : Except Byte Instr :=
  match matPairOf (minorOf w) with
  | some f => .ok (.mma x f (bitsW w 14 7) (bitsW w 7 7) (bitsW w 0 7))
  | none => .error 0x01

noncomputable def dec32 (x : Pre) (w : Word) : Except Byte Instr :=
  match matPairOf (minorOf w) with
  | some f => .ok (.mmab x f (bitsW w 14 7) (bitsW w 7 7) (bitsW w 0 7))
  | none => .error 0x01

noncomputable def dec33 (x : Pre) (w : Word) : Except Byte Instr :=
  let d : Reg := bitsW w 14 7
  let a : Reg := bitsW w 7 7
  let b : Reg := bitsW w 0 7
  match minorOf w with
  | 0 => zeros [b] (.mbatch x d a)
  | 1 => zeros [b] (.mbwait x d a)
  | 2 => zeros [a, b] (.mqry x d)
  | _ => .error 0x01

noncomputable def dec34 (x : Pre) (w : Word) : Except Byte Instr :=
  let d : Reg := bitsW w 14 7
  let a : Reg := bitsW w 7 7
  let b : Reg := bitsW w 0 7
  match minorOf w with
  | 0 => zeros [d] (.spawn x a b)
  | 1 => zeros [d] (.bincfg x a b)
  | 2 => zeros [d, a, b] (.binflush x)
  | 3 => zeros [d, b] (.launch x a)
  | _ => .error 0x01

noncomputable def dec35 (x : Pre) (w : Word) : Except Byte Instr :=
  let d : Reg := bitsW w 14 7
  let a : Reg := bitsW w 7 7
  let b : Reg := bitsW w 0 7
  match minorOf w with
  | 0 => zeros [a] (.dqpush x d b)
  | 1 => zeros [a, b] (.dqpop x d)
  | 2 => zeros [b] (.dqsteal x d a)
  | 3 => zeros [b] (.dqlen x d a)
  | _ => .error 0x01

noncomputable def dec36 (x : Pre) (w : Word) : Except Byte Instr :=
  let d : Reg := bitsW w 14 7
  let a : Reg := bitsW w 7 7
  let b : Reg := bitsW w 0 7
  match minorOf w with
  | 0 => zeros [d] (.qput x a b)
  | 1 => .ok (.qget x d a b)
  | 2 => zeros [b] (.qfree x d a)
  | 3 => .ok (.qtryput x d a b)
  | 4 => .ok (.qtryget x d a b)
  | _ => .error 0x01

noncomputable def dec37 (x : Pre) (w : Word) : Except Byte Instr :=
  let d : Reg := bitsW w 14 7
  let a : Reg := bitsW w 7 7
  let b : Reg := bitsW w 0 7
  match minorOf w with
  | 0 => zeros [b] (.tbset x d a)
  | 1 => zeros [a, b] (.tbclr x d)
  | 2 => zeros [a, b] (.ebud x d)
  | 3 => zeros [a, b] (.liveq x d)
  | _ => .error 0x01

noncomputable def dec38 (x : Pre) (w : Word) : Except Byte Instr :=
  let d : Reg := bitsW w 14 7
  let a : Reg := bitsW w 7 7
  let b : Reg := bitsW w 0 7
  match minorOf w with
  | 0 => zeros [d, a, b] (.bkpt x)
  | 1 => zeros [d, a] (.rmark x b)
  | 2 => zeros [d, b] (.dmbox x a)
  | _ => .error 0x01

noncomputable def dec39 (x : Pre) (w : Word) : Except Byte Instr :=
  let d : Reg := bitsW w 14 7
  let a : Reg := bitsW w 7 7
  let b : Reg := bitsW w 0 7
  match minorOf w with
  | 0 => match sysRegOf b.toNat with | some i => zeros [a] (.rdsr x d i) | none => .error 0x01
  | 1 => match sysRegOf b.toNat with | some i => zeros [d] (.wrsr x a i) | none => .error 0x01
  | _ => .error 0x01

/-- The instruction of a word, or the reason of step 2 of R124 (R128). -/
noncomputable def decodeOp (x : Pre) (w : Word) : Except Byte Instr :=
  match majorOf w with
  | 0x00 => dec00 x w
  | 0x02 => dec02 x w
  | 0x03 => dec03 x w
  | 0x04 => dec04 x w
  | 0x05 => dec05 x w
  | 0x06 => dec06 x w
  | 0x07 => dec07 x w
  | 0x08 => dec08 x w
  | 0x09 => dec09 x w
  | 0x0A => dec0A x w
  | 0x0B => dec0B x w
  | 0x0C => dec0C x w
  | 0x0D => dec0D x w
  | 0x0E => dec0E x w
  | 0x0F => dec0F x w
  | 0x10 => dec10 x w
  | 0x11 => dec11 x w
  | 0x12 => dec12 x w
  | 0x13 => dec13 x w
  | 0x14 => dec14 x w
  | 0x15 => dec15 x w
  | 0x16 => dec16 x w
  | 0x17 => dec17 x w
  | 0x18 => dec18 x w
  | 0x19 => dec19 x w
  | 0x1A => dec1A x w
  | 0x1B => dec1B x w
  | 0x1C => dec1C x w
  | 0x20 => dec20 x w
  | 0x21 => dec21 x w
  | 0x22 => dec22 x w
  | 0x23 => dec23 x w
  | 0x24 => dec24 x w
  | 0x25 => dec25 x w
  | 0x26 => dec26 x w
  | 0x27 => dec27 x w
  | 0x28 => dec28 x w
  | 0x29 => dec29 x w
  | 0x2A => dec2A x w
  | 0x2B => dec2B x w
  | 0x2C => dec2C x w
  | 0x2D => dec2D x w
  | 0x2E => dec2E x w
  | 0x2F => dec2F x w
  | 0x30 => dec30 x w
  | 0x31 => dec31 x w
  | 0x32 => dec32 x w
  | 0x33 => dec33 x w
  | 0x34 => dec34 x w
  | 0x35 => dec35 x w
  | 0x36 => dec36 x w
  | 0x37 => dec37 x w
  | 0x38 => dec38 x w
  | 0x39 => dec39 x w
  | _ => .error 0x01

/-! ### Prefix acceptance: step 3 of R124 -/

/-- Bits [6:0] are class V, W or S, so IMM is accepted, or the format's own immediate takes it (R108, R118, R229). -/
def immTaken (M m : Nat) : Bool :=
  match M with
  | 0x00 => m == 2 || m == 7
  | 0x03 => m != 4 && m != 5
  | 0x08 | 0x0A | 0x0E | 0x1A | 0x2F | 0x31 | 0x32 | 0x33 | 0x37 | 0x39 => false
  | 0x0F => m != 2
  | 0x10 => m == 5
  | 0x11 | 0x12 | 0x13 => m != 15
  | 0x14 => m ≤ 8
  | 0x16 | 0x18 => m < 7
  | 0x17 => m % 8 != 7
  | 0x19 => m == 3
  | 0x1C => m == 0
  | 0x2D => 3 ≤ m && m ≤ 7
  | 0x2E => m == 2 || m == 3
  | 0x30 => m == 0
  | 0x34 => m ≤ 1
  | 0x35 => m == 0
  | 0x36 => m != 2
  | 0x38 => m == 1
  | _ => true

/-- Majors of scalar operations, vector operations and memory accesses (R113, R118). -/
def repTaken (M : Nat) : Bool := (0x02 ≤ M && M ≤ 0x0B) || (0x10 ≤ M && M ≤ 0x1C) || (0x20 ≤ M && M ≤ 0x2C)

/-- LANE is accepted, and a pattern on a or on b is (R117, R118); c is the conversion code of major 0x1A. -/
def laneTaken (M m : Nat) : Bool := ((0x11 ≤ M && M ≤ 0x18) || M == 0x1A) && !(M == 0x14 && m == 11)
def laneATaken (M m c : Nat) : Bool := !(M == 0x14 && m == 8) && !(M == 0x1A && m == 4 && 0x10 ≤ c)
def laneBTaken (M m : Nat) : Bool := immTaken M m

/-- ORD is accepted with this kind, scope and W64 (R112, R131). -/
def ordTaken (M m : Nat) (p : OrdPfx) : Bool :=
  let load := [0x20, 0x22, 0x23, 0x24, 0x28].contains M
  let store := [0x21, 0x25, 0x26, 0x27, 0x29].contains M
  let atomic := [0x2A, 0x2B, 0x2C].contains M
  let pad := [0x28, 0x29, 0x2C].contains M
  (load || store || atomic) && !(store && p.kind == .acquire) && !(load && p.kind == .release) &&
  !(!atomic && (p.kind == .acqRel || p.w64)) && !(pad && (p.scope == .pkg || p.scope == .sys)) &&
  !(atomic && p.w64 && m == 10)

/-- Step 3 of R124 on an instruction word with its prefixes: the first refused prefix, in the order IMM, ORD, REP, LANE. -/
def acceptErr (px : Pfx) (w : Word) : Option DecErr :=
  let M := majorOf w
  let m := minorOf w
  let imm := px.imm.bind fun p => if immTaken M m then none else some (immWord p)
  let ord := px.ord.bind fun p => if ordTaken M m p then none else some (ordWord p)
  let rep := px.rep.bind fun p => if repTaken M then none else some (repWord p)
  let lane := px.lane.bind fun p =>
    if laneTaken M m && (p.a == .none || laneATaken M m (bitsW w 0 7).toNat) &&
      (p.b == .none || (laneBTaken M m && px.imm.isNone)) then none else some (laneWord p)
  (imm.or (ord.or (rep.or lane))).map fun v => ⟨0x05, v⟩

/-! ### Bundles -/

/-- What one more word of a bundle gives: more prefixes, the instruction, or a failing check. -/
inductive Scan where
  | more (px : Pfx)
  | done (i : Instr)
  | bad (e : DecErr)
  deriving DecidableEq, Repr

noncomputable def scanWord (px : Pfx) (w : Word) : Scan :=
  match addPrefix px w with
  | some (.ok p) => .more p
  | some (.error e) => .bad e
  | none =>
    match decodeOp ⟨w.msb, px⟩ w with
    | .error r => .bad ⟨r, w⟩
    | .ok i =>
      match acceptErr px w with
      | some e => .bad e
      | none => .done i

/-- What words give: an instruction and the words after it; a failing check of R124; or too few words. -/
inductive Decoded where
  | ok (i : Instr) (rest : List Word)
  | illegal (e : DecErr)
  | short
  deriving DecidableEq, Repr

/-- The bundle at the head of a word list, after the prefixes px. -/
noncomputable def decodeFrom (px : Pfx) : List Word → Decoded
  | [] => .short
  | w :: ws =>
    match scanWord px w with
    | .bad e => .illegal e
    | .more p => decodeFrom p ws
    | .done i => .ok i ws

noncomputable def decodeWords (ws : List Word) : Decoded := decodeFrom Pfx.none ws

/-- Little-endian words of a byte list (R3); a last part below four bytes is dropped. -/
def wordsOf : List Byte → List Word
  | b0 :: b1 :: b2 :: b3 :: bs => (b3 ++ b2 ++ b1 ++ b0) :: wordsOf bs
  | _ => []

/-- The decoder on bytes: total, rejecting by name. -/
noncomputable def decode (bs : List Byte) : Decoded := decodeWords (wordsOf bs)

/-- Bytes of a word, lowest address first (R3). -/
def bytesOf (w : Word) : List Byte := [bitsW w 0 8, bitsW w 8 8, bitsW w 16 8, bitsW w 24 8]

/-- The instruction read from a bundle whose first `nbits` bits are `w` and whose further words are zero. -/
noncomputable def decodeTableWord (nbits w : Nat) : Option Instr :=
  if nbits = 0 then none else
  let bytes := (List.range 20).map fun k => if 8 * k < nbits then BitVec.ofNat 8 (w / 2 ^ (8 * k)) else 0
  match decode bytes with
  | .ok i _ => some i
  | _ => none

/-! ### The encoder -/

/-- Words of the formats (R103), with the switch marker in bit 31 (R127). -/
def wordR (x : Pre) (M m : Nat) (d a b : Reg) : Word :=
  BitVec.ofBool x.z ++ BitVec.ofNat 6 M ++ BitVec.ofNat 4 m ++ d ++ a ++ b
def wordRI (x : Pre) (M : Nat) (d a : Reg) (i : BitVec 11) : Word := BitVec.ofBool x.z ++ BitVec.ofNat 6 M ++ d ++ a ++ i
def wordLI (x : Pre) (M : Nat) (d : Reg) (i : BitVec 18) : Word := BitVec.ofBool x.z ++ BitVec.ofNat 6 M ++ d ++ i
def wordBR (x : Pre) (m : Nat) (a : Reg) (o : BitVec 14) : Word := BitVec.ofBool x.z ++ 0x0C#6 ++ BitVec.ofNat 4 m ++ a ++ o

/-- The instruction word; an event has none and gives 0. -/
def encodeWord : Instr → Word
  | .nop x => wordR x 0x00 0 0 0 0
  | .exit x => wordR x 0x00 1 0 0 0
  | .trap x b => wordR x 0x00 2 0 0 b
  | .tfence x => wordR x 0x00 3 0 0 0
  | .eret x => wordR x 0x00 4 0 0 0
  | .yield x => wordR x 0x00 5 0 0 0
  | .rdflag x d => wordR x 0x00 6 d 0 0
  | .clrflag x b => wordR x 0x00 7 0 0 b
  | .rdcyc x d => wordR x 0x00 8 d 0 0
  | .sadd x d a b => wordR x 0x02 0 d a b
  | .ssub x d a b => wordR x 0x02 1 d a b
  | .smul x d a b => wordR x 0x02 2 d a b
  | .smulh x d a b => wordR x 0x02 3 d a b
  | .sand x d a b => wordR x 0x02 4 d a b
  | .sor x d a b => wordR x 0x02 5 d a b
  | .sxor x d a b => wordR x 0x02 6 d a b
  | .sshl x d a b => wordR x 0x02 7 d a b
  | .sshr x d a b => wordR x 0x02 8 d a b
  | .ssra x d a b => wordR x 0x02 9 d a b
  | .smin x d a b => wordR x 0x02 10 d a b
  | .smax x d a b => wordR x 0x02 11 d a b
  | .sminn x d a b => wordR x 0x02 12 d a b
  | .smaxn x d a b => wordR x 0x02 13 d a b
  | .ssel x d a b => wordR x 0x02 14 d a b
  | .smov x d b => wordR x 0x02 15 d 0 b
  | .sdiv x d a b => wordR x 0x03 0 d a b
  | .sdivn x d a b => wordR x 0x03 1 d a b
  | .srem x d a b => wordR x 0x03 2 d a b
  | .sremn x d a b => wordR x 0x03 3 d a b
  | .sclz x d a => wordR x 0x03 4 d a 0
  | .spop x d a => wordR x 0x03 5 d a 0
  | .ssext x d a b => wordR x 0x03 6 d a b
  | .sbfx x d a b => wordR x 0x03 7 d a b
  | .scmpEq x d a b => wordR x 0x03 8 d a b
  | .scmpNe x d a b => wordR x 0x03 9 d a b
  | .scmpLt x d a b => wordR x 0x03 10 d a b
  | .scmpLtn x d a b => wordR x 0x03 11 d a b
  | .scmpLe x d a b => wordR x 0x03 12 d a b
  | .scmpLen x d a b => wordR x 0x03 13 d a b
  | .saddi x d a i => wordRI x 4 d a i
  | .sandi x d a i => wordRI x 5 d a i
  | .sori x d a i => wordRI x 6 d a i
  | .sxori x d a i => wordRI x 7 d a i
  | .sshiShl x d a i => wordRI x 8 d a (0#2 ++ 0#3 ++ i)
  | .sshiShr x d a i => wordRI x 8 d a (1#2 ++ 0#3 ++ i)
  | .sshiSra x d a i => wordRI x 8 d a (2#2 ++ 0#3 ++ i)
  | .scmpiEq x d a i => wordRI x 9 d a (0#2 ++ i)
  | .scmpiLt x d a i => wordRI x 9 d a (1#2 ++ i)
  | .scmpiLtn x d a i => wordRI x 9 d a (2#2 ++ i)
  | .scmpiNe x d a i => wordRI x 9 d a (3#2 ++ i)
  | .slui x d i => wordLI x 10 d i
  | .smovi x d i => wordLI x 11 d i
  | .br x o => wordBR x 0 0 o
  | .brZ x a o => wordBR x 1 a o
  | .brNz x a o => wordBR x 2 a o
  | .brNeg x a o => wordBR x 3 a o
  | .brNneg x a o => wordBR x 4 a o
  | .brPany x a o => wordBR x 5 a o
  | .brPall x a o => wordBR x 6 a o
  | .brPnone x a o => wordBR x 7 a o
  | .brEmz x o => wordBR x 8 0 o
  | .call x k i => wordLI x 13 k i
  | .ret x => wordR x 0x0E 0 0 0 0
  | .jr x a => wordR x 0x0E 1 0 a 0
  | .callr x k a => wordR x 0x0E 2 k a 0
  | .winv x b => wordR x 0x0F 0 0 0 b
  | .wins x b => wordR x 0x0F 1 0 0 b
  | .winq x d => wordR x 0x0F 2 d 0 0
  | .pand x d a b => wordR x 0x10 0 d a b
  | .por x d a b => wordR x 0x10 1 d a b
  | .pxor x d a b => wordR x 0x10 2 d a b
  | .pandn x d a b => wordR x 0x10 3 d a b
  | .pnot x d a => wordR x 0x10 4 d a 0
  | .pset x d b => wordR x 0x10 5 d 0 b
  | .pget x d a => wordR x 0x10 6 d a 0
  | .emset x a => wordR x 0x10 7 0 a 0
  | .emget x d => wordR x 0x10 8 d 0 0
  | .emand x a => wordR x 0x10 9 0 a 0
  | .ppop x d a => wordR x 0x10 10 d a 0
  | .pfirst x d a => wordR x 0x10 11 d a 0
  | .vaddI32 x d a b => wordR x 0x11 0 d a b
  | .vsubI32 x d a b => wordR x 0x11 1 d a b
  | .vmulI32 x d a b => wordR x 0x11 2 d a b
  | .vmulhI32 x d a b => wordR x 0x11 3 d a b
  | .vmadI32 x d a b => wordR x 0x11 4 d a b
  | .vandI32 x d a b => wordR x 0x11 5 d a b
  | .vorI32 x d a b => wordR x 0x11 6 d a b
  | .vxorI32 x d a b => wordR x 0x11 7 d a b
  | .vshlI32 x d a b => wordR x 0x11 8 d a b
  | .vshrI32 x d a b => wordR x 0x11 9 d a b
  | .vsraI32 x d a b => wordR x 0x11 10 d a b
  | .vminI32 x d a b => wordR x 0x11 11 d a b
  | .vmaxI32 x d a b => wordR x 0x11 12 d a b
  | .vminnI32 x d a b => wordR x 0x11 13 d a b
  | .vmaxnI32 x d a b => wordR x 0x11 14 d a b
  | .vabsI32 x d a => wordR x 0x11 15 d a 0
  | .vaddI16 x d a b => wordR x 0x12 0 d a b
  | .vsubI16 x d a b => wordR x 0x12 1 d a b
  | .vmulI16 x d a b => wordR x 0x12 2 d a b
  | .vmulhI16 x d a b => wordR x 0x12 3 d a b
  | .vmadI16 x d a b => wordR x 0x12 4 d a b
  | .vandI16 x d a b => wordR x 0x12 5 d a b
  | .vorI16 x d a b => wordR x 0x12 6 d a b
  | .vxorI16 x d a b => wordR x 0x12 7 d a b
  | .vshlI16 x d a b => wordR x 0x12 8 d a b
  | .vshrI16 x d a b => wordR x 0x12 9 d a b
  | .vsraI16 x d a b => wordR x 0x12 10 d a b
  | .vminI16 x d a b => wordR x 0x12 11 d a b
  | .vmaxI16 x d a b => wordR x 0x12 12 d a b
  | .vminnI16 x d a b => wordR x 0x12 13 d a b
  | .vmaxnI16 x d a b => wordR x 0x12 14 d a b
  | .vabsI16 x d a => wordR x 0x12 15 d a 0
  | .vaddI64 x d a b => wordR x 0x13 0 d a b
  | .vsubI64 x d a b => wordR x 0x13 1 d a b
  | .vmulI64 x d a b => wordR x 0x13 2 d a b
  | .vmulhI64 x d a b => wordR x 0x13 3 d a b
  | .vmadI64 x d a b => wordR x 0x13 4 d a b
  | .vandI64 x d a b => wordR x 0x13 5 d a b
  | .vorI64 x d a b => wordR x 0x13 6 d a b
  | .vxorI64 x d a b => wordR x 0x13 7 d a b
  | .vshlI64 x d a b => wordR x 0x13 8 d a b
  | .vshrI64 x d a b => wordR x 0x13 9 d a b
  | .vsraI64 x d a b => wordR x 0x13 10 d a b
  | .vminI64 x d a b => wordR x 0x13 11 d a b
  | .vmaxI64 x d a b => wordR x 0x13 12 d a b
  | .vminnI64 x d a b => wordR x 0x13 13 d a b
  | .vmaxnI64 x d a b => wordR x 0x13 14 d a b
  | .vabsI64 x d a => wordR x 0x13 15 d a 0
  | .vsel x k d a b => wordR x 0x14 k.toNat d a b
  | .vmov x d b => wordR x 0x14 8 d 0 b
  | .vclz x d a => wordR x 0x14 9 d a 0
  | .vpop x d a => wordR x 0x14 10 d a 0
  | .vlid x d => wordR x 0x14 11 d 0 0
  | .vcmpEqI32 x d a b => wordR x 0x15 0 d a b
  | .vcmpNeI32 x d a b => wordR x 0x15 1 d a b
  | .vcmpLtI32 x d a b => wordR x 0x15 2 d a b
  | .vcmpLeI32 x d a b => wordR x 0x15 3 d a b
  | .vcmpLtN32 x d a b => wordR x 0x15 4 d a b
  | .vcmpLeN32 x d a b => wordR x 0x15 5 d a b
  | .vcmpEqF32 x d a b => wordR x 0x15 6 d a b
  | .vcmpLtF32 x d a b => wordR x 0x15 7 d a b
  | .vcmpLeF32 x d a b => wordR x 0x15 8 d a b
  | .vcmpUnF32 x d a b => wordR x 0x15 9 d a b
  | .vcmpEqF64 x d a b => wordR x 0x15 10 d a b
  | .vcmpLtF64 x d a b => wordR x 0x15 11 d a b
  | .vcmpLeF64 x d a b => wordR x 0x15 12 d a b
  | .vcmpUnF64 x d a b => wordR x 0x15 13 d a b
  | .vfaddF32 x d a b => wordR x 0x16 0 d a b
  | .vfsubF32 x d a b => wordR x 0x16 1 d a b
  | .vfmulF32 x d a b => wordR x 0x16 2 d a b
  | .vfmaF32 x d a b => wordR x 0x16 3 d a b
  | .vfnmaF32 x d a b => wordR x 0x16 4 d a b
  | .vfminF32 x d a b => wordR x 0x16 5 d a b
  | .vfmaxF32 x d a b => wordR x 0x16 6 d a b
  | .vfabsF32 x d a => wordR x 0x16 7 d a 0
  | .vfnegF32 x d a => wordR x 0x16 8 d a 0
  | .vfclassF32 x d a => wordR x 0x16 9 d a 0
  | .vfaddF16 x d a b => wordR x 0x17 0 d a b
  | .vfsubF16 x d a b => wordR x 0x17 1 d a b
  | .vfmulF16 x d a b => wordR x 0x17 2 d a b
  | .vfmaF16 x d a b => wordR x 0x17 3 d a b
  | .vfnmaF16 x d a b => wordR x 0x17 4 d a b
  | .vfminF16 x d a b => wordR x 0x17 5 d a b
  | .vfmaxF16 x d a b => wordR x 0x17 6 d a b
  | .vfnegF16 x d a => wordR x 0x17 7 d a 0
  | .vfaddBf16 x d a b => wordR x 0x17 8 d a b
  | .vfsubBf16 x d a b => wordR x 0x17 9 d a b
  | .vfmulBf16 x d a b => wordR x 0x17 10 d a b
  | .vfmaBf16 x d a b => wordR x 0x17 11 d a b
  | .vfnmaBf16 x d a b => wordR x 0x17 12 d a b
  | .vfminBf16 x d a b => wordR x 0x17 13 d a b
  | .vfmaxBf16 x d a b => wordR x 0x17 14 d a b
  | .vfnegBf16 x d a => wordR x 0x17 15 d a 0
  | .vfaddF64 x d a b => wordR x 0x18 0 d a b
  | .vfsubF64 x d a b => wordR x 0x18 1 d a b
  | .vfmulF64 x d a b => wordR x 0x18 2 d a b
  | .vfmaF64 x d a b => wordR x 0x18 3 d a b
  | .vfnmaF64 x d a b => wordR x 0x18 4 d a b
  | .vfminF64 x d a b => wordR x 0x18 5 d a b
  | .vfmaxF64 x d a b => wordR x 0x18 6 d a b
  | .vfabsF64 x d a => wordR x 0x18 7 d a 0
  | .vfnegF64 x d a => wordR x 0x18 8 d a 0
  | .vfclassF64 x d a => wordR x 0x18 9 d a 0
  | .vfrcp x d a => wordR x 0x19 0 d a 0
  | .vfrsq x d a => wordR x 0x19 1 d a 0
  | .vfsqrt x d a => wordR x 0x19 2 d a 0
  | .vfdiv x d a b => wordR x 0x19 3 d a b
  | .vfexp2 x d a => wordR x 0x19 4 d a 0
  | .vflog2 x d a => wordR x 0x19 5 d a 0
  | .vfsin x d a => wordR x 0x19 6 d a 0
  | .vfcos x d a => wordR x 0x19 7 d a 0
  | .vftanh x d a => wordR x 0x19 8 d a 0
  | .vfrcpF64 x d a => wordR x 0x19 9 d a 0
  | .vfrsqF64 x d a => wordR x 0x19 10 d a 0
  | .vcvt x d a c => wordR x 0x1A 0 d a c
  | .vcvtRz x d a c => wordR x 0x1A 1 d a c
  | .vcvtRn x d a c => wordR x 0x1A 2 d a c
  | .vcvtSr x d a c => wordR x 0x1A 3 d a c
  | .vpack x d a c => wordR x 0x1A 4 d a c
  | .vunpk x d a c => wordR x 0x1A 5 d a c
  | .vscaccE8m0 x d a b => wordR x 0x1B 0 d a b
  | .vscaccE4m3 x d a b => wordR x 0x1B 1 d a b
  | .vscaccBf16 x d a b => wordR x 0x1B 2 d a b
  | .vscaccF32 x d a b => wordR x 0x1B 3 d a b
  | .vshuf x d a b => wordR x 0x1C 0 d a b
  | .vvote x d a b => wordR x 0x1C 1 d a b
  | .velect x d a => wordR x 0x1C 2 d a 0
  | .vredAddF32 x d a => wordR x 0x1C 3 d a 0
  | .vredAddI32 x d a => wordR x 0x1C 4 d a 0
  | .vredMaxF32 x d a => wordR x 0x1C 5 d a 0
  | .vredMinF32 x d a => wordR x 0x1C 6 d a 0
  | .vscanAddI32 x d a => wordR x 0x1C 7 d a 0
  | .ld x w s d a b => wordR x 0x20 ((w.code ++ BitVec.ofBool s ++ 0#1 : BitVec 4).toNat) d a b
  | .st x w d a b => wordR x 0x21 ((w.code ++ 0#2 : BitVec 4).toNat) d a b
  | .vld x c d a b => wordR x 0x22 c.toNat d a b
  | .vldc x c d a b => wordR x 0x23 c.toNat d a b
  | .vld2 x c d a b => wordR x 0x24 c.toNat d a b
  | .vst x d a b => wordR x 0x25 0 d a b
  | .vstc x d a b => wordR x 0x26 0 d a b
  | .vst2 x d a b => wordR x 0x27 0 d a b
  | .spld x d a b => wordR x 0x28 0 d a b
  | .spst x d a b => wordR x 0x29 0 d a b
  | .atom x o d a b => wordR x 0x2A o.code.toNat d a b
  | .vatom x o d a b => wordR x 0x2B o.code.toNat d a b
  | .spatom x o d a b => wordR x 0x2C o.code.toNat d a b
  | .fence x k s => wordR x 0x2D 0 0 0 (0#1 ++ k.code ++ s.code)
  | .flush x s => wordR x 0x2D 1 0 0 (0#4 ++ s.code)
  | .inval x s => wordR x 0x2D 2 0 0 (0#4 ++ s.code)
  | .pref x l a b => wordR x 0x2D 3 (0#6 ++ BitVec.ofBool l) a b
  | .waitc x a b => wordR x 0x2D 4 0 a b
  | .mwait x d a b => wordR x 0x2D 5 d a b
  | .syncw x d a b => wordR x 0x2D 6 d a b
  | .syncset x a b => wordR x 0x2D 7 0 a b
  | .bar x => wordR x 0x2E 0 0 0 0
  | .boarr x d a => wordR x 0x2E 1 d a 0
  | .bowait x a b => wordR x 0x2E 2 0 a b
  | .boinit x a b => wordR x 0x2E 3 0 a b
  | .cpyG2s x a b e => wordR x 0x2F 0 a b e
  | .cpyS2g x a b e => wordR x 0x2F 1 a b e
  | .cpyS2s x a b e => wordR x 0x2F 2 a b e
  | .cpyX x a b e => wordR x 0x2F 3 a b e
  | .gthr x a b e => wordR x 0x2F 4 a b e
  | .coll x a b e => wordR x 0x2F 5 a b e
  | .fsend x a b e => wordR x 0x2F 6 a b e
  | .tgive x a b e => wordR x 0x30 0 a b e
  | .ttake x a b => wordR x 0x30 1 a b 0
  | .tchk x a b => wordR x 0x30 2 a b 0
  | .mma x f a b e => wordR x 0x31 f.code.toNat a b e
  | .mmab x f a b e => wordR x 0x32 f.code.toNat a b e
  | .mbatch x d a => wordR x 0x33 0 d a 0
  | .mbwait x d a => wordR x 0x33 1 d a 0
  | .mqry x d => wordR x 0x33 2 d 0 0
  | .spawn x a b => wordR x 0x34 0 0 a b
  | .bincfg x a b => wordR x 0x34 1 0 a b
  | .binflush x => wordR x 0x34 2 0 0 0
  | .launch x a => wordR x 0x34 3 0 a 0
  | .dqpush x d b => wordR x 0x35 0 d 0 b
  | .dqpop x d => wordR x 0x35 1 d 0 0
  | .dqsteal x d a => wordR x 0x35 2 d a 0
  | .dqlen x d a => wordR x 0x35 3 d a 0
  | .qput x a b => wordR x 0x36 0 0 a b
  | .qget x d a b => wordR x 0x36 1 d a b
  | .qfree x d a => wordR x 0x36 2 d a 0
  | .qtryput x d a b => wordR x 0x36 3 d a b
  | .qtryget x d a b => wordR x 0x36 4 d a b
  | .tbset x d a => wordR x 0x37 0 d a 0
  | .tbclr x d => wordR x 0x37 1 d 0 0
  | .ebud x d => wordR x 0x37 2 d 0 0
  | .liveq x d => wordR x 0x37 3 d 0 0
  | .bkpt x => wordR x 0x38 0 0 0 0
  | .rmark x b => wordR x 0x38 1 0 0 b
  | .dmbox x a => wordR x 0x38 2 0 a 0
  | .rdsr x d i => wordR x 0x39 0 d 0 i.code
  | .wrsr x a i => wordR x 0x39 1 0 a i.code
  | .runaheadEnd .. | .variableResultLands .. | .splitLoadReply .. | .groupEnd .. | .retirementReleaseDone ..
  | .outqPut .. | .inqTake .. | .boundArrayLoad .. | .qtailDoorbell .. | .qbaseWrite .. | .qctlWrite ..
  | .submissionEntryFetch .. | .placementPass | .turnEnd .. | .progressEviction .. | .spawnBinTimer ..
  | .dequeService .. | .copyPieceLands .. | .gatherRowLands .. | .matrixOperation .. | .collectiveComplete ..
  | .engineCommandComplete .. | .fabricCreditRequest .. | .fabricDelivery .. | .fabricFailureNotice ..
  | .fabricLinkDown .. | .peerWindowRequest .. | .exportTableWrite .. | .faultService .. | .cellarExpansionDone ..
  | .migrateOnTouchDone .. | .fresWrite .. | .walkComplete .. | .pageMigration .. | .shootdownComplete ..
  | .filterClear .. | .pinSwap .. | .sectorPin .. | .format .. | .inject .. | .testModeExit | .reset ..
  | .hostSelfTest .. | .powerAlarm .. | .arbiterInterval .. | .junctionTemperatureAlarm .. | .overtemperatureCutoff ..
  | .tdiError .. | .create .. | .terminate .. | .preempt .. | .returnCtx .. | .refill .. | .shoot .. | .pool ..
  | .share .. | .sealin .. | .rekey .. | .attest .. | .ringRrdWrite .. | .ringEnable .. | .sessionOpen ..
  | .sessionClose .. | .sessionCloseComplete .. | .lrdWrite .. | .lwrWrite .. | .replayResume .. | .recorderSpill ..
  | .chunkCountLimit .. | .sample .. | .debugRegisterWrite .. | .wrbp .. | .wrwp .. | .halt .. | .resume .. | .step ..
  | .rdst .. | .rdv .. | .setev .. | .registerWrite .. | .illegalWord .. | .cellarCompression .. | .accessPerformed ..
  | .fetchReturn .. | .fabricAcknowledgement .. | .fabricCreditGrant .. | .tdiStateChange .. | .testModeEntry
  | .hostLinkDown => 0

/-- The prefix words of a bundle, in the order IMM, ORD, REP, LANE (any order decodes alike, R101). -/
def prefixWords (px : Pfx) : List Word :=
  px.imm.toList.map immWord ++ px.ord.toList.map ordWord ++ px.rep.toList.map repWord ++ px.lane.toList.map laneWord

/-- The words of an instruction's bundle; an event has none. -/
def encode (i : Instr) : List Word :=
  match i.pre? with
  | none => []
  | some x => prefixWords x.px ++ [encodeWord i]

end Sys2Proof
end

