-- ==== Sys2Proof/Config.lean ====
section
/-! DEFINITION. Free values: what the specification leaves open and the machine nevertheless produces. Each is an opaque
constant without a body; nothing can be proved about its value (log entries 7, 12 and 15). -/

namespace Sys2Proof.Config

/-- SFU functions whose result the specification only bounds (R156), by function number and operand bits (log entry 12). -/
opaque sfu : Nat → Nat → Nat
/-- A value drawn at the n-th open point of a run (log entry 7). -/
opaque free : Nat → BitVec 64
/-- Outputs of the security processor by purpose and input: digests, unwrapped and decrypted bytes, tags, report bytes
(R332, R358 to R361, log entry 15). -/
opaque crypto : Nat → List (BitVec 8) → List (BitVec 8)
/-- A sealed blob's tag verifies (R359), a SEAL record verifies (R332): by purpose and bytes. -/
opaque verifies : Nat → List (BitVec 8) → Bool
/-- The L3 set of a line number (the spec gives no set function; log entry 7). -/
opaque l3Set : Nat → Nat

/-- The set of the L2 TLB that an entry takes, by first address and size (R262 names no function; log entry 18). -/
opaque tlbSet : Nat → Nat → Nat
/-- Which line of a full set a cache's replacement gives up, by cache and set (R174 names no policy; log entry 76). -/
opaque victim : Nat → Nat → Nat
/-- Check byte i of data sector j of a class-P line, as its data bytes make it: the symbol code of R289 is not given (log entry 11). -/
opaque checkP : Nat → Nat → Nat → Nat

end Sys2Proof.Config
end

