-- ==== Sys2Proof/Machine/Float.lean ====
section
/-! DEFINITION. Number formats and arithmetic (R140 to R166): exact dyadic values, one rounding, conversions, the special
functions, the matrix sum and block scaling. Values are bit patterns as naturals; flags are FFLAGS masks. -/

namespace Sys2Proof.Machine

/-- FFLAGS bits (R94). -/
def flNV : Word := 0x1
def flDZ : Word := 0x2
def flOF : Word := 0x4
def flUF : Word := 0x8
def flNX : Word := 0x10
def flIDZ : Word := 0x20
def flDEAD : Word := 0x40
def flBOUND : Word := 0x80
def flECCZ : Word := 0x100

/-- Rounding directions (R94, R146). -/
inductive Rm where
  | rne | rz | ru | rd
  deriving DecidableEq, Repr

def Rm.of (n : Nat) : Rm := match n % 4 with | 0 => .rne | 1 => .rz | 2 => .ru | _ => .rd

/-- A format: exponent and fraction widths, bias, and its top code: 0 infinities and NaNs, 1 the NaN of E4M3, 2 all numbers. -/
structure Fmt where
  ew : Nat
  fw : Nat
  bias : Nat
  top : Nat
  deriving DecidableEq, Repr

def fF64 : Fmt := ⟨11, 52, 1023, 0⟩
def fF32 : Fmt := ⟨8, 23, 127, 0⟩
def fF16 : Fmt := ⟨5, 10, 15, 0⟩
def fBF16 : Fmt := ⟨8, 7, 127, 0⟩
def fE5M2 : Fmt := ⟨5, 2, 15, 0⟩
def fE4M3 : Fmt := ⟨4, 3, 7, 1⟩
def fE3M2 : Fmt := ⟨3, 2, 3, 2⟩
def fE2M3 : Fmt := ⟨2, 3, 1, 2⟩
def fE2M1 : Fmt := ⟨2, 1, 1, 2⟩

/-- The sign bit's weight, and the magnitude code of the largest finite value. -/
def Fmt.signW (f : Fmt) : Nat := 2 ^ (f.ew + f.fw)
def Fmt.maxCode (f : Fmt) : Nat :=
  match f.top with
  | 0 => (2 ^ f.ew - 1) * 2 ^ f.fw - 1
  | 1 => 2 ^ (f.ew + f.fw) - 2
  | _ => 2 ^ (f.ew + f.fw) - 1
/-- Magnitude code of infinity (formats with top 0). -/
def Fmt.infCode (f : Fmt) : Nat := (2 ^ f.ew - 1) * 2 ^ f.fw
/-- The canonical quiet NaN (R148). -/
def Fmt.nan (f : Fmt) : Nat :=
  match f.top with
  | 0 => (2 ^ f.ew - 1) * 2 ^ f.fw + 2 ^ (f.fw - 1)
  | 1 => 2 ^ (f.ew + f.fw) - 1
  | _ => 0
/-- Exponent of the smallest subnormal's unit. -/
def Fmt.qmin (f : Fmt) : Int := 1 - (f.bias : Int) - f.fw

/-- A decoded value: a NaN (signalling or not), an infinity, or sign, magnitude and power of two. -/
inductive FVal where
  | nan (signalling : Bool)
  | inf (s : Bool)
  | num (s : Bool) (m : Nat) (e : Int)
  deriving DecidableEq, Repr

/-- The value of a bit pattern (R140). -/
def Fmt.dec (f : Fmt) (x : Nat) : FVal :=
  let s := x / f.signW % 2 == 1
  let e := x / 2 ^ f.fw % 2 ^ f.ew
  let m := x % 2 ^ f.fw
  if f.top == 0 && e == 2 ^ f.ew - 1 then
    if m == 0 then .inf s else .nan (m < 2 ^ (f.fw - 1))
  else if f.top == 1 && e == 2 ^ f.ew - 1 && m == 2 ^ f.fw - 1 then .nan false
  else if e == 0 then .num s m f.qmin
  else .num s (m + 2 ^ f.fw) (f.qmin + (e - 1 : Nat))

/-- FTZ on an operand: a subnormal reads as zero of its sign (R147). -/
def Fmt.ftzIn (f : Fmt) (ftz : Bool) (x : Nat) : Nat :=
  if ftz && x / 2 ^ f.fw % 2 ^ f.ew == 0 then x / f.signW % 2 * f.signW else x

def Fmt.rd (f : Fmt) (ftz : Bool) (x : Nat) : FVal := f.dec (f.ftzIn ftz x)

/-- Signalling NaN among the operands: NV (R148). -/
def FVal.snan : FVal → Word
  | .nan true => flNV
  | _ => 0
def FVal.isNan : FVal → Bool
  | .nan _ => true
  | _ => false
def FVal.neg : FVal → FVal
  | .nan q => .nan q
  | .inf s => .inf (!s)
  | .num s m e => .num (!s) m e

/-- A result with its flags. -/
structure FRes where
  bits : Nat
  fl : Word
  deriving DecidableEq, Repr

def Fmt.sgn (f : Fmt) (s : Bool) (code : Nat) : Nat := (if s then f.signW else 0) + code

/-- Bits of a natural (0 for 0). -/
def bitLen (n : Nat) : Nat := if n = 0 then 0 else Nat.log2 n + 1

/-- Round up at the cut? t is the kept part, r the discarded part of sh bits, st a nonzero part below it (R146). -/
def roundsUp (rm : Rm) (s : Bool) (t r sh : Nat) (st : Bool) : Bool :=
  let inexact := r != 0 || st
  match rm with
  | .rz => false
  | .ru => inexact && !s
  | .rd => inexact && s
  | .rne =>
    if sh = 0 then false
    else
      let half := 2 ^ (sh - 1)
      half < r || (r == half && (st || t % 2 == 1))

/-- Cuts magnitude m * 2^e (plus a part below 2^e when st) to a multiple of 2^q: kept units, inexactness. -/
def cutAt (rm : Rm) (s : Bool) (m : Nat) (e : Int) (st : Bool) (q : Int) : Nat × Bool :=
  if q ≤ e then
    let t := m * 2 ^ (e - q).toNat
    (if st && ((rm == .ru && !s) || (rm == .rd && s)) then t + 1 else t, st)
  else
    let sh := (q - e).toNat
    let t := m / 2 ^ sh
    let r := m % 2 ^ sh
    (if roundsUp rm s t r sh st then t + 1 else t, r != 0 || st)

/-- The overflow result of an IEEE format for a direction, as a magnitude code (R146). -/
def Fmt.overflow (f : Fmt) (rm : Rm) (s : Bool) : Nat :=
  match rm with
  | .rne => f.infCode
  | .rz => f.maxCode
  | .ru => if s then f.maxCode else f.infCode
  | .rd => if s then f.infCode else f.maxCode

/-- A rounded magnitude before overflow and flushing: its code with an unbounded top, inexact, tiny after rounding, subnormal. -/
structure Cut where
  code : Nat
  inexact : Bool
  tiny : Bool
  sub : Bool
  deriving DecidableEq, Repr

/-- Rounds a nonzero magnitude to a format's precision (R146: tininess is detected after rounding). -/
def Fmt.cut (f : Fmt) (rm : Rm) (s : Bool) (m : Nat) (e : Int) (st : Bool) : Cut :=
  let top : Int := (bitLen m : Int) - 1 + e
  let q := max (top - f.fw) f.qmin
  let (t, ix) := cutAt rm s m e st q
  let code := (q - f.qmin).toNat * 2 ^ f.fw + t
  let emin := f.qmin + f.fw
  let tiny := if emin ≤ top then false
    else if top < emin - 1 then true
    else (cutAt rm s m e st (top - f.fw)).1 < 2 ^ (f.fw + 1)
  { code := code, inexact := ix, tiny := tiny, sub := code < 2 ^ f.fw && code != 0 }

/-- Rounds (-1)^s * (m * 2^e + a part below 2^e when st) once into an IEEE format (R146, R147, R150). -/
def Fmt.round (f : Fmt) (rm : Rm) (ftz : Bool) (s : Bool) (m : Nat) (e : Int) (st : Bool) : FRes :=
  if m = 0 && !st then ⟨f.sgn s 0, 0⟩
  else
    let c := f.cut rm s m e st
    if f.maxCode < c.code then ⟨f.sgn s (f.overflow rm s), flOF ||| flNX⟩
    else if ftz && c.sub then ⟨f.sgn s 0, flUF ||| flNX⟩
    else ⟨f.sgn s c.code, (if c.inexact then flNX else 0) ||| (if c.tiny && c.inexact then flUF else 0)⟩

/-- Signed exact sums of dyadic numbers: value n * 2^e. -/
def sumAt (s : Bool) (m : Nat) (e q : Int) : Int := (if s then -(m : Int) else m) * 2 ^ (e - q).toNat

/-- Rounds a signed exact value; an exact zero takes the sign zs. -/
def Fmt.roundInt (f : Fmt) (rm : Rm) (ftz : Bool) (n e : Int) (zs : Bool) : FRes :=
  if n = 0 then ⟨f.sgn zs 0, 0⟩ else f.round rm ftz (n < 0) n.natAbs e false

/-- a * b + c, once rounded, with the NaN, infinity and zero rules of R146 to R150; p negates the product. -/
def Fmt.fmaV (f : Fmt) (rm : Rm) (ftz : Bool) (p : Bool) (a b c : FVal) : FRes :=
  let nv := a.snan ||| b.snan ||| c.snan
  let bad : FRes := ⟨f.nan, nv ||| flNV⟩
  let prod : FVal × Bool :=   -- product and whether it is 0 * inf
    match a, b with
    | .nan q, _ => (.nan q, false)
    | _, .nan q => (.nan q, false)
    | .inf s, .inf t => (.inf (s != t), false)
    | .inf s, .num t m _ => if m = 0 then (.nan false, true) else (.inf (s != t), false)
    | .num s m _, .inf t => if m = 0 then (.nan false, true) else (.inf (s != t), false)
    | .num s m e, .num t n d => (.num (s != t) (m * n) (e + d), false)
  let pr := if p then prod.1.neg else prod.1
  if prod.2 then bad
  else match pr, c with
    | .nan _, _ => ⟨f.nan, nv⟩
    | _, .nan _ => ⟨f.nan, nv⟩
    | .inf s, .inf t => if s = t then ⟨f.sgn s f.infCode, nv⟩ else bad
    | .inf s, .num .. => ⟨f.sgn s f.infCode, nv⟩
    | .num .., .inf s => ⟨f.sgn s f.infCode, nv⟩
    | .num s m e, .num t n d =>
      let q := min e d
      let r := f.roundInt rm ftz (sumAt s m e q + sumAt t n d q) q
        (if s = t then s else rm == .rd)
      ⟨r.bits, r.fl ||| nv⟩

def fOne : FVal := .num false 1 0

/-- VFADD, VFSUB, VFMUL, VFMA, VFNMA (R489). -/
def Fmt.add (f : Fmt) (rm : Rm) (ftz : Bool) (x y : Nat) : FRes := f.fmaV rm ftz false (f.rd ftz x) fOne (f.rd ftz y)
def Fmt.sub (f : Fmt) (rm : Rm) (ftz : Bool) (x y : Nat) : FRes := f.fmaV rm ftz false (f.rd ftz x) fOne (f.rd ftz y).neg
def Fmt.mul (f : Fmt) (rm : Rm) (ftz : Bool) (x y : Nat) : FRes :=
  match f.rd ftz x, f.rd ftz y with
  | .num s m e, .num t n d => f.round rm ftz (s != t) (m * n) (e + d) false
  | a, b => f.fmaV rm ftz false a b (.num false 0 0)
def Fmt.fma (f : Fmt) (rm : Rm) (ftz : Bool) (x y z : Nat) : FRes := f.fmaV rm ftz false (f.rd ftz x) (f.rd ftz y) (f.rd ftz z)
def Fmt.fnma (f : Fmt) (rm : Rm) (ftz : Bool) (x y z : Nat) : FRes := f.fmaV rm ftz true (f.rd ftz x) (f.rd ftz y) (f.rd ftz z)

/-- Order of two numbers or infinities: a < b, with -0 below +0 when z. -/
def FVal.ltZ (z : Bool) : FVal → FVal → Bool
  | .inf s, .inf t => s && !t
  | .inf s, .num .. => s
  | .num .., .inf t => !t
  | .num s m e, .num t n d =>
    let q := min e d
    let x := sumAt s m e q
    let y := sumAt t n d q
    x < y || (z && x == 0 && y == 0 && s && !t)
  | _, _ => false
def FVal.lt (a b : FVal) : Bool := a.ltZ false b
def FVal.eqv (a b : FVal) : Bool := !a.isNan && !b.isNan && !a.lt b && !b.lt a

/-- minimumNumber and maximumNumber (R149); the number returned is the operand as FTZ leaves it. -/
def Fmt.minmax (f : Fmt) (ftz mx : Bool) (x y : Nat) : FRes :=
  let a := f.rd ftz x
  let b := f.rd ftz y
  let nv := a.snan ||| b.snan
  match a.isNan, b.isNan with
  | true, true => ⟨f.nan, nv⟩
  | true, false => ⟨f.ftzIn ftz y, nv⟩
  | false, true => ⟨f.ftzIn ftz x, nv⟩
  | false, false => if (if mx then b.ltZ true a else a.ltZ true b) then ⟨f.ftzIn ftz x, nv⟩ else ⟨f.ftzIn ftz y, nv⟩

/-- VFABS and VFNEG (R489). -/
def Fmt.abs (f : Fmt) (ftz : Bool) (x : Nat) : FRes :=
  match f.rd ftz x with
  | .nan q => ⟨f.nan, if q then flNV else 0⟩
  | _ => ⟨f.ftzIn ftz x % f.signW, 0⟩
def Fmt.negate (f : Fmt) (ftz : Bool) (x : Nat) : FRes :=
  match f.rd ftz x with
  | .nan q => ⟨f.nan, if q then flNV else 0⟩
  | _ => let y := f.ftzIn ftz x; ⟨if y / f.signW % 2 == 1 then y % f.signW else y % f.signW + f.signW, 0⟩

/-- VFCLASS (R489): one bit; FTZ does not act. -/
def Fmt.classify (f : Fmt) (x : Nat) : Nat :=
  match f.dec x with
  | .nan q => if q then 2 ^ 8 else 2 ^ 9
  | .inf s => if s then 1 else 2 ^ 7
  | .num s m _ =>
    if m = 0 then (if s then 2 ^ 3 else 2 ^ 4)
    else if m < 2 ^ f.fw then (if s then 2 ^ 2 else 2 ^ 5)
    else if s then 2 else 2 ^ 6

/-- Floor of the square root, one result bit per step of fuel. -/
def isqrtGo (n : Nat) : Nat → Nat → Nat
  | 0, r => r
  | k + 1, r => let c := r + 2 ^ k; isqrtGo n k (if c * c ≤ n then c else r)
def isqrt (n : Nat) : Nat := isqrtGo n (bitLen n / 2 + 1) 0

/-- VFDIV (R156). -/
def Fmt.div (f : Fmt) (rm : Rm) (ftz : Bool) (x y : Nat) : FRes :=
  let a := f.rd ftz x
  let b := f.rd ftz y
  let nv := a.snan ||| b.snan
  match a, b with
  | .nan _, _ => ⟨f.nan, nv⟩
  | _, .nan _ => ⟨f.nan, nv⟩
  | .inf _, .inf _ => ⟨f.nan, flNV⟩
  | .inf s, .num t _ _ => ⟨f.sgn (s != t) f.infCode, 0⟩
  | .num s _ _, .inf t => ⟨f.sgn (s != t) 0, 0⟩
  | .num s m e, .num t n d =>
    if n = 0 then (if m = 0 then ⟨f.nan, flNV⟩ else ⟨f.sgn (s != t) f.infCode, flDZ⟩)
    else
      let sh := f.fw + 4 + bitLen n
      let k := m * 2 ^ sh
      f.round rm ftz (s != t) (k / n) (e - d - sh) (k % n != 0)

/-- VFSQRT (R156). -/
def Fmt.sqrt (f : Fmt) (rm : Rm) (ftz : Bool) (x : Nat) : FRes :=
  match f.rd ftz x with
  | .nan q => ⟨f.nan, if q then flNV else 0⟩
  | .inf s => if s then ⟨f.nan, flNV⟩ else ⟨f.infCode, 0⟩
  | .num s m e =>
    if m = 0 then ⟨f.sgn s 0, 0⟩
    else if s then ⟨f.nan, flNV⟩
    else
      let up := 2 * (f.fw + 4) + (if e % 2 = 0 then 0 else 1)
      let k := m * 2 ^ up
      let r := isqrt k
      f.round rm ftz false r ((e - up) / 2) (r * r != k)

/-! ### The special-function unit (R156) -/

/-- Function numbers of the SFU. -/
inductive Sfu where
  | rcp | rsq | exp2 | log2 | sin | cos | tanh
  deriving DecidableEq, Repr

def Sfu.code : Sfu → Nat
  | .rcp => 0 | .rsq => 1 | .exp2 => 4 | .log2 => 5 | .sin => 6 | .cos => 7 | .tanh => 8

/-- Is the finite candidate c of format f within n units (of the exact result's last place, 2^q) of 1 / (m * 2^e)? -/
def nearRcp (c : FVal) (s : Bool) (m : Nat) (e q : Int) : Bool :=
  match c with
  | .num t n d =>
    t == s &&
      -- |n * 2^d * m * 2^e - 1| ≤ 2^q * m * 2^e, all scaled by 2^(-k)
      let k := min (min (d + e) (q + e)) 0
      (sumAt false (n * m) (d + e) k - sumAt false 1 0 k).natAbs ≤ m * 2 ^ (q + e - k).toNat
  | _ => false

/-- Is the candidate c within 2^q of 1 / sqrt(m * 2^e)? -/
def nearRsq (c : FVal) (m : Nat) (e q : Int) : Bool :=
  match c with
  | .num false n d =>
    let k := min d q
    let x := n * 2 ^ (d - k).toNat
    let u := 2 ^ (q - k).toNat
    -- (x - u)^2 * m * 2^(2k + e) ≤ 1 ≤ (x + u)^2 * m * 2^(2k + e)
    let w := 2 * k + e
    let lo := (x - u) * (x - u) * m
    let hi := (x + u) * (x + u) * m
    if 0 ≤ w then decide (lo * 2 ^ w.toNat ≤ 1 ∧ 1 ≤ hi * 2 ^ w.toNat)
    else decide (lo ≤ 2 ^ (-w).toNat ∧ 2 ^ (-w).toNat ≤ hi)
  | _ => false

/-- Flags of a result that only approximates: NX when it is not exact, OF and UF by the exact result (R156). -/
def sfuFlush (f : Fmt) (ftz : Bool) (r : FRes) : FRes :=
  if ftz && r.bits % f.signW < 2 ^ f.fw && r.bits % f.signW != 0 then ⟨r.bits / f.signW % 2 * f.signW, r.fl ||| flUF ||| flNX⟩ else r

/-- VFRCP in F32: within 1 ulp; where the device's own map is not, the nearest value stands in (log entry 12). -/
def rcp32 (ftz : Bool) (x : Nat) : FRes :=
  match fF32.rd ftz x with
  | .nan q => ⟨fF32.nan, if q then flNV else 0⟩
  | .inf s => ⟨fF32.sgn s 0, 0⟩
  | .num s m e =>
    if m = 0 then ⟨fF32.sgn s fF32.infCode, flDZ⟩
    else
      let r := fF32.div .rne false 0x3F800000 (fF32.ftzIn ftz x)
      let c := Config.sfu Sfu.rcp.code (fF32.ftzIn ftz x)
      let top : Int := -(e + bitLen m)   -- floor(log2 (1 / (m 2^e))), one less for powers of two
      let q := max (top - 23) fF32.qmin
      sfuFlush fF32 ftz (if r.fl &&& flOF = 0 && c < 2 ^ 32 && nearRcp (fF32.dec c) s m e q then ⟨c, if c = r.bits then r.fl else r.fl ||| flNX⟩ else r)

/-- 1 / sqrt of a positive number, nearest in format f. -/
def rsqNear (f : Fmt) (rm : Rm) (m : Nat) (e : Int) : FRes :=
  -- 1 / sqrt(m 2^e) = sqrt(2^k / m) * 2^((-e - k) / 2)
  let k := 2 * (f.fw + 4) + 2 * bitLen m + (if e % 2 = 0 then 0 else 1)
  let r := isqrt (2 ^ k / m)
  f.round rm false false r ((-e - k) / 2) (r * r * m != 2 ^ k)

/-- VFRSQ in F32. -/
def rsq32 (ftz : Bool) (x : Nat) : FRes :=
  match fF32.rd ftz x with
  | .nan q => ⟨fF32.nan, if q then flNV else 0⟩
  | .inf s => if s then ⟨fF32.nan, flNV⟩ else ⟨0, 0⟩
  | .num s m e =>
    if m = 0 then ⟨fF32.sgn s fF32.infCode, flDZ⟩
    else if s then ⟨fF32.nan, flNV⟩
    else
      let r := rsqNear fF32 .rne m e
      let c := Config.sfu Sfu.rsq.code (fF32.ftzIn ftz x)
      let q : Int := (r.bits / 2 ^ 23 : Nat) - 150
      if c < 2 ^ 32 && nearRsq (fF32.dec c) m e q then ⟨c, if c = r.bits then r.fl else r.fl ||| flNX⟩ else r

/-- VFRCP.F64 and VFRSQ.F64: relative error below 2^-14, fraction bits [37:0] zero. -/
def rcp64 (ftz : Bool) (x : Nat) : FRes :=
  match fF64.rd ftz x with
  | .nan q => ⟨fF64.nan, if q then flNV else 0⟩
  | .inf s => ⟨fF64.sgn s 0, 0⟩
  | .num s m e =>
    if m = 0 then ⟨fF64.sgn s fF64.infCode, flDZ⟩
    else
      let r := fF64.div .rz false 0x3FF0000000000000 (fF64.ftzIn ftz x)
      let t := r.bits / 2 ^ 38 * 2 ^ 38
      let c := Config.sfu (16 + Sfu.rcp.code) (fF64.ftzIn ftz x) / 2 ^ 38 * 2 ^ 38
      let exact := fun v : Nat => match fF64.dec v with
        | .num _ n d => let k := min (d + e) 0; decide (n * m * 2 ^ (d + e - k).toNat = 2 ^ (-k).toNat)
        | _ => false
      let near := match fF64.dec c with
        | .num u n d =>
          u == s && (let k := min (d + e) (-14)
                     decide ((sumAt false (n * m) (d + e) k - sumAt false 1 0 k).natAbs < 2 ^ (-14 - k).toNat))
        | _ => false
      let v := if c < 2 ^ 64 && near then c else t
      sfuFlush fF64 ftz ⟨v, (if exact v then 0 else flNX) ||| (r.fl &&& (flOF ||| flUF))⟩

def rsq64 (ftz : Bool) (x : Nat) : FRes :=
  match fF64.rd ftz x with
  | .nan q => ⟨fF64.nan, if q then flNV else 0⟩
  | .inf s => if s then ⟨fF64.nan, flNV⟩ else ⟨0, 0⟩
  | .num s m e =>
    if m = 0 then ⟨fF64.sgn s fF64.infCode, flDZ⟩
    else if s then ⟨fF64.nan, flNV⟩
    else
      let t := (rsqNear fF64 .rz m e).bits / 2 ^ 38 * 2 ^ 38
      let c := Config.sfu (16 + Sfu.rsq.code) (fF64.ftzIn ftz x) / 2 ^ 38 * 2 ^ 38
      -- |c - r| < 2^-14 r, checked on squares: (1 - 2^-14)^2 < c^2 m 2^e < (1 + 2^-14)^2
      let near := match fF64.dec c with
        | .num false n d =>
          let w := 2 * d + e
          let k := min w (-28)
          let v := n * n * m * 2 ^ (w - k).toNat
          let one := 2 ^ (-28 - k).toNat
          decide ((2 ^ 14 - 1) * (2 ^ 14 - 1) * one < v ∧ v < (2 ^ 14 + 1) * (2 ^ 14 + 1) * one)
        | _ => false
      let v := if c < 2 ^ 64 && near then c else t
      let exact := match fF64.dec v with
        | .num _ n d => let w := 2 * d + e; let k := min w 0; decide (n * n * m * 2 ^ (w - k).toNat = 2 ^ (-k).toNat)
        | _ => false
      ⟨v, if exact then 0 else flNX⟩

/-- The integer and the fact of being one of a finite value; halves: twice the value is an integer. -/
def asInt (s : Bool) (m : Nat) (e : Int) : Option Int :=
  if 0 ≤ e then some ((if s then -1 else 1) * m * 2 ^ e.toNat)
  else if m % 2 ^ (-e).toNat = 0 then some ((if s then -1 else 1) * (m / 2 ^ (-e).toNat : Nat)) else none

/-! ### Transcendental functions (R156)

Each exact result is enclosed by sums of its series in 128-bit fixed point; a candidate value is then held against the bound. -/

/-- A positive real number lies from lo * 2^e to hi * 2^e. -/
structure Bounds where
  lo : Nat
  hi : Nat
  e : Int
  deriving DecidableEq, Repr

/-- One in fixed point. -/
def fxOne : Nat := 2 ^ 128

/-- a / b of naturals in fixed point, rounded down. -/
def fxQuot (a b : Nat) : Nat := a * fxOne / b

/-- The sum of n terms of a series from term t on, each made from the one before it by `next`; `next k` makes term k + 1. -/
def seriesFrom (next : Nat → Int → Int) (t : Int) (k : Nat) : Nat → Int
  | 0 => 0
  | n + 1 => t + seriesFrom next (next k t) (k + 1) n

/-- exp of t in fixed point, for t below one: less than 2^10 too low. -/
def fxExp (t : Nat) : Nat := (seriesFrom (fun k v => v * t / (fxOne * (k + 1))) fxOne 0 40).toNat

/-- The sum of z^(2k+1) / (2k+1) in fixed point, for z up to one third. -/
def fxAtanh (z : Nat) : Nat :=
  (List.range 45).foldl (fun s k => s + z ^ (2 * k + 1) / (fxOne ^ (2 * k) * (2 * k + 1))) 0

/-- ln 2 in fixed point, as twice the area tangent of a third. -/
def fxLn2 : Nat := 2 * fxAtanh (fxQuot 1 3)

/-- arctan of 1 / n in fixed point. -/
def fxAtanInv (n : Nat) : Int :=
  (List.range 40).foldl (fun s k => s + (if k % 2 = 0 then 1 else -1) * (fxOne / ((2 * k + 1) * n ^ (2 * k + 1)) : Nat)) (0 : Int)

/-- pi in fixed point: 16 arctan (1/5) - 4 arctan (1/239). -/
def fxPi : Nat := (16 * fxAtanInv 5 - 4 * fxAtanInv 239).toNat

/-- What the roundings of a sum in fixed point come to at most. -/
def fxSlack : Nat := 2 ^ 20

/-- 2^x for x = (-1)^s * (m * 2^-d), no integer: the integer part goes to the exponent. -/
def exp2Bounds (s : Bool) (m d : Nat) : Bounds :=
  if s && decide (200 * 2 ^ d ≤ m) then { lo := 0, hi := 1, e := -200 }
  else
    let i : Int := (sumAt s m 0 0) / 2 ^ d
    let f := ((sumAt s m 0 0) % 2 ^ d).toNat
    let v := fxExp (fxQuot f (2 ^ d) * fxLn2 / fxOne)
    { lo := v, hi := v + fxSlack, e := i - 128 }

/-- The size of log2 (m * 2^e), and whether it is negative. -/
def log2Bounds (m : Nat) (e : Int) : Bool × Bounds :=
  let p := 2 ^ (bitLen m - 1)
  let l := 2 * fxAtanh (fxQuot (m - p) (m + p)) * fxOne / fxLn2
  let v : Int := ((bitLen m : Int) - 1 + e) * fxOne + l
  (decide (v < 0), { lo := v.natAbs - fxSlack, hi := v.natAbs + fxSlack, e := -128 })

/-- The size of sin (pi * a / b), and whether it is negative. -/
def sinPiBounds (a b : Nat) : Bool × Bounds :=
  let y := a % (2 * b)
  let z := if b ≤ y then y - b else y
  let w := if b < 2 * z then b - z else z
  let t := fxQuot w b * fxPi / fxOne
  let v := (seriesFrom (fun k v => -(v * t / fxOne * t / (fxOne * ((2 * k + 2) * (2 * k + 3))))) t 0 30).toNat
  (decide (b ≤ y), { lo := v - fxSlack, hi := v + fxSlack, e := -128 })

/-- tanh of m * 2^e, positive: sinh / cosh below one, 1 - 2 / (exp (2 x) + 1) above it, as good as 1 from 32 on. -/
def tanhBounds (m : Nat) (e : Int) : Bounds :=
  let x := if 0 ≤ e then m * 2 ^ e.toNat * fxOne else m * fxOne / 2 ^ (-e).toNat
  if 32 * fxOne ≤ x then { lo := fxOne - fxSlack, hi := fxOne, e := -128 }
  else if x < fxOne then
    let u := x * x / fxOne
    let sh := (seriesFrom (fun k v => v * u / (fxOne * ((2 * k + 2) * (2 * k + 3)))) fxOne 0 30).toNat
    let ch := (seriesFrom (fun k v => v * u / (fxOne * ((2 * k + 1) * (2 * k + 2)))) fxOne 0 30).toNat
    let q := fxQuot sh ch
    { lo := m * (q - fxSlack), hi := m * (q + fxSlack), e := e - 128 }
  else
    let g := (List.range 6).foldl (fun v _ => v * v / fxOne) (fxExp (x / 32))
    let v := fxOne - 2 * fxOne * fxOne / (g + fxOne)
    { lo := v - fxSlack, hi := v + fxSlack, e := -128 }

/-- A value lies within n * 2^q of a number of sign s and bounded size. -/
def Bounds.near (b : Bounds) (s : Bool) (n : Nat) (q : Int) (v : FVal) : Bool :=
  match v with
  | .num u m d =>
    let k := min (min d b.e) q
    let at_ := sumAt u m d k
    let off := sumAt false n q k
    let lo := sumAt s (if s then b.hi else b.lo) b.e k
    let hi := sumAt s (if s then b.lo else b.hi) b.e k
    decide (lo - off ≤ at_) && decide (at_ ≤ hi + off)
  | _ => false

/-- The exponent of an F32 ulp of a number of bounded size. -/
def Bounds.ulp (b : Bounds) : Int := max ((bitLen b.hi : Int) - 1 + b.e - 23) fF32.qmin

/-- A transcendental result within n * 2^q: the device's fixed map where it keeps to the bound, the nearest value where it does not, with NX and
the given flags (log entry 12). -/
def sfuOpen (f : Sfu) (ftz : Bool) (x : Nat) (s : Bool) (b : Bounds) (n : Nat) (q : Int) (fl : Word) : FRes :=
  let c := Config.sfu f.code (fF32.ftzIn ftz x)
  sfuFlush fF32 ftz ⟨if c < 2 ^ 32 && b.near s n q (fF32.dec c) then c else (fF32.round .rne false s b.lo b.e true).bits, fl ||| flNX⟩

/-- VFEXP2, VFLOG2, VFSIN, VFCOS, VFTANH in F32: the operands R156 fixes, else the device's map within the bounds of R156. -/
def sfu32 (f : Sfu) (ftz : Bool) (x : Nat) : FRes :=
  let v := fF32.rd ftz x
  match f, v with
  | .rcp, _ => rcp32 ftz x
  | .rsq, _ => rsq32 ftz x
  | _, .nan q => ⟨fF32.nan, if q then flNV else 0⟩
  | .exp2, .inf s => ⟨if s then 0 else fF32.infCode, 0⟩
  | .exp2, .num s m e =>
    match asInt s m e with
    | some n => fF32.round .rne ftz false 1 n false
    | none =>
      if !s && decide (128 * 2 ^ (-e).toNat ≤ m) then ⟨fF32.infCode, flOF ||| flNX⟩
      else
        let b := exp2Bounds s m (-e).toNat
        sfuOpen .exp2 ftz x false b 2 b.ulp (if s && decide (126 * 2 ^ (-e).toNat < m) then flUF else 0)
  | .log2, .inf s => if s then ⟨fF32.nan, flNV⟩ else ⟨fF32.infCode, 0⟩
  | .log2, .num s m e =>
    if m = 0 then ⟨fF32.sgn true fF32.infCode, flDZ⟩
    else if s then ⟨fF32.nan, flNV⟩
    else if m = 2 ^ (bitLen m - 1) then
      let n := (bitLen m : Int) - 1 + e
      fF32.roundInt .rne false n 0 false
    else
      let b := log2Bounds m e
      let inside := decide (-1 ≤ (bitLen m : Int) - 1 + e) && decide ((bitLen m : Int) - 1 + e < 1)
      sfuOpen .log2 ftz x b.1 b.2 (if inside then 1 else 2) (if inside then -22 else b.2.ulp) 0
  | .sin, .inf _ => ⟨fF32.nan, flNV⟩
  | .cos, .inf _ => ⟨fF32.nan, flNV⟩
  | .sin, .num s m e =>
    if m = 0 then ⟨fF32.sgn s 0, 0⟩
    else match asInt s m e, asInt s m (e + 1) with
      | some _, _ => ⟨0, 0⟩
      | none, some h => ⟨if h % 4 = 1 then 0x3F800000 else 0xBF800000, 0⟩
      | none, none =>
        -- pi * |x| below 2^-126
        let b := sinPiBounds m (2 ^ (-e).toNat)
        sfuOpen .sin ftz x (b.1 != s) b.2 1 (-22) (if decide (884279719003555 * m * 2 ^ (e + 149).toNat < 2 ^ (48 + 23)) then flUF else 0)
  | .cos, .num s m e =>
    match asInt s m e, asInt s m (e + 1) with
    | some n, _ => ⟨if n % 2 = 0 then 0x3F800000 else 0xBF800000, 0⟩
    | none, some _ => ⟨0, 0⟩
    | none, none =>
      let b := sinPiBounds (2 * m + 2 ^ (-e).toNat) (2 ^ (1 - e).toNat)
      sfuOpen .cos ftz x b.1 b.2 1 (-22) 0
  | .tanh, .inf s => ⟨fF32.sgn s 0x3F800000, 0⟩
  | .tanh, .num s m e =>
    if m = 0 then ⟨fF32.sgn s 0, 0⟩
    else
      let b := tanhBounds m e
      sfuOpen .tanh ftz x s b 2 b.ulp (if fF32.ftzIn ftz x % 2 ^ 31 ≤ 0x800000 then flUF else 0)

/-! ### Conversions (R151 to R154) -/

/-- The direction of a conversion: an IEEE direction, or stochastic with the lane's random word. -/
inductive Dir where
  | ieee (rm : Rm)
  | sr (r : Nat)
  deriving DecidableEq, Repr

/-- What an overflow of a float code gives (R151): as IEEE, saturated, or the NaN of E4M3. -/
inductive Ovf where
  | ieee | sat | nan
  deriving DecidableEq, Repr

/-- Stochastic rounding of a magnitude (R153): code with an unbounded top, inexact. -/
def Fmt.cutSr (f : Fmt) (r m : Nat) (e : Int) : Cut :=
  let top : Int := (bitLen m : Int) - 1 + e
  let q := max (top - f.fw) f.qmin
  let base := (q - f.qmin).toNat * 2 ^ f.fw
  if q ≤ e then
    let code := base + m * 2 ^ (e - q).toNat
    { code := code, inexact := false, tiny := code < 2 ^ f.fw, sub := code < 2 ^ f.fw && code != 0 }
  else
    let sh := (q - e).toNat
    let d := m % 2 ^ sh
    let fr := if 32 ≤ sh then d / 2 ^ (sh - 32) else d * 2 ^ (32 - sh)
    let code := base + m / 2 ^ sh + (if r < fr then 1 else 0)
    { code := code, inexact := d != 0, tiny := code < 2 ^ f.fw, sub := code < 2 ^ f.fw && code != 0 }

/-- A finite value into a float format (R151); FTZ flushes results of the IEEE formats only (fl). -/
def Fmt.conv (f : Fmt) (dir : Dir) (ov : Ovf) (flush : Bool) (s : Bool) (m : Nat) (e : Int) : FRes :=
  if m = 0 then ⟨f.sgn s 0, 0⟩
  else
    let c := match dir with
      | .ieee rm => f.cut rm s m e false
      | .sr r => f.cutSr r m e
    let up := match dir with
      | .ieee rm => (match rm with | .rne => true | .rz => false | .ru => !s | .rd => s)
      | .sr _ => true
    if f.maxCode < c.code then
      ⟨f.sgn s (match ov with
        | .ieee => if up then f.infCode else f.maxCode
        | .sat => f.maxCode
        | .nan => if up then f.nan else f.maxCode), flOF ||| flNX⟩
    else if flush && c.sub then ⟨f.sgn s 0, flUF ||| flNX⟩
    else ⟨f.sgn s c.code, (if c.inexact then flNX else 0) ||| (if c.tiny && c.inexact then flUF else 0)⟩

/-- Float to float: the special operands of R151, then the value. `inf` is the magnitude code an infinity gives. -/
def convFF (src dst : Fmt) (dir : Dir) (ov : Ovf) (ftzIn ftzOut : Bool) (x : Nat) : FRes :=
  match src.rd ftzIn x with
  | .nan q =>
    if dst.top == 2 then ⟨0, flNV⟩ else ⟨dst.nan, if q then flNV else 0⟩
  | .inf s =>
    match ov with
    | .ieee => ⟨dst.sgn s dst.infCode, 0⟩
    | .sat => ⟨dst.sgn s dst.maxCode, 0⟩
    | .nan => ⟨dst.sgn s dst.nan, 0⟩
  | .num s m e => dst.conv dir ov ftzOut s m e

/-- Rounds a finite value to an integer by direction: the integer and inexactness. -/
def toInt (rm : Rm) (s : Bool) (m : Nat) (e : Int) : Int × Bool :=
  let (t, ix) := cutAt rm s m e false 0
  (if s then -(t : Int) else t, ix)

/-- Float to integer with bounds (R152): the value modulo 2^width is the caller's. -/
def convFI (src : Fmt) (rm : Rm) (ftz : Bool) (lo hi : Int) (x : Nat) : Int × Word :=
  match src.rd ftz x with
  | .nan _ => (0, flNV)
  | .inf s => (if s then lo else hi, flNV)
  | .num s m e =>
    let (n, ix) := toInt rm s m e
    if n < lo then (lo, flNV) else if hi < n then (hi, flNV) else (n, if ix then flNX else 0)

/-- The value of a TS8 byte in units of 2^-6 (R144). -/
def ts8 (x : Nat) : Int :=
  let term := fun (s c : Nat) => if c = 7 then (0 : Int) else (if s = 1 then -1 else 1) * 2 ^ (6 - c)
  term (x / 128 % 2) (x / 16 % 8) + term (x / 8 % 2) (x % 8)

/-- Two's-complement value of the low w bits. -/
def sInt (w x : Nat) : Int := let y := x % 2 ^ w; if y < 2 ^ (w - 1) then y else (y : Int) - 2 ^ w
/-- Low w bits of an integer. -/
def uNat (w : Nat) (n : Int) : Nat := (n % 2 ^ w).toNat

def Dir.rm : Dir → Rm
  | .ieee rm => rm
  | .sr _ => .rz

/-- Convert(code, x, dir) of R134 and R151 to R153, on a value zero-extended to 64 bits. -/
def convert (code : Nat) (dir : Dir) (ftz : Bool) (x : Nat) : FRes :=
  let fi := fun (src : Fmt) (w : Nat) (lo hi : Int) => let r := convFI src dir.rm ftz lo hi x; (⟨uNat w r.1, r.2⟩ : FRes)
  let x32 := x % 2 ^ 32
  let x16 := x % 2 ^ 16
  let x8 := x % 2 ^ 8
  match code with
  | 0x00 => convFF fF32 fF64 (.ieee .rne) .ieee ftz ftz x32
  | 0x01 => convFF fF64 fF32 dir .ieee ftz ftz x
  | 0x02 => convFF fF32 fF16 dir .ieee ftz ftz x32
  | 0x03 => convFF fF32 fBF16 dir .ieee ftz ftz x32
  | 0x04 => convFF fF16 fF32 (.ieee .rne) .ieee ftz ftz x16
  | 0x05 => convFF fBF16 fF32 (.ieee .rne) .ieee ftz ftz x16
  | 0x06 => fi fF32 32 (-(2 ^ 31)) (2 ^ 31 - 1)
  | 0x07 => fi fF32 32 0 (2 ^ 32 - 1)
  | 0x08 => fF32.roundInt dir.rm ftz (sInt 32 x) 0 false
  | 0x09 => fF32.roundInt dir.rm ftz x32 0 false
  | 0x0A => fi fF64 64 (-(2 ^ 63)) (2 ^ 63 - 1)
  | 0x0B => fF64.roundInt dir.rm ftz (sInt 64 x) 0 false
  | 0x0C => fi fF64 32 (-(2 ^ 31)) (2 ^ 31 - 1)
  | 0x0D => fF64.roundInt dir.rm ftz (sInt 32 x) 0 false
  | 0x10 => convFF fF32 fE4M3 dir .nan ftz false x32
  | 0x11 => convFF fF32 fE4M3 dir .sat ftz false x32
  | 0x12 => convFF fF32 fE5M2 dir .ieee ftz false x32
  | 0x13 => convFF fF32 fE5M2 dir .sat ftz false x32
  | 0x14 => convFF fF32 fE2M3 dir .sat ftz false x32
  | 0x15 => convFF fF32 fE3M2 dir .sat ftz false x32
  | 0x16 => convFF fF32 fE2M1 dir .sat ftz false x32
  | 0x18 => convFF fE4M3 fF32 (.ieee .rne) .ieee false false x8
  | 0x19 => convFF fE5M2 fF32 (.ieee .rne) .ieee false false x8
  | 0x1A => convFF fE2M3 fF32 (.ieee .rne) .ieee false false (x8 % 64)
  | 0x1B => convFF fE3M2 fF32 (.ieee .rne) .ieee false false (x8 % 64)
  | 0x1C => convFF fE2M1 fF32 (.ieee .rne) .ieee false false (x8 % 16)
  | 0x1D => fF32.roundInt .rne false (ts8 x8) (-6) false
  | 0x1E => if x8 = 255 then ⟨fF32.nan, 0⟩ else fF32.round .rne false false 1 ((x8 : Int) - 127) false
  | _ => ⟨0, 0⟩

/-- The random word of a lane (R154). -/
def drawWord (seed scrw sgrp scor lane n : Dword) : Nat :=
  let key := (seed <<< 32) ^^^ (scrw <<< 20) ^^^ (sgrp <<< 15) ^^^ (scor <<< 5) ^^^ lane
  let z := key + n * 0x9E3779B97F4A7C15
  let z := (z ^^^ (z >>> 30)) * 0xBF58476D1CE4E5B9
  let z := (z ^^^ (z >>> 27)) * 0x94D049BB133111EB
  let z := z ^^^ (z >>> 31)
  (z >>> 32).toNat

/-! ### Block scaling and reductions (R165, R166) -/

/-- The scale of VSCACC: none for a NaN, else a value. -/
def scaleOf (minor : Nat) (b : Nat) : FVal :=
  let mul := fun (x y : FVal) => match x, y with
    | .num s m e, .num t n d => FVal.num (s != t) (m * n) (e + d)
    | .inf s, .num t m _ => if m = 0 then .nan true else .inf (s != t)
    | .num s m _, .inf t => if m = 0 then .nan true else .inf (s != t)
    | .inf s, .inf t => .inf (s != t)
    | _, _ => .nan false
  match minor with
  | 0 => if b % 256 = 255 || b / 256 % 256 = 255 then .nan false
         else .num false 1 ((b % 256 : Nat) - 127 + ((b / 256 % 256 : Nat) - 127))
  | 1 => mul (fE4M3.dec (b % 256)) (fE4M3.dec (b / 256 % 256))
  | 2 => mul (fBF16.dec (b % 65536)) (fBF16.dec (b / 65536 % 65536))
  | _ => fF32.dec (b % 2 ^ 32)

/-- d + P * sigma with one rounding (R165); FTZ flushes subnormal F32 and BF16 operands (R147). -/
def vscacc (minor : Nat) (rm : Rm) (ftz : Bool) (d p b : Nat) : FRes :=
  let sc := match minor with
    | 2 => scaleOf 2 (fBF16.ftzIn ftz (b % 65536) + fBF16.ftzIn ftz (b / 65536 % 65536) * 65536)
    | 3 => scaleOf 3 (fF32.ftzIn ftz (b % 2 ^ 32))
    | _ => scaleOf minor b
  let r := fF32.fmaV rm ftz false (fF32.rd ftz p) sc (fF32.rd ftz d)
  if sc.isNan then ⟨fF32.nan, r.fl ||| flNV⟩ else r

/-- The butterfly of R166 over a power of two of values: op gets the lower index first. -/
def butterflyStep (op : Nat → Nat → FRes) (off : Nat) (x : Vector Nat 32) : Vector FRes 32 :=
  Vector.ofFn fun i =>
    let j := Nat.xor i.val off
    let lo := min i.val j
    let hi := max i.val j
    op (x.toList.getD lo 0) (x.toList.getD hi 0)

def butterfly (op : Nat → Nat → FRes) : List Nat → Vector Nat 32 → Word → Vector Nat 32 × Word
  | [], x, fl => (x, fl)
  | off :: offs, x, fl =>
    let y := butterflyStep op off x
    butterfly op offs (y.map FRes.bits) (y.toList.foldl (fun w r => w ||| r.fl) fl)

/-! ### The matrix sum (R157 to R162) -/

/-- Formats of the A and B elements of a pair, by an element decoder; I8 is apart (R136). -/
def MatPair.decA (p : MatPair) (x : Nat) : FVal :=
  match p with
  | .bf16 | .bf16ts8 => fBF16.dec x
  | .f16 => fF16.dec x
  | .e4m3 | .e4m3e5m2 | .e4m3ts8 => fE4M3.dec x
  | .e5m2 | .e5m2e4m3 => fE5M2.dec x
  | .e2m3 => fE2M3.dec (x % 64)
  | .e3m2 => fE3M2.dec (x % 64)
  | .e2m1 => fE2M1.dec (x % 16)
  | .i8 => .num (sInt 8 x < 0) (sInt 8 x).natAbs 0
def MatPair.decB (p : MatPair) (x : Nat) : FVal :=
  match p with
  | .bf16 => fBF16.dec x
  | .f16 => fF16.dec x
  | .e4m3 | .e5m2e4m3 => fE4M3.dec x
  | .e5m2 | .e4m3e5m2 => fE5M2.dec x
  | .e2m3 => fE2M3.dec (x % 64)
  | .e3m2 => fE3M2.dec (x % 64)
  | .e2m1 => fE2M1.dec (x % 16)
  | .bf16ts8 | .e4m3ts8 => .num (ts8 x < 0) (ts8 x).natAbs (-6)
  | .i8 => .num (sInt 8 x < 0) (sInt 8 x).natAbs 0
/-- K of a pair, and the element bytes of A and B (R136, R236). -/
def MatPair.k : MatPair → Nat
  | .bf16 | .f16 => 64
  | .e4m3 | .e5m2 | .e4m3e5m2 | .e5m2e4m3 | .bf16ts8 | .i8 => 128
  | .e2m3 | .e3m2 | .e2m1 | .e4m3ts8 => 256
def MatPair.sA : MatPair → Nat
  | .bf16 | .f16 | .bf16ts8 => 2
  | _ => 1
def MatPair.sB : MatPair → Nat
  | .bf16 | .f16 => 2
  | _ => 1
/-- The alignment window (R157). -/
def MatPair.window : MatPair → Nat
  | .bf16 | .f16 | .bf16ts8 => 96
  | _ => 64

/-- Exact product of two decoded elements; none for a NaN or 0 * inf. -/
def matProd : FVal → FVal → Option FVal
  | .num s m e, .num t n d => some (.num (s != t) (m * n) (e + d))
  | .inf s, .inf t => some (.inf (s != t))
  | .inf s, .num t m _ => if m = 0 then none else some (.inf (s != t))
  | .num s m _, .inf t => if m = 0 then none else some (.inf (s != t))
  | _, _ => none

/-- Rounding of R158: nearest even on |X| with the sticky bit below every kept bit. -/
def matRound (x : Int) (e : Int) (st : Bool) (cs : Bool) : Nat :=
  if x = 0 then fF32.sgn cs 0
  else
    let s := decide (x < 0)
    let m := x.natAbs
    let top : Int := (bitLen m : Int) - 1 + e
    let q := max (top - 23) fF32.qmin
    let code := (q - fF32.qmin).toNat * 2 ^ 23 +
      (if q ≤ e then m * 2 ^ (e - q).toNat
       else
         let sh := (q - e).toNat
         let t := m / 2 ^ sh
         if roundsUp .rne s t (m % 2 ^ sh) sh (st && m % 2 ^ sh != 0) then t + 1 else t)
    if code = 0 then fF32.sgn cs 0
    else if fF32.maxCode < code then fF32.sgn s fF32.infCode else fF32.sgn s code

/-- MatSum for every pair but I8: products p, old accumulator c as F32 bits (R157 to R159). -/
def matSumF (w : Nat) (ps : List (Option FVal)) (c : Nat) : Nat :=
  let cv := fF32.dec c
  let bad := ps.any (·.isNone) || cv.isNan
  let infs := (cv :: ps.filterMap id).filterMap fun v => match v with | .inf s => some s | _ => none
  if bad || (infs.contains true && infs.contains false) then fF32.nan
  else match infs with
    | s :: _ => fF32.sgn s fF32.infCode
    | [] =>
      let nz := ps.filterMap fun p => match p with | some (.num s m e) => if m = 0 then none else some (s, m, e) | _ => none
      let (cs, cm, ce) := match cv with | .num s m e => (s, m, e) | _ => (false, 0, 0)
      match nz with
      | [] => matRound (sumAt cs cm ce ce) ce false cs
      | p0 :: rest =>
        let log := fun (p : Bool × Nat × Int) => (bitLen p.2.1 : Int) - 1 + p.2.2
        let top := rest.foldl (fun a p => max a (log p)) (log p0)
        let u := top + 1 - w
        let cut := fun (p : Bool × Nat × Int) => cutAt .rz p.1 p.2.1 p.2.2 false u
        let t := nz.foldl (fun a p => a + (if p.1 then -((cut p).1 : Int) else (cut p).1)) 0
        let st := nz.any fun p => (cut p).2
        let q := min u ce
        matRound (t * 2 ^ (u - q).toNat + sumAt cs cm ce q) q st cs

/-- MatSum of R126: the format pair, a row of A, a column of B and the old accumulator. -/
def matSum (p : MatPair) (row col : List Nat) (c : Nat) : Nat :=
  match p with
  | .i8 => uNat 32 ((row.zip col).foldl (fun a x => a + sInt 8 x.1 * sInt 8 x.2) (sInt 32 c))
  | _ => matSumF (MatPair.window p) ((row.zip col).map fun x => matProd (MatPair.decA p x.1) (MatPair.decB p x.2)) c

end Sys2Proof.Machine
end

