-- ==== Sys2Proof/Machine/State.lean ====
section
/-! DEFINITION. The state of a Z768 as plain data: groups, cores, clusters, contexts, tenants, launches, the hub units and
memory; the reasons a step can stop; and the state right after reset. -/

namespace Sys2Proof.Machine

/-- Reasons the machine stops. -/
inductive Fault where
  /-- Raised by no instruction of a group: an event names a core, slot, tenant or record that the machine does not have
  (the agenda is the model's own, log entry 1). Safe: no hardware step corresponds to it. -/
  | noSuchUnit
  deriving DecidableEq, Repr

/-- Instructions and events without a meaning. -/
inductive Refusal where
  /-- Raised by a refused arm of Dispatch.lean alone. Safe: the model stops where the hardware goes on. -/
  | notModelled (mnemonic : String)
  deriving DecidableEq, Repr

/-- A sparse table: keys strictly rising, no entry equal to the table's default (Machine/Sparse.lean). -/
abbrev SMap (α : Type) := List (Nat × α)

/-- Memory by location number: a physical address (R170: local raw HBM, host, peer windows), or
2^52 + core * 2^19 + offset for a scratchpad byte (R171). An unlisted byte reads 0 (log entry 4). -/
abbrev Memory := List Host.Cell

/-- The zero vector register. -/
def Lanes.zero : Lanes := Vector.replicate 32 0

/-- A register that can be pending or receive a late result: window register by absolute index, operand file, last-result
file, scalar register by absolute index (R81, R119). -/
inductive RegId where
  | v (n : Nat)
  | o (n : Nat)
  | h (n : Nat)
  | s (n : Nat)
  deriving DecidableEq, Repr

/-- What ends a pending mark (R119): the next switch marker, or a WAITC that covers load `seq` of counter `ctr` (R121). -/
inductive Tag where
  | marker
  | split (ctr : Nat) (seq : Nat)
  deriving DecidableEq, Repr

/-- Engine classes in the order of the owner-state codes (R190). -/
inductive Eng where
  | copy | gather | collective | matrix | fabric
  deriving DecidableEq, Repr

/-- What an outstanding access of a group does when it is performed (R119, R215, R218). -/
inductive FlightKind where
  /-- SFU result: the lanes and flags were fixed at issue, they land together (R490). -/
  | sfu
  /-- A register refilled from the attic, and one spilled to it (R86). -/
  | fill
  | spill
  | load
  | store
  | atomic (op : AtomOp)
  /-- FENCE and the ordering side of a synchronising instruction: every earlier access first, then the scope's cache action. -/
  | fence
  /-- FLUSH: write back, order nothing later (R218). -/
  | flush
  /-- INVAL: invalidate, order nothing (R218). -/
  | inval
  deriving DecidableEq, Repr

/-- One outstanding access or late result of a group. -/
structure Flight where
  id : Nat
  /-- number of the instruction (or repeat) in program order (R210) -/
  seq : Nat
  kind : FlightKind
  lane : Nat
  va : Dword
  /-- memory location of the first byte -/
  loc : Nat
  /-- bytes -/
  width : Nat
  ord : OrdKind
  scope : Scope
  data : Dword
  cmp : Dword
  /-- destination registers: none, one, or an even and an odd half -/
  dest : List RegId
  /-- LD sign-extends -/
  sext : Bool
  /-- a split-phase load's counter and number on it -/
  ctr : Option (Nat × Nat)
  /-- lanes of a whole-register result -/
  value : Lanes
  mask : Word
  flags : Word
  /-- the lanes of a store's instruction together cover this lane's whole sector (R295) -/
  cover : Bool
  /-- L3 hint of the page (R180) -/
  hint : Nat
  deriving DecidableEq, Repr

/-- What a parked group waits for (R80); `code` in `Wait` is its stall reason (R334). -/
inductive Cond where
  /-- nothing holds the group: it is ready -/
  | ready
  /-- its own variable-latency results behind a marker (R119) -/
  | marker
  /-- at most n loads on counter c uncounted (R121) -/
  | counter (c : Nat) (n : Nat)
  /-- the crew barrier (R366) -/
  | bar
  /-- barrier object obj leaves generation gen (R376) -/
  | barrier (obj : Nat) (gen : Nat)
  /-- barrier object obj is restored or released (R198) -/
  | barrierFree (obj : Nat)
  /-- the sync word at loc leaves generation gen (R462) -/
  | sync (loc : Nat) (gen : Nat)
  /-- the doubleword at loc differs from v (R424) -/
  | word (loc : Nat) (v : Dword) (va : Dword)
  /-- a queue's home answers: the request is in the home's list (R74) -/
  | queue
  /-- the deque serves the request (R73) -/
  | deque
  /-- batches closed up to and including number n, δ closings ago, have retired (R244) -/
  | batches (n : Nat)
  /-- fewer than eight closed unretired batches (R242) -/
  | batchRoom
  /-- no engine command uses the n tiles from tile t of core (R222) -/
  | tiles (core : Nat) (t : Nat) (n : Nat)
  /-- room in an engine queue (R232) -/
  | engineRoom (e : Eng)
  /-- page walks outstanding (R264) -/
  | walk
  /-- missing pages (R266) -/
  | fault
  /-- request slots free (R187) -/
  | slots (n : Nat)
  /-- below the caps of R188 with n slots more, of which some aim at these slices -/
  | caps (n : Nat) (slices : List Nat)
  /-- an ordering wait ends (R219) -/
  | order
  /-- every earlier flag-setting instruction has set its flags (R168) -/
  | drain
  /-- every access and pending result of the group is done (R397) -/
  | quiet
  /-- instruction fetch (R80) -/
  | fetch
  /-- fewer than 256 admitted launches (R56) -/
  | launches
  /-- a free launch-buffer entry (R69) -/
  | buffer
  /-- the bins that a BINFLUSH closed, by number and deposits, have moved to the launch buffer (R370) -/
  | flush (l : List (Nat × Nat))
  /-- room in the tenant's debug ring (R540) -/
  | debugRing
  /-- the replay order (R328) -/
  | replay
  /-- a waker has done the instruction's work; it completes when the group next issues (R74, R366, R72) -/
  | handed (a : Dword) (b : Dword)
  deriving DecidableEq, Repr

/-- A wait: its stall reason and its condition. -/
structure Wait where
  code : Nat
  cond : Cond
  deriving DecidableEq, Repr

/-- No wait. -/
def Wait.none : Wait := { code := 0, cond := .ready }

/-- A batch of engine commands, open or closed (R241 to R243). -/
structure Batch where
  num : Nat
  /-- commands that have joined, and those not completed -/
  count : Nat
  left : Nat
  /-- the barrier object of ARRIVE -/
  arrive : Option Nat
  status : Nat
  closed : Bool
  retired : Bool
  reported : Bool
  /-- tiles its commands used, as core * 128 + tile (R243) -/
  tiles : List Nat
  deriving DecidableEq, Repr

/-- An open chunk of a recording or replaying group (R317 to R319). -/
structure Chunk where
  start : Nat
  count : Nat
  /-- lines read and written -/
  reads : List Nat
  writes : List Nat
  /-- the open chunk has begun -/
  live : Bool
  /-- the group stands at a chunk end: nothing of its next chunk is done (R326) -/
  ended : Bool
  deriving DecidableEq, Repr

/-- The chunk that a new group has yet to begin. -/
def Chunk.new : Chunk := { start := 0, count := 0, reads := [], writes := [], live := false, ended := false }

/-- Run-ahead of a group (R203 to R206): bundles run, registers with an invalid mark, the group stopped and waits. -/
structure RunAhead where
  bundles : Nat
  bad : List RegId
  badPreds : List Nat
  stopped : Bool
  /-- EM carries an invalid mark (R204) -/
  badEm : Bool
  /-- number of the load whose return is awaited (R203, R210) -/
  awaited : Nat
  deriving DecidableEq, Repr

/-- What a group in a trap handler keeps of a trapping bundle that was performed in part (R265, R267, R268): the bundle's address,
its unfinished lanes, its uncounted load and whether it has debited for a CLAMP. -/
structure Kept where
  pc : Dword
  unfin : Word
  load : Option (Nat × Nat)
  clamped : Bool
  deriving DecidableEq, Repr

/-- What is wrong with a register's stored code word (R90, R92). -/
inductive RegFault where
  /-- confined to one symbol: every read corrects it -/
  | correctable
  /-- not correctable, and the decoder locates the failing lanes -/
  | located (lanes : Word)
  /-- not correctable and not located; so is every uncorrectable error of a scalar register -/
  | unlocated
  deriving DecidableEq, Repr

/-- A register whose stored code word holds an error (R90). -/
structure RegMark where
  reg : RegId
  fault : RegFault
  deriving DecidableEq, Repr

/-- A group: control thread, lanes, registers and everything a pre-emption saves (R21, R81, R286). -/
structure Group where
  used : Bool
  ctx : Nat
  crew : Nat
  /-- index in the crew: sx0, sgrp (R40) -/
  index : Nat
  scrw : Word
  sx : Vector Dword 8
  arg : Dword
  /-- crew's scratchpad base, a cluster scratchpad address (R171) -/
  spad : Dword
  /-- group ordinal (R279) -/
  ordinal : Nat
  /-- address of the next bundle (R101) -/
  pc : Dword
  em : Word
  live : Word
  preds : Vector Word 8
  /-- registers allocated: Av and As of R84 -/
  av : Nat
  as : Nat
  /-- vector and scalar stacks by absolute index (R84); unlisted reads 0 -/
  vregs : SMap Lanes
  sregs : SMap Dword
  vb : Nat
  sb : Nat
  /-- LOW of each physical span (R86) -/
  vlow : Nat
  slow : Nat
  ofile : Vector Lanes 16
  hfile : Vector Lanes 8
  /-- pending marks (R119, R123) -/
  pend : List (RegId × Tag)
  /-- loads issued and counted on c0 to c15 (R121) -/
  issued : Vector Nat 16
  counted : Vector Nat 16
  /-- counter and number of a split-phase load with unfinished lanes (R186) -/
  partLoad : Option (Nat × Nat)
  /-- EXHAUST that a marker or a covering WAITC has yet to raise, with its address, and those now due (R480, R494) -/
  owed : List (Tag × Dword)
  due : List Dword
  /-- link stack, newest first: return address and d of the CALL (R85) -/
  links : List (Dword × Reg)
  fctl : Dword
  fflags : Dword
  tcause : Dword
  tpc : Dword
  tval : Dword
  rpidx : Dword
  /-- lane draw counters (R154) -/
  draws : Vector Word 32
  intrap : Bool
  /-- resume index of R116 -/
  resume : Nat
  /-- repeat about to execute of the bundle at pc, and the words of the bundle under way (R126) -/
  rep : Nat
  bundle : List Word
  wait : Wait
  /-- halted by the debugger (R342) -/
  halted : Bool
  /-- a STEP is under way; true for mode trap (R343) -/
  step : Option Bool
  /-- address of the bundle being stepped (R281) -/
  stepPc : Dword
  /-- the next bundle checks no breakpoint or watchpoint (R340) -/
  noCheck : Bool
  /-- being pre-empted or evicted (R284) -/
  leaving : Bool
  /-- unfinished-lane mask and the bundle it belongs to (R265, R267) -/
  unfin : Word
  unfinPc : Dword
  /-- the partly performed store has debited for a CLAMP (R305) -/
  clamped : Bool
  /-- the partly performed bundle that trapped (R267) -/
  kept : Option Kept
  /-- page addresses the group waits for, and whether each is in the cellar (R265, R266) -/
  missing : List (Dword × Bool)
  /-- pages walked for the bundle being issued: page, outcome code, as the walks left them (R265) -/
  walked : List (Dword × Nat)
  /-- pages reported unresolvable, by first address and size, for the bundle to raise MEMFAULT on (R267, R270) -/
  givenUp : List (Dword × Nat)
  flights : List Flight
  nextFlight : Nat
  nextSeq : Nat
  /-- open batch number and the group's batches, open, closed or unreported (R241 to R243) -/
  batchNum : Nat
  batches : List Batch
  lastErr : Nat
  /-- binding of BOARR: object and generation (R374) -/
  binding : Option (Nat × Nat)
  chunk : Chunk
  runAhead : Option RunAhead
  /-- registers whose stored word holds an error (R90) -/
  regMarks : List RegMark
  /-- cycle at which it last issued or became ready (R78) -/
  age : Nat
  /-- first cycle in which it may issue again after a YIELD (R519) -/
  skip : Nat
  /-- its place among the core's groups parked for request slots; 0 when it is not (R188) -/
  queued : Nat
  /-- issue cycles parked in its wait (R49) -/
  parked : Nat
  deriving DecidableEq, Repr

/-- The group in an unused slot: every register of R81 reads zero but p0. -/
def Group.idle : Group :=
  { used := false, ctx := 0, crew := 0, index := 0, scrw := 0, sx := Vector.replicate 8 0, arg := 0, spad := 0,
    ordinal := 0, pc := 0, em := 0, live := 0, preds := (Vector.replicate 8 0).set 0 0xFFFFFFFF, av := 0, as := 0,
    vregs := [], sregs := [], vb := 0, sb := 0, vlow := 0, slow := 0, ofile := Vector.replicate 16 Lanes.zero,
    hfile := Vector.replicate 8 Lanes.zero, pend := [], issued := Vector.replicate 16 0,
    counted := Vector.replicate 16 0, partLoad := none, owed := [], due := [], links := [], fctl := 0, fflags := 0, tcause := 0, tpc := 0, tval := 0, rpidx := 0,
    draws := Vector.replicate 32 0, intrap := false, resume := 0, rep := 0, bundle := [], wait := Wait.none, halted := false,
    step := none, stepPc := 0, noCheck := false, leaving := false, unfin := 0, unfinPc := 0, clamped := false, kept := none, missing := [],
    walked := [], givenUp := [], flights := [], nextFlight := 0, nextSeq := 0, batchNum := 0, batches := [], lastErr := 0,
    binding := none, chunk := Chunk.new, runAhead := none,
    regMarks := [], age := 0, skip := 0, queued := 0, parked := 0 }

/-- A scratchpad tile: owner state code (R190) and the crew that holds it. -/
structure Tile where
  held : Bool
  crew : Nat
  ctx : Nat
  owner : Nat
  deriving DecidableEq, Repr

def Tile.free : Tile := { held := false, crew := 0, ctx := 0, owner := 0 }

/-- A barrier object (R196). -/
structure BarObj where
  held : Bool
  ctx : Nat
  gen : Nat
  arrived : Nat
  expect : Nat
  deriving DecidableEq, Repr

def BarObj.free : BarObj := { held := false, ctx := 0, gen := 0, arrived := 0, expect := 0 }

/-- A spawn bin or a launch-buffer entry (R66 to R69): key, arguments deposited in order, core cycle of the first deposit, and the
cause of a closed bin that waits for the buffer. A core lists its bins, and its buffer entries, oldest first. -/
structure Bin where
  ctx : Nat
  entry : Dword
  args : List Word
  /-- configuration word when it closed (R368) -/
  cfg : Dword
  /-- core cycle of the first deposit; a bin that has come back from elsewhere may have begun before cycle 0 (R68, R70) -/
  start : Int
  /-- 0 open; 1 + cause once closed (R323) -/
  closing : Nat
  index : Nat
  deriving DecidableEq, Repr

/-- A request waiting at a deque (R73). -/
structure DqReq where
  gid : Nat
  /-- 0 push, 1 pop, 2 steal -/
  op : Nat
  val : Dword
  /-- cycle of the deque's core in which it arrived -/
  since : Nat
  deriving DecidableEq, Repr

/-- A TLB or walk result: the leaf that serves a page (R257, R262). -/
structure TlbEntry where
  ctx : Nat
  /-- first address and size in bytes of the range the leaf maps -/
  base : Nat
  size : Nat
  pte : Dword
  deriving DecidableEq, Repr

/-- A walk-cache entry: a table entry of levels 3 to 1 (R262). -/
structure WalkEntry where
  ctx : Nat
  level : Nat
  idx : Nat
  pte : Dword
  deriving DecidableEq, Repr

/-- A page walk under way (R264, R275). -/
structure Walk where
  id : Nat
  ctx : Nat
  core : Nat
  page : Dword
  /-- the groups that wait for it -/
  gids : List Nat
  /-- shoot-down sequence number when it started -/
  seq : Nat
  /-- started by run-ahead (R276) -/
  quiet : Bool
  /-- one of the cluster's 32 walkers has it; else it waits for one (R264) -/
  begun : Bool
  deriving DecidableEq, Repr

/-- Engine commands (R229). -/
inductive CmdOp where
  | g2s | s2g | s2s | x | gthr | coll | fsend
  | mma (f : MatPair)
  | mmab (f : MatPair)
  deriving DecidableEq, Repr

/-- The command is a matrix operation. -/
def CmdOp.matrix : CmdOp → Bool
  | .mma _ => true
  | .mmab _ => true
  | _ => false

/-- An engine command in a queue or running. -/
structure Cmd where
  id : Nat
  gid : Nat
  ctx : Nat
  batch : Nat
  op : CmdOp
  a : Dword
  b : Dword
  e : Dword
  /-- 16-byte granules or rows landed; for COLL the number of its collective (R253) -/
  landed : List Nat
  /-- tiles used, as core * 128 + tile, and those it writes -/
  tiles : List Nat
  status : Nat
  /-- it has stopped or has nothing more to land; only its completion is outstanding -/
  ended : Bool
  /-- budget already debited by an outcome of R297, and by a CLAMP of R305 -/
  debited : Bool
  clamped : Bool
  /-- FSEND: 0 wants a credit, 1 granted, 2 accepted and sent, 3 delivered; COLL: phases completed -/
  phase : Nat
  /-- FSEND: the message; COLL: the communicator entry as read at issue (R357) -/
  msg : List Byte
  /-- a page holds it: fault number + 1 (R234) -/
  held : Nat
  /-- launch and crew of the group that issued it: the unit's release waits for it (R33) -/
  work : Option (Nat × Nat)
  deriving DecidableEq, Repr

/-- A breakpoint pair and a watchpoint triple (R338, R340). -/
structure BreakReg where
  bpa : Dword
  bpc : Dword
  deriving DecidableEq, Repr

structure WatchReg where
  wpa : Dword
  wpl : Dword
  wpc : Dword
  deriving DecidableEq, Repr

/-- A command in a core's debug unit (R344, R541): the eight doublewords, and who sent it: a tenant by host I/O addresses, or a
context by virtual addresses. -/
structure DbgCmd where
  msg : Vector Dword 8
  host : Bool
  tenant : Nat
  ctx : Nat
  /-- HALT and STEP: the groups still to halt; the command has begun -/
  waiting : List Nat
  begun : Bool
  deriving DecidableEq, Repr

/-- Where SETEV sends halt events (R344, R345). -/
structure EvAddr where
  addr : Dword
  host : Bool
  tenant : Nat
  ctx : Nat
  deriving DecidableEq, Repr

/-- A bound register (R302). -/
structure Bound where
  base : Dword
  limit : Dword
  low : Word
  high : Word
  fmt : Nat
  action : Nat
  space : Nat
  valid : Bool
  deriving DecidableEq, Repr

def Bound.clear : Bound := { base := 0, limit := 0, low := 0, high := 0, fmt := 0, action := 0, space := 0, valid := false }

/-- A core (R6, R12). Tables are sparse with the defaults of Machine/Sparse.lean. -/
structure Core where
  /-- core cycles since reset (R438) -/
  cycles : Nat
  /-- unavailable after a failed self-test (R9) -/
  unavailable : Bool
  /-- contexts in residency slots 0 to 3 (R59) -/
  resident : Vector (Option Nat) 4
  /-- residency slot of the turn and its remaining cycles (R76) -/
  turn : Nat
  turnLeft : Nat
  /-- slot each scheduler picked last, the first cycle in which it may issue again, and 1 + the cycle that a partial write took (R78,
  R79) -/
  picked : Vector Nat 2
  busy : Vector Nat 2
  rmw : Vector Nat 2
  /-- groups parked for request slots so far (R188) -/
  parks : Nat
  /-- scratchpad format (R58) -/
  format : Cls
  tiles : SMap Tile
  bars : SMap BarObj
  /-- barrier objects to restore: index, saved object (R198) -/
  barsBack : List (Nat × BarObj)
  /-- engine arrivals held for an object to be restored: index, context (R198) -/
  heldArr : List (Nat × Nat)
  /-- mapping entries: doublewords 0 and 1 (R199) -/
  maps : SMap (Dword × Dword)
  bins : List Bin
  buffer : List Bin
  /-- copies of the bound registers of the resident contexts, by context (R465) -/
  bounds : SMap (Vector Bound 16)
  /-- bin configurations: context, entry address, word (R368) -/
  binCfg : List (Nat × Dword × Dword)
  /-- deque contents, top first, its holder, and waiting requests (R71) -/
  deque : List Dword
  dqHolder : Option Nat
  dqReqs : List DqReq
  cmds : List Cmd
  nextCmd : Nat
  /-- batches of ended groups: the number their commands carry as gid, context, ordinal, batch (R398) -/
  orphans : List (Nat × Nat × Nat × Batch)
  breaks : SMap BreakReg
  watches : SMap WatchReg
  derr : Dword
  setev : Option EvAddr
  dbg : List DbgCmd
  /-- counters of R337 by 16 * residency slot + n -/
  counters : SMap Dword
  /-- sampling exponent k and the slot each scheduler sampled last (R333) -/
  sampleK : Nat
  sampled : Vector Nat 2
  /-- cycle count at its last sample -/
  sampledAt : Nat
  l1tlb : List TlbEntry
  /-- mirrors of matrix issue: an operation of this pair (leader core) runs (R238) -/
  matrixBusy : Bool
  matrixNarrow : Bool
  /-- issue cycles of each residency slot since its last progress eviction (R49) -/
  sinceEvict : Vector Nat 4
  deriving DecidableEq, Repr

/-- A core right after reset. -/
def Core.idle : Core :=
  { cycles := 0, unavailable := false, resident := Vector.replicate 4 none, turn := 0, turnLeft := 0,
    picked := Vector.replicate 2 11, busy := Vector.replicate 2 0, rmw := Vector.replicate 2 0, parks := 0, format := .p,
    tiles := [], bars := [], barsBack := [], heldArr := [], maps := [],
    bins := [], buffer := [], bounds := [], binCfg := [], deque := [], dqHolder := none, dqReqs := [], cmds := [], nextCmd := 0, orphans := [],
    breaks := [], watches := [], derr := 0, setev := none, dbg := [], counters := [], sampleK := 20,
    sampled := Vector.replicate 2 11, sampledAt := 0, l1tlb := [], matrixBusy := false, matrixNarrow := false, sinceEvict := Vector.replicate 4 0 }

/-- A 64-byte sector in a cluster's L2 (R174, R219): bytes held valid, bytes written and not written back, poison, an
injected error that strikes at its next read, and the owner tag of a dirty sector (R308). -/
structure Sector where
  data : BitVec 512
  valid : Dword
  written : Dword
  poison : Bool
  /-- 0 none, 1 correctable, 2 uncorrectable (R312) -/
  mark : Nat
  owner : Nat
  /-- virtual address of its first byte as last written; 0 when not known (R310, R533) -/
  va : Nat
  /-- prefetched in run-ahead and not yet read by a demand access (R207) -/
  ahead : Bool
  /-- L3 hint of the page it was last reached through (R180) -/
  hint : Nat
  deriving DecidableEq, Repr

def Sector.empty : Sector :=
  { data := 0, valid := 0, written := 0, poison := false, mark := 0, owner := 0, va := 0, ahead := false, hint := 0 }

/-- A cluster: L2, second-level TLB, walk cache, walkers (R174, R262, R264). -/
structure Cluster where
  l2 : SMap Sector
  /-- sectors held in each core's L1, by core of the cluster: location / 64, the one used last first (R174) -/
  l1 : SMap (List Nat)
  l2tlb : List TlbEntry
  wcache : List WalkEntry
  walks : List Walk
  /-- marks armed by INJECT with DIRTY: sector, uncorrectable (R531) -/
  armed : List (Nat × Bool)
  /-- ways locked in an L2 set (R309) -/
  locked : SMap Nat
  deriving DecidableEq, Repr

def Cluster.empty : Cluster := { l2 := [], l1 := [], l2tlb := [], wcache := [], walks := [], armed := [], locked := [] }

/-- A context: its descriptor (R277) and what the device keeps for it. -/
structure Ctx where
  used : Bool
  ptroot : Dword
  tvec : Dword
  attb : Dword
  atts : Nat
  tenant : Nat
  encl : Bool
  spapb : Dword
  saveb : Dword
  sfirst : Nat
  scount : Nat
  evslots : Nat
  errbud : Word
  commp : Dword
  /-- enclave policy: RECORD, TRACE, DEBUG (R360) -/
  policy : BitVec 3
  bounds : Vector Bound 16
  /-- next collective number of a communicator at a rank, by comm * 1024 + core (R253) -/
  collNum : SMap Nat
  /-- collectives that failed, as communicator and number: a member that joins one later meets the same status (R253) -/
  collBad : List (Nat × Nat)
  /-- digests of SEALIN, in order (R359) -/
  digests : List (List Byte)
  /-- sectors' minor counters and exhaustion of its enclave region (R358) -/
  exhausted : Bool
  /-- what a context that left a core keeps for it: deque contents, barrier objects by core and index, mapping entries by
  core and entry (R43, R198, R202) -/
  dequeBack : List (Nat × List Dword)
  barsAway : List (Nat × Nat × BarObj)
  mapsBack : List (Nat × Nat × Dword × Dword)
  /-- COLL commands stopped by a pre-emption, and bins and launch-buffer entries (true) with their elapsed counts, by core (R70, R235) -/
  collAway : List (Nat × Cmd)
  binsAway : List (Nat × Bool × Bin)
  /-- physical address of the descriptor, the home of ERRBUD (R299) -/
  descr : Nat
  /-- the descriptor as CREATE read it, which attestation measures (R360) -/
  bytes : List Byte
  deriving DecidableEq, Repr

/-- A context number that names no context. -/
def Ctx.none : Ctx :=
  { used := false, ptroot := 0, tvec := 0, attb := 0, atts := 0, tenant := 0, encl := false, spapb := 0, saveb := 0,
    sfirst := 0, scount := 0, evslots := 0, errbud := 0, commp := 0, policy := 0,
    bounds := Vector.replicate 16 Bound.clear, collNum := [], collBad := [], digests := [], exhausted := false, dequeBack := [],
    barsAway := [], mapsBack := [], collAway := [], binsAway := [], descr := 0, bytes := [] }

/-- A submission queue (R52) with the launch that its last entry became (R55). -/
structure SubQueue where
  qbase : Dword
  qctl : Dword
  qtail : Dword
  qhead : Dword
  /-- launch of the last entry since EN was set; none when it was skipped or there is none -/
  last : Option Nat
  deriving DecidableEq, Repr

def SubQueue.reset : SubQueue := { qbase := 0, qctl := 0, qtail := 0, qhead := 0, last := none }

/-- Fault and error ring registers (R352). -/
structure Ring where
  rbase : Dword
  rlog2 : Dword
  rctl : Dword
  rwr : Dword
  rrd : Dword
  rstat : Dword
  /-- next record sequence number or TAG -/
  seq : Nat
  deriving DecidableEq, Repr

def Ring.reset : Ring := { rbase := 0, rlog2 := 0, rctl := 0, rwr := 0, rrd := 0, rstat := 0, seq := 0 }

/-- Sample and debug ring registers (R335, R540). -/
structure SRing where
  sbase : Dword
  slog2 : Dword
  sen : Dword
  swr : Dword
  srd : Dword
  /-- records or events dropped since the last LOST -/
  lost : Nat
  deriving DecidableEq, Repr

def SRing.reset : SRing := { sbase := 0, slog2 := 0, sen := 0, swr := 0, srd := 0, lost := 0 }

/-- A record or replay session slot (R313): its registers, then what the recorders hold. -/
structure Session where
  lbase : Dword
  lsize : Dword
  lctl : Dword
  lwr : Dword
  lrd : Dword
  lstat : Dword
  lstop : Dword
  /-- EN was written 0 and the close is not done (R314) -/
  closing : Bool
  nonce : Dword
  /-- next order number of each cluster (R319) -/
  order : Vector Nat 12
  /-- launches admitted since the opening: the next launch number of the log (R323) -/
  admits : Nat
  /-- clusters that have written their first chunk record (R324) -/
  first : List Nat
  /-- records buffered by each recorder, oldest first; 12 is the hub (R326) -/
  bufs : Vector (List (List Byte)) 13
  /-- records dropped after a HORIZON (R327) -/
  dropped : Nat
  horizon : Bool
  /-- bytes written since the last SEAL (R332) -/
  unsealed : Nat
  /-- replay: records read from the ring and not yet consumed, in ring order (R328) -/
  log : List (List Byte)
  /-- replay: chunks of each cluster so far known to be in the cut of the armed stop, by order number (R330) -/
  cut : Vector Nat 12
  deriving DecidableEq, Repr

def Session.reset : Session :=
  { lbase := 0, lsize := 0, lctl := 0, lwr := 0, lrd := 0, lstat := 0, lstop := 0, closing := false, nonce := 0,
    order := Vector.replicate 12 0, admits := 0, first := [], bufs := Vector.replicate 13 [], dropped := 0, horizon := false,
    unsealed := 0, log := [], cut := Vector.replicate 12 0 }

/-- A tenant's virtual function (R349). -/
structure Tenant where
  queues : Vector SubQueue 8
  /-- addresses of pending commands, oldest first; CMDS.OVF and CMDS.ALIGN (R350) -/
  cmds : List Dword
  ovf : Bool
  align : Bool
  faultRing : Ring
  errorRing : Ring
  sessions : Vector Session 4
  /-- mailbox command registers (R541) -/
  mailbox : Vector Dword 8
  debugRing : SRing
  sampleRing : SRing
  tdi : Tdi
  /-- queue the dispatcher served last (R55) -/
  lastQueue : Nat
  /-- the notes and load segments of a core dump not yet copied to the host: type, or 2^32 + address (R346) -/
  dump : List (Nat × List Byte)
  deriving DecidableEq, Repr

def Tenant.reset : Tenant :=
  { queues := Vector.replicate 8 SubQueue.reset, cmds := [], ovf := false, align := false, faultRing := Ring.reset,
    errorRing := Ring.reset, sessions := Vector.replicate 4 Session.reset, mailbox := Vector.replicate 8 0,
    debugRing := SRing.reset, sampleRing := SRing.reset, tdi := .unlocked, lastQueue := 7, dump := [] }

/-- A level of a launch (R28, R35). -/
structure Level where
  extent : Nat
  domain : Nat
  scope : Nat
  nofence : Bool
  deriving DecidableEq, Repr

/-- An admitted, unfinished launch (R36 to R39, R55, R61). -/
structure Launch where
  ctx : Nat
  /-- tenant queue it came from; none for LAUNCH -/
  source : Option (Nat × Nat)
  notify : Bool
  record : Dword
  entry : Dword
  argp : Dword
  cls : Cls
  runahead : Bool
  recording : Bool
  pevict : Bool
  weight : Nat
  prio : Nat
  vregs : Nat
  sregs : Nat
  spad : Nat
  cfirst : Nat
  ccount : Nat
  boundp : Dword
  donep : Dword
  levels : List Level
  inq : Word
  outq : Word
  /-- 0 waits for INQ, 1 waits for BOUNDP, 2 places, 3 placed whole, 4 owes its completion word, 5 owes its OUTQ put,
  6 waits for a queue header's page, 8 submitted and not admitted -/
  stage : Nat
  /-- status and reason of the completion word -/
  status : Nat
  reason : Nat
  /-- next placement unit, and units evicted or pre-empted that wait to return -/
  next : Nat
  evicted : List Nat
  /-- C-die fixed by a unit of a DIE level: unit of the level, die (R63) -/
  dies : List (Nat × Nat)
  stuck : Nat
  /-- order in which it became reserved, 0 for not reserved (R64) -/
  reserved : Nat
  fresh : Bool
  /-- children ended, by level * 2^40 + unit; releases outstanding as level, unit (R33) -/
  ended : SMap Nat
  releases : List (Nat × Nat)
  retired : Nat
  /-- fault number + 1 that holds it -/
  held : Nat
  /-- its number in ADMIT and PLACE records (R323) -/
  logNo : Nat
  deriving DecidableEq, Repr

/-- A crew placed on a core (or away from it): launch (none when spawned), placement unit, index, groups. -/
structure Crew where
  ctx : Nat
  launch : Option Nat
  unit : Nat
  scrw : Nat
  core : Nat
  tile : Nat
  tiles : Nat
  /-- slots of its groups, in order of sx0; of a crew that is away, the numbers from 2^15 on under which they are kept -/
  gids : List Nat
  vregs : Nat
  sregs : Nat
  cls : Cls
  runahead : Bool
  weight : Nat
  /-- away from its core: 0 here, 1 pre-empted, 2 evicted, 3 pre-empted and called back; and the save-area slot (R278, R285) -/
  away : Nat
  slot : Nat
  /-- first group record of its image (R286) -/
  first : Nat
  deriving DecidableEq, Repr

/-- A reply or event that waits for its page (R345): OP or 0x81, the named core, and where it goes. -/
structure HeldWrite where
  what : Nat
  core : Nat
  ctx : Nat
  addr : Dword
  data : List Byte
  deriving DecidableEq, Repr

/-- A fault at a fault service unit (R269, R270). -/
structure FaultRec where
  ctx : Nat
  /-- first address and size of the page (R266, R269) -/
  page : Dword
  size : Nat
  kind : Nat
  pte : Dword
  why : Nat
  /-- 0 new, 1 expanding, 2 migrating in, 3 waits for migration, 4 held for the ring, 5 open in the ring -/
  stage : Nat
  tag : Nat
  /-- address of the slot or frame taken from the pool (R269) -/
  dst : Nat
  /-- groups that wait -/
  gids : List Nat
  deriving DecidableEq, Repr

/-- A shoot-down under way or completed (R274, R275). -/
structure Shoot where
  id : Nat
  ctx : Option Nat
  base : Nat
  size : Nat
  /-- the tenant whose command it is (R350) -/
  tenant : Option Nat
  /-- the shoot-down sequence number that it took -/
  seq : Nat
  deriving DecidableEq, Repr

/-- A page migration by firmware, whose shoot-down is under way or done (R272). -/
structure Migration where
  ctx : Nat
  page : Dword
  dst : Nat
  shoot : Nat
  deriving DecidableEq, Repr

/-- An L3 slice's second-touch filter, miss count, ageing exponent, lines held, and counters (R178, R179, R337). -/
structure Slice where
  filter : List Nat
  misses : Nat
  w : Nat
  lines : List Nat
  /-- sectors dirty in L3 and their owner tag plus 1 (R308) -/
  dirty : SMap Nat
  /-- ways locked by pinning and quarantine, by set (R307, R309) -/
  locked : SMap Nat
  corrected : Nat
  allocations : Nat
  clears : Nat
  deriving DecidableEq, Repr

def Slice.reset : Slice :=
  { filter := [], misses := 0, w := 16, lines := [], dirty := [], locked := [], corrected := 0, allocations := 0, clears := 0 }

/-- A token count at a location and who made the last request there, as a requester number plus 1 (R321). -/
structure Tok where
  count : BitVec 27
  last : Nat
  deriving DecidableEq, Repr

def Tok.zero : Tok := { count := 0, last := 0 }

/-- The counters of a 512-byte line of enclave memory: the 56-bit major counter and the 6-bit minor counter of each sector (R358). -/
structure EncLine where
  major : Nat
  minors : Vector Nat 8
  deriving DecidableEq, Repr

/-- A line whose counters have just been reset. -/
def EncLine.fresh : EncLine := { major := 0, minors := Vector.replicate 8 0 }

/-- An export-table entry (R356). -/
structure Export where
  wbase : Nat
  rbase : Nat
  len : Nat
  tenant : Nat
  valid : Bool
  deriving DecidableEq, Repr

def Export.unused : Export := { wbase := 0, rbase := 0, len := 0, tenant := 0, valid := false }

/-- A request waiting at a queue's home (R74, R75): a put with its entry, or a get with its destination, of group `gid`; or the
credit request of a fabric sender, whose `gid` is 2^20 + its device. -/
structure QueueReq where
  queue : Nat
  gid : Nat
  put : Bool
  entry : List Byte
  dest : Dword
  deriving DecidableEq, Repr

/-- The hub dies and the whole-device state. -/
structure Hub where
  /-- sdev (R354) -/
  device : BitVec 12
  /-- firmware verified and no cluster short of cores (R10, R361) -/
  up : Bool
  linkUp : Bool
  powered : Bool
  testMode : Bool
  /-- physical cores in the retirement list, 68 of each cluster, and those of them that the last reset knew (R7, R8) -/
  retiredCores : List Nat
  mappedCores : List Nat
  /-- frame formats (R292), frame owners plus 1 (R351), free page slots of the tenants' pools by address / 2^16 (R269, R350), retired
  slots (R309) -/
  formats : SMap Cls
  window : SMap Nat
  pool : List Nat
  retiredSlots : List Nat
  /-- tenant plus 1 that a context number is allotted to (R351) -/
  allot : SMap Nat
  /-- sectors and rows with the poison pattern, by location / 64 (R294) -/
  poison : List Nat
  /-- errors in stored sectors: location / 64 to 1 correctable or 2 uncorrectable, injected (R312), or 3, a detected error written (R309) -/
  marks : SMap Nat
  /-- errors injected into L3's copy of a sector, coded as those (R312) -/
  l3marks : SMap Nat
  /-- compressed images of cellar pages: image address to data bytes (R183) -/
  cellar : SMap (List Byte)
  /-- page slots, by address / 2^16, that an enclave context's leaf maps with ENC: the context plus 1; and the counters of their lines (R358) -/
  encPages : SMap Nat
  encLines : SMap EncLine
  slices : SMap Slice
  tokens : SMap Tok
  /-- lines granted for writing: line to cluster plus 1 (R320) -/
  grants : SMap Nat
  shootSeq : Word
  shoots : List Shoot
  shot : List Shoot
  nextShoot : Nat
  nextWalk : Nat
  faults : SMap FaultRec
  nextFault : Nat
  migrations : List Migration
  heldWrites : List HeldWrite
  queueReqs : List QueueReq
  launches : SMap Launch
  nextLaunch : Nat
  crews : SMap Crew
  nextCrew : Nat
  nextReserve : Nat
  /-- tenant the dispatcher served last (R55) -/
  lastTenant : Nat
  exports : SMap Export
  /-- ports taken down (R353) -/
  portsDown : List Nat
  /-- credits granted to remote senders: device, queue (R75) -/
  credits : List (Nat × Nat)
  /-- messages accepted by the ports: device, queue, core, command, and the cluster and order number of the sending group's last chunk
  (R331, R355) -/
  sent : List (Nat × Nat × Nat × Nat × Nat)
  /-- answers to peers: device or tenant, status, data -/
  peerReplies : List (Nat × Nat × Dword)
  /-- C-dies in narrowed mode, alarmed in this interval, and above 100 degrees (R15, R16, R20) -/
  narrowed : List Nat
  alarmed : List Nat
  hot : List Nat
  /-- narrowed dies that a full arbiter interval found without an alarm, and power events reported (R16, R18) -/
  clean : List Nat
  powerEvents : Nat
  matrixHold : Bool
  /-- milliwatts granted to the C-dies, the H-dies, HBM, fabric and PCIe, the regulators' losses and management, and the headroom held back (R13,
  R14) -/
  power : Vector Nat 7
  /-- lines that a mapping window registered at their L3 home: line to 8 * core + entry plus 1 (R180, R200) -/
  mapLines : SMap Nat
  /-- pins swapped: stack, channel, pin; sectors pinned (R306, R307) -/
  swaps : List (Nat × Nat × Nat)
  pinned : List Nat
  /-- corrected pin errors of each HBM stack (R337) -/
  pinErrors : SMap Nat
  /-- shared-frame table: page slot to mask of contexts (R309) -/
  shared : SMap Dword
  /-- management controller's log and MSI-X vectors raised: tenant, vector -/
  mcLog : List (List Byte)
  irqs : List (Nat × Nat)
  /-- core dumps copied out of their regions: tenant, image (R346) -/
  dumped : List (Nat × List (Nat × List Byte))
  /-- contexts to be terminated before the step ends, with the reason (R288, R309; the model's own) -/
  doomed : List (Nat × Nat)
  /-- next LMS leaf: reports signed so far (R360) -/
  reports : Nat
  deriving DecidableEq, Repr

/-- The power budget's split in milliwatts (R13): C-dies, H-dies, HBM, fabric and PCIe, regulator losses, management and security, and
the transient headroom that the arbiter holds. -/
def powerBudget : Vector Nat 7 := #v[8700000, 1600000, 1100000, 900000, 1600000, 100000, 1000000]

/-- The hub right after reset. -/
def Hub.reset : Hub :=
  { device := 0, up := true, linkUp := true, powered := true, testMode := false, retiredCores := [], mappedCores := [], formats := [],
    window := [], pool := [], retiredSlots := [], allot := [], poison := [], marks := [], l3marks := [], cellar := [], encPages := [], encLines := [], slices := [],
    tokens := [], grants := [], shootSeq := 0, shoots := [], shot := [], nextShoot := 0, nextWalk := 0, faults := [],
    nextFault := 0, migrations := [], heldWrites := [], queueReqs := [], launches := [], nextLaunch := 0, crews := [], nextCrew := 0,
    nextReserve := 0, lastTenant := 15, exports := [], portsDown := [], credits := [], sent := [], peerReplies := [],
    narrowed := [], alarmed := [], hot := [], clean := [], powerEvents := 0, matrixHold := false, power := powerBudget,
    mapLines := [], swaps := [], pinned := [], pinErrors := [], shared := [], mcLog := [],
    irqs := [], dumped := [], doomed := [], reports := 0 }

/-- Which agent moves next (log entry 1): a group issues its bundle; an event happens; a core passes n idle cycles; a cluster's L2 evicts
a line (R174); a register of a group suffers an error (R90); the homes apply what the log of a replaying context holds for them (R328). -/
inductive Move where
  | issue (gid : Nat)
  | ev (i : Instr)
  | idle (core : Nat) (n : Nat)
  | evict (cluster : Nat) (line : Nat)
  | strike (gid : Nat) (m : RegMark)
  | apply (ctx : Nat)
  deriving DecidableEq, Repr

/-- The machine. -/
structure State where
  /-- groups by slot number: 24 * core + 12 * scheduler + slot of the scheduler (R60); groups away from their cores from 2^15 on -/
  groups : SMap Group
  /-- checkpoints of groups in run-ahead (R203) -/
  checkpoints : SMap Group
  cores : SMap Core
  clusters : SMap Cluster
  ctxs : SMap Ctx
  tenants : SMap Tenant
  hub : Hub
  mem : Memory
  /-- the group whose bundle is being executed (the model's own, log entry 1) -/
  cur : Nat
  /-- moves to make before the default ones (the model's own, log entry 1) -/
  agenda : List Move
  /-- number of free values drawn so far (the model's own, log entry 7) -/
  fresh : Nat
  deriving DecidableEq, Repr

/-- The machine right after reset: no context, no launch, no group, empty caches and memory with nothing listed. -/
def State.reset : State :=
  { groups := [], checkpoints := [], cores := [], clusters := [], ctxs := [], tenants := [], hub := Hub.reset, mem := [],
    cur := 0, agenda := [], fresh := 0 }

end Sys2Proof.Machine
end

