-- ==== Sys2Proof/Machine/Sparse.lean ====
section
/-! DEFINITION. Sparse tables and memory: a list of keys, strictly rising, with no entry equal to the default; equal
tables are equal lists. -/

namespace Sys2Proof.Machine

/-- The entry at key k, or the default. -/
def SMap.look {α : Type} (m : SMap α) (k : Nat) (dflt : α) : α :=
  match m with
  | [] => dflt
  | (j, v) :: r => if j = k then v else if k < j then dflt else SMap.look r k dflt

/-- The entry at key k, when listed. -/
def SMap.find? {α : Type} (m : SMap α) (k : Nat) : Option α :=
  match m with
  | [] => none
  | (j, v) :: r => if j = k then some v else if k < j then none else SMap.find? r k

/-- The table without key k. -/
def SMap.del {α : Type} (m : SMap α) (k : Nat) : SMap α :=
  match m with
  | [] => []
  | (j, v) :: r => if j = k then r else if k < j then (j, v) :: r else (j, v) :: SMap.del r k

/-- The table with v listed at key k. -/
def SMap.ins {α : Type} (m : SMap α) (k : Nat) (v : α) : SMap α :=
  match m with
  | [] => [(k, v)]
  | (j, u) :: r => if j = k then (k, v) :: r else if k < j then (k, v) :: (j, u) :: r else (j, u) :: SMap.ins r k v

/-- The table that reads v at key k; the default is not listed. -/
def SMap.put {α : Type} [DecidableEq α] (m : SMap α) (k : Nat) (v dflt : α) : SMap α :=
  if v = dflt then SMap.del m k else SMap.ins m k v

/-- f applied to every listed entry; entries that become the default are dropped. -/
def SMap.mapAll {α : Type} [DecidableEq α] (f : α → α) (dflt : α) (m : SMap α) : SMap α :=
  (m.map fun e => (e.1, f e.2)).filter fun e => decide (e.2 ≠ dflt)

/-- Keys strictly rising from lo on, no entry equal to the default. -/
def SMap.wfFrom {α : Type} [DecidableEq α] (dflt : α) (lo : Nat) : SMap α → Bool
  | [] => true
  | (j, v) :: r => decide (lo ≤ j) && decide (v ≠ dflt) && SMap.wfFrom dflt (j + 1) r

/-- The canonical form of a table. -/
def SMap.wf {α : Type} [DecidableEq α] (dflt : α) (m : SMap α) : Bool := SMap.wfFrom dflt 0 m

/-- The canonical form of memory: addresses strictly rising, no listed zero (log entry 4). -/
def Memory.wf (m : Memory) : Bool := SMap.wf (0 : BitVec 8) m

/-- The byte at a location; an unlisted one reads 0 (log entry 4). -/
def Memory.byte (m : Memory) (a : Nat) : Byte := SMap.look m a 0

/-- One byte written. -/
def Memory.setByte (m : Memory) (a : Nat) (b : Byte) : Memory := SMap.put m a b 0

/-- n bytes from location a upwards. -/
def Memory.bytes (m : Memory) (a : Nat) : Nat → List Byte
  | 0 => []
  | n + 1 => Memory.byte m a :: Memory.bytes m (a + 1) n

/-- Bytes written from location a upwards. -/
def Memory.setBytes (m : Memory) (a : Nat) : List Byte → Memory
  | [] => m
  | b :: r => Memory.setBytes (Memory.setByte m a b) (a + 1) r

/-- x placed before the first element that it may precede. -/
def insertBy {α : Type} (le : α → α → Bool) (x : α) : List α → List α
  | [] => [x]
  | y :: r => if le x y then x :: y :: r else y :: insertBy le x r

/-- A list in order; elements of equal rank keep their order. -/
def sortBy {α : Type} (le : α → α → Bool) (l : List α) : List α := l.foldr (insertBy le) []

/-- Little-endian value of bytes (R3). -/
def leNat : List Byte → Nat
  | [] => 0
  | b :: r => b.toNat + 256 * leNat r

/-- The n low bytes of a value, lowest first (R3). -/
def leBytes (n : Nat) (v : Nat) : List Byte :=
  match n with
  | 0 => []
  | k + 1 => BitVec.ofNat 8 v :: leBytes k (v / 256)

/-- Little-endian value of n bytes at location a. -/
def Memory.le (m : Memory) (a n : Nat) : Nat := leNat (Memory.bytes m a n)

/-- A little-endian value of n bytes written at location a. -/
def Memory.setLe (m : Memory) (a n v : Nat) : Memory := Memory.setBytes m a (leBytes n v)

/-- Element i of a list, or the default. -/
def nth {α : Type} (l : List α) (i : Nat) (dflt : α) : α := l.getD i dflt

/-- The list with element i replaced. -/
def setNth {α : Type} (l : List α) (i : Nat) (v : α) : List α := l.set i v

/-- Element i of a vector, or the default beyond its end. -/
def vat {α : Type} {n : Nat} (v : Vector α n) (i : Nat) (dflt : α) : α := if h : i < n then v[i] else dflt

/-- The vector with element i replaced; unchanged beyond its end. -/
def vset {α : Type} {n : Nat} (v : Vector α n) (i : Nat) (x : α) : Vector α n := if h : i < n then v.set i x else v

/-- Bits [hi:lo] of a value. -/
def bitsN (v hi lo : Nat) : Nat := v / 2 ^ lo % 2 ^ (hi + 1 - lo)

/-- Bit i of a value. -/
def bitN (v i : Nat) : Bool := v / 2 ^ i % 2 == 1

/-- Bits [hi:lo] of a doubleword. -/
def dbits (v : Dword) (hi lo : Nat) : Nat := bitsN v.toNat hi lo

/-- v with bits [hi:lo] replaced by x. -/
def withBits (v : Dword) (hi lo : Nat) (x : Nat) : Dword :=
  let m : Dword := BitVec.ofNat 64 ((2 ^ (hi + 1 - lo) - 1) * 2 ^ lo)
  (v &&& ~~~m) ||| (BitVec.ofNat 64 (x * 2 ^ lo) &&& m)

/-- x rounded up to a multiple of m. -/
def roundUp (x m : Nat) : Nat := (x + m - 1) / m * m

/-- Lane i of a mask. -/
def lane? (m : Word) (i : Nat) : Bool := m.getLsbD i

/-- Lanes of a mask, rising. -/
def lanesOf (m : Word) : List Nat := (List.range 32).filter (lane? m)

/-- The mask of a predicate on lanes. -/
def maskOf (f : Nat → Bool) : Word := BitVec.ofNat 32 ((List.range 32).foldl (fun acc i => if f i then acc + 2 ^ i else acc) 0)

/-- A vector register from its lanes. -/
def lanesFn (f : Nat → Word) : Lanes := Vector.ofFn fun i => f i.val

end Sys2Proof.Machine
end

