-- ==== Sys2Proof/Machine/Access.lean ====
section
/-! DEFINITION. Reading and replacing parts of the state; the geometry of the device (R6, R60, R171, R176); error-log records
(R310, R352, R542). -/

namespace Sys2Proof.Machine

/-- The group in slot g. -/
def State.grp (s : State) (g : Nat) : Group := SMap.look s.groups g Group.idle

/-- The state with x in slot g. -/
def State.setGrp (s : State) (g : Nat) (x : Group) : State := { s with groups := SMap.put s.groups g x Group.idle }

/-- The state with f applied to slot g. -/
def State.onGrp (s : State) (g : Nat) (f : Group → Group) : State := s.setGrp g (f (s.grp g))

/-- The group whose bundle is executed. -/
def State.me (s : State) : Group := s.grp s.cur

/-- The state with f applied to the group whose bundle is executed. -/
def State.onMe (s : State) (f : Group → Group) : State := s.setGrp s.cur (f (s.grp s.cur))

/-- Core c. -/
def State.core (s : State) (c : Nat) : Core := SMap.look s.cores c Core.idle

/-- The state with x as core c. -/
def State.setCore (s : State) (c : Nat) (x : Core) : State := { s with cores := SMap.put s.cores c x Core.idle }

/-- The state with f applied to core c. -/
def State.onCore (s : State) (c : Nat) (f : Core → Core) : State := s.setCore c (f (s.core c))

/-- Cluster k. -/
def State.cluster (s : State) (k : Nat) : Cluster := SMap.look s.clusters k Cluster.empty

/-- The state with x as cluster k. -/
def State.setCluster (s : State) (k : Nat) (x : Cluster) : State :=
  { s with clusters := SMap.put s.clusters k x Cluster.empty }

/-- The state with f applied to cluster k. -/
def State.onCluster (s : State) (k : Nat) (f : Cluster → Cluster) : State := s.setCluster k (f (s.cluster k))

/-- Context c. -/
def State.ctx (s : State) (c : Nat) : Ctx := SMap.look s.ctxs c Ctx.none

/-- The state with x as context c. -/
def State.setCtx (s : State) (c : Nat) (x : Ctx) : State := { s with ctxs := SMap.put s.ctxs c x Ctx.none }

/-- The state with f applied to context c. -/
def State.onCtx (s : State) (c : Nat) (f : Ctx → Ctx) : State := s.setCtx c (f (s.ctx c))

/-- Tenant t. -/
def State.tenant (s : State) (t : Nat) : Tenant := SMap.look s.tenants t Tenant.reset

/-- The state with x as tenant t. -/
def State.setTenant (s : State) (t : Nat) (x : Tenant) : State :=
  { s with tenants := SMap.put s.tenants t x Tenant.reset }

/-- The state with f applied to tenant t. -/
def State.onTenant (s : State) (t : Nat) (f : Tenant → Tenant) : State := s.setTenant t (f (s.tenant t))

/-- The state with f applied to the hub. -/
def State.onHub (s : State) (f : Hub → Hub) : State := { s with hub := f s.hub }

/-- The state with memory m. -/
def State.setMem (s : State) (m : Memory) : State := { s with mem := m }

/-- A free value for an open point, and the state that has drawn it (log entry 7). -/
def State.draw (s : State) : Dword × State := (Config.free s.fresh, { s with fresh := s.fresh + 1 })

/-- The logical core of a slot (R60). -/
def coreOf (g : Nat) : Nat := g / 24

/-- The slot of its core, 0 to 23. -/
def slotOf (g : Nat) : Nat := g % 24

/-- The cluster of a core (R6). -/
def cluOf (core : Nat) : Nat := core / 64

/-- The C-die of a core (R6). -/
def dieOf (core : Nat) : Nat := core / 128

/-- The 24 slots of a core. -/
def slotsOf (core : Nat) : List Nat := (List.range 24).map (24 * core + ·)

/-- Every group: in slots, and away from its core. -/
def State.gidsAll (s : State) : List Nat := (s.groups.filter (·.2.used)).map (·.1)

/-- Slots that hold a group. -/
def State.gids (s : State) : List Nat := s.gidsAll.filter (· < 18432)

/-- Slots of a core that hold a group. -/
def State.gidsOn (s : State) (core : Nat) : List Nat := s.gids.filter (coreOf · == core)

/-- The groups of context c, in slots and away. -/
def State.gidsCtx (s : State) (c : Nat) : List Nat := s.gidsAll.filter fun g => (s.grp g).ctx == c

/-- First memory location of the scratchpads (R171; the model's own numbering). -/
def spadBase : Nat := 2 ^ 52

/-- The location of byte `off` of core's scratchpad. -/
def spadLoc (core off : Nat) : Nat := spadBase + core * 2 ^ 19 + off

/-- The location that a cluster scratchpad address names in cluster k (R171). -/
def spadOf (k a : Nat) : Nat := spadBase + k * 2 ^ 25 + a

/-- Usable bytes of a scratchpad by format (R189, R298). -/
def usable : Cls → Nat
  | .p => 393216
  | .d => 430080
  | .u => 442368

/-- First location of host memory (R170); a host I/O address is an offset from it (log entry 17). -/
def hostBase : Nat := 2 ^ 50

/-- The location of a host I/O address. -/
def hostLoc (a : Nat) : Nat := hostBase + a % 2 ^ 50

/-- The location is local HBM raw storage (R170). -/
def isLocal (loc : Nat) : Bool := decide (loc < 0xC000000000)

/-- The location is host memory. -/
def isHost (loc : Nat) : Bool := decide (2 ^ 50 ≤ loc) && decide (loc < 2 ^ 51)

/-- The location is in a pod peer's window. -/
def isPeer (loc : Nat) : Bool := decide (2 ^ 51 ≤ loc) && decide (loc < 2 ^ 52)

/-- The location is a scratchpad byte. -/
def isSpad (loc : Nat) : Bool := decide (2 ^ 52 ≤ loc)

/-- Home slice of a local line (R176). -/
def sliceOf (loc : Nat) : Nat := loc / 512 % 96

/-- HBM stack of a local line, and its index among the stack's lines (R176). -/
def stackOf (loc : Nat) : Nat := sliceOf loc / 8
def stackLine (loc : Nat) : Nat := loc / 512 / 96 * 8 + sliceOf loc % 8

/-- Pseudo-channel of a local line in its stack: channel, and pseudo-channel within it (R176). -/
def pseudoChannel (loc : Nat) : Nat × Nat := (stackLine loc % 512 / 16, stackLine loc % 512 % 16)

/-- The class code of a frame or kernel (R34, R257, R310). -/
def clsCode : Cls → Nat
  | .p => 0
  | .d => 1
  | .u => 2

/-- The class of a code. -/
def clsOf : Nat → Cls
  | 0 => .p
  | 1 => .d
  | _ => .u

/-- The scope of a code (R29). -/
def scopeNat : Nat → Scope
  | 0 => .grp
  | 1 => .core
  | 2 => .clu
  | 3 => .pkg
  | _ => .sys

/-- The code of a scope (R29). -/
def scopeOrd : Scope → Nat
  | .grp => 0
  | .core => 1
  | .clu => 2
  | .pkg => 3
  | .sys => 4

/-- The scope reaches beyond the cluster (R219). -/
def wideScope (x : Scope) : Bool := decide (3 ≤ scopeOrd x)

/-- Lanes on which the group's vector instructions act (R22). -/
def Group.act (g : Group) : Word := g.em &&& g.live

/-- The address is canonical (R169). -/
def canonical (a : Dword) : Bool := a == (a.truncate 56).signExtend 64

/-- Raise an MSI-X vector of a tenant (R347). -/
def State.irq (s : State) (t vec : Nat) : State := s.onHub fun h => { h with irqs := h.irqs ++ [(t, vec)] }

/-- An error-log record before its SEQ is known (R310). -/
structure ErrRec where
  addr : Nat
  va : Nat
  ctx : Nat
  kind : Nat
  cls : Nat
  unit : Nat
  detail : Nat
  lanes : Nat
  deriving DecidableEq, Repr

/-- The 32 bytes of an error-log record (R310). -/
def ErrRec.bytes (r : ErrRec) (seq : Nat) : List Byte :=
  leBytes 8 r.addr ++ leBytes 8 r.va ++ leBytes 2 r.ctx ++ leBytes 1 r.kind ++ leBytes 1 r.cls ++ leBytes 2 r.unit ++
    leBytes 2 r.detail ++ leBytes 4 seq ++ leBytes 4 r.lanes

/-- Ring size in bytes. -/
def Ring.size (r : Ring) : Nat := 2 ^ (dbits r.rlog2 5 0)

/-- Room for n more records (R352). -/
def Ring.fits (r : Ring) (n : Nat) : Bool :=
  r.rctl.getLsbD 0 && decide (r.rwr.toNat + 32 * n - r.rrd.toNat ≤ r.size)

/-- One 32-byte record written at the ring's next place (R352). -/
def Ring.write (r : Ring) (m : Memory) (b : List Byte) : Ring × Memory :=
  ({ r with rwr := r.rwr + 32, seq := r.seq + 1 },
   Memory.setBytes m (hostLoc (r.rbase.toNat / 4096 * 4096 + r.rwr.toNat % r.size)) b)

/-- Append a record to a tenant's error ring; a full or disabled ring counts it in LOST, and the next record that fits follows
a record of kind 0x0F with the count (R352). -/
def State.errTo (s : State) (t : Nat) (rec : ErrRec) : State :=
  let tn := s.tenant t
  let r := tn.errorRing
  let lost := dbits r.rstat 31 0
  let need := if lost = 0 then 1 else 2
  if r.fits need then
    let (r1, m1) := if lost = 0 then (r, s.mem) else
      let (r', m') := r.write s.mem
        (ErrRec.bytes { addr := lost, va := 0, ctx := 0xFFFF, kind := 0x0F, cls := 0, unit := 0, detail := 0, lanes := 0 } r.seq)
      ({ r' with rstat := withBits r'.rstat 31 0 0 }, m')
    let (r2, m2) := r1.write m1 (rec.bytes r1.seq)
    ((s.setTenant t { tn with errorRing := r2 }).setMem m2).irq t (dbits r.rctl 26 16)
  else
    s.setTenant t { tn with errorRing := { r with rstat := withBits r.rstat 31 0 (lost + 1) } }

/-- Append an error-log record for a context, for tenant k by the number 64 + k, or to the management controller's log without either (none, or a
number from 80 on) (R310). -/
def State.err (s : State) (c : Option Nat) (rec : ErrRec) : State :=
  match c with
  | some k =>
    if 64 ≤ k && decide (k < 80) then s.errTo (k - 64) rec
    else if decide (k < 64) && (s.ctx k).used then s.errTo (s.ctx k).tenant rec else s.onHub fun h => { h with mcLog := h.mcLog ++ [rec.bytes 0] }
  | none => s.onHub fun h => { h with mcLog := h.mcLog ++ [rec.bytes 0] }

/-- The record with these leading fields and the rest zero. -/
def ErrRec.mk4 (kind ctx addr va : Nat) : ErrRec :=
  { addr := addr, va := va, ctx := ctx, kind := kind, cls := 0, unit := 0, detail := 0, lanes := 0 }

/-- Count n on a context's counter of a core (R337). -/
def State.bump (s : State) (core c n : Nat) (by_ : Nat) : State :=
  match (List.range 4).find? fun i => vat (s.core core).resident i none == some c with
  | none => s
  | some slot => s.onCore core fun k =>
      { k with counters := SMap.put k.counters (16 * slot + n) (SMap.look k.counters (16 * slot + n) 0 + BitVec.ofNat 64 by_) 0 }

end Sys2Proof.Machine
end

