-- ==== Sys2Proof/Machine/Record.lean ====
section
/-! DEFINITION. Sessions, records, order tokens, chunks and the replay of values and traps (R313 to R331). -/

namespace Sys2Proof.Machine

/-- EN of a session slot (R313). -/
def Session.en (x : Session) : Bool := x.lctl.getLsbD 0

/-- MODE of a session slot: true for replay. -/
def Session.replay (x : Session) : Bool := x.lctl.getLsbD 1

/-- The open session of a context: tenant and slot (R313). -/
def State.session? (s : State) (c : Nat) : Option (Nat × Nat) :=
  let t := (s.ctx c).tenant
  ((List.range 4).find? fun k =>
    let x := vat (s.tenant t).sessions k Session.reset
    x.en && (dbits x.lctl 15 10 == c)).map fun k => (t, k)

/-- Session slot k of tenant t. -/
def State.sess (s : State) (t k : Nat) : Session := vat (s.tenant t).sessions k Session.reset

/-- The state with f applied to a session slot. -/
def State.onSess (s : State) (t k : Nat) (f : Session → Session) : State :=
  s.onTenant t fun x => { x with sessions := vset x.sessions k (f (vat x.sessions k Session.reset)) }

/-- The slot when the context records and its session is not closing (R314). -/
def State.recording? (s : State) (c : Nat) : Option (Nat × Nat) :=
  (s.session? c).filter fun (t, k) => !(s.sess t k).replay && !(s.sess t k).closing

/-- The slot when the context replays. -/
def State.replaying? (s : State) (c : Nat) : Option (Nat × Nat) :=
  (s.session? c).filter fun (t, k) => (s.sess t k).replay

/-- A record of n bytes from its kind, cluster and fields (R322, R323); a field is its lowest bit, width and value. -/
def mkRec (kind n clu : Nat) (fields : List (Nat × Nat × Nat)) : List Byte :=
  leBytes n (clu % 16 * 4 + (n / 8 - 1) * 64 + kind * 2048 + fields.foldl (fun acc (lo, w, v) => acc + v % 2 ^ w * 2 ^ lo) 0)

/-- CORE and SLOT of a group's records (R323). -/
def recWho (g : Nat) : List (Nat × Nat × Nat) := [(16, 6, coreOf g % 64), (22, 5, slotOf g)]

/-- Append a record to a recorder's buffer: clusters 0 to 11, or 12 for the hub (R326). -/
def State.addRec (s : State) (c unit : Nat) (r : List Byte) : State :=
  match s.recording? c with
  | none => s
  | some (t, k) => s.onSess t k fun x => { x with bufs := vset x.bufs unit (vat x.bufs unit [] ++ [r]) }

/-- A record of the hub (CLU 15). -/
def State.hubRec (s : State) (c kind n : Nat) (fields : List (Nat × Nat × Nat)) : State := s.addRec c 12 (mkRec kind n 15 fields)

/-- A record of group g's cluster. -/
def State.grpRec (s : State) (g kind n : Nat) (fields : List (Nat × Nat × Nat)) : State :=
  s.addRec (s.grp g).ctx (cluOf (coreOf g)) (mkRec kind n (cluOf (coreOf g)) (recWho g ++ fields))

/-- The number a little-endian record holds in bits [lo + w - 1 : lo]. -/
def recField (r : List Byte) (lo w : Nat) : Nat := leNat r / 2 ^ lo % 2 ^ w

/-- The kind of a record. -/
def recKind (r : List Byte) : Nat := recField r 11 5

/-- The cluster of a record. -/
def recClu (r : List Byte) : Nat := recField r 2 4

/-- Halt every group of a context (R329, R330). -/
def State.haltCtx (s : State) (c : Nat) : State :=
  (s.gidsCtx c).foldl (fun st g => st.onGrp g fun x => { x with halted := true }) s

/-- Divergence: the context halts, DIVERGE and CODE are set (R329). -/
def State.diverge (s : State) (c code : Nat) : State :=
  match s.replaying? c with
  | none => s
  | some (t, k) =>
    if (s.sess t k).lstat.getLsbD 2 then s else
      (s.haltCtx c).onSess t k fun x => { x with lstat := withBits (withBits x.lstat 15 8 code) 2 2 1 }

/-- The first record in the replay log that a test accepts, and the log without it. -/
def takeRec (p : List Byte → Bool) : List (List Byte) → Option (List Byte × List (List Byte))
  | [] => none
  | r :: l => if p r then some (r, l) else (takeRec p l).map fun (x, m) => (x, r :: m)

/-- The record belongs to group g. -/
def recIs (kind g : Nat) (r : List Byte) : Bool :=
  recKind r == kind && recClu r == cluOf (coreOf g) && recField r 16 6 == coreOf g % 64 && recField r 22 5 == slotOf g

/-- The first record that a test accepts among those of group g's next chunk, which come before its chunk record, and the log without
it (R324). -/
def takeMine (g : Nat) (p : List Byte → Bool) : List (List Byte) → Option (List Byte × List (List Byte))
  | [] => none
  | r :: l =>
    if recIs 0x01 g r || recIs 0x02 g r then none
    else if p r then some (r, l) else (takeMine g p l).map fun (x, m) => (x, r :: m)

/-- A value read across a crossing: logged in record, taken from the log in replay (R316, R328 step 4). -/
def State.crossing (s : State) (g src : Nat) (live : Dword) : Dword × State :=
  match s.replaying? (s.grp g).ctx with
  | some (t, k) =>
    match takeMine g (fun r => recIs 0x04 g r && recField r 27 4 == src) (s.sess t k).log with
    | some (r, l) => (BitVec.ofNat 64 (recField r 64 64), s.onSess t k fun x => { x with log := l })
    | none => (live, s.diverge (s.grp g).ctx 0x03)
  | none => (live, s.grpRec g 0x04 16 [(27, 4, src), (64, 64, live.toNat)])

/-- Who makes a request at a home (R321). -/
inductive Asker where
  | group (g : Nat)
  | engine (core : Nat)
  /-- a core on its own account -/
  | core (core : Nat)
  | host
  | peer (dev : Nat)
  deriving DecidableEq, Repr

/-- The number a home keeps for its last request. -/
def Asker.num : Asker → Nat
  | .group g => 1 + cluOf (coreOf g)
  | .engine c => 1000 + c
  | .core c => 1 + cluOf c
  | .host => 20
  | .peer d => 2000 + d

/-- The previous request came from another cluster, another device, the host or an engine of another core (R321). -/
def Asker.foreign (a : Asker) (last : Nat) : Bool :=
  if last = 0 then false else
    match a with
    | .group g => if 1000 ≤ last && decide (last < 2000) then last != 1000 + coreOf g else last != 1 + cluOf (coreOf g)
    | .engine c => if 1000 ≤ last && decide (last < 2000) then last != 1000 + c else last != 1 + cluOf c
    | .core c => if 1000 ≤ last && decide (last < 2000) then last != 1000 + c else last != 1 + cluOf c
    | .host => last != 20
    | .peer d => last != 2000 + d

/-- Keys of the locations that take tokens, by TKIND: lines, scratchpad words, queues, deques, budgets (R323). An engine's request
(TKIND 6) at a scratchpad word comes with 2^60 added to LOC. -/
def tokKey (tkind loc : Nat) : Nat :=
  match tkind with
  | 3 => 2 ^ 60 + loc
  | 4 => 2 ^ 61 + loc
  | 5 => 2 ^ 62 + loc
  | 8 => 2 ^ 63 + loc
  | _ => loc

/-- The token count at a location, and who made the last request there (R321). -/
def State.tok (s : State) (tkind loc : Nat) : Tok := SMap.look s.hub.tokens (tokKey tkind loc) Tok.zero

/-- One request performed at a home takes the current count as its token, and the count advances (R321). -/
def State.takeTok (s : State) (tkind loc : Nat) (who : Asker) : State :=
  s.onHub fun h => { h with tokens := SMap.put h.tokens (tokKey tkind loc) { count := (s.tok tkind loc).count + 1, last := who.num } Tok.zero }

/-- One request performed at a home takes its token; a foreign one is logged, and every detection and debit is (R311, R321, R323, log entry
80). -/
def State.token (s : State) (c tkind loc : Nat) (who : Asker) (lane : Option Nat) : State :=
  let tk := s.tok tkind loc
  let s1 := s.takeTok tkind loc who
  let flds := [(27, 4, tkind), (31, 1, if lane.isSome then 1 else 0), (32, 5, lane.getD 0), (37, 27, tk.count.toNat), (64, 64, loc % 2 ^ 60)]
  if who.foreign tk.last || tkind == 7 || tkind == 8 then
    match who with
    | .group g => s1.grpRec g 0x03 16 flds
    | .engine e => s1.addRec c (cluOf e) (mkRec 0x03 16 (cluOf e) ((16, 6, e % 64) :: flds))
    | .core e => s1.addRec c (cluOf e) (mkRec 0x03 16 (cluOf e) ((16, 6, e % 64) :: flds))
    | .host => s1.hubRec c 0x03 16 flds
    | .peer _ => s1
  else s1

/-- In replay, the token that the log holds for a request of group g, when it has one (R328 step 3). -/
def State.loggedToken (s : State) (g tkind loc : Nat) (lane : Option Nat) : Option Nat :=
  match s.replaying? (s.grp g).ctx with
  | none => none
  | some (t, k) =>
    (takeMine g (fun r => recIs 0x03 g r && recField r 27 4 == tkind && recField r 64 64 == loc &&
      recField r 32 5 == lane.getD 0) (s.sess t k).log).map fun e => recField e.1 37 27

/-- The request may be performed now: it has no logged token, or the home's count equals it (R328 step 3). -/
def State.tokenReady (s : State) (g tkind loc : Nat) (lane : Option Nat) : Bool :=
  match s.loggedToken g tkind loc lane with
  | none => true
  | some n => (s.tok tkind loc).count.toNat == n

/-- Consume the logged token of a request that is performed in replay. -/
def State.useToken (s : State) (g tkind loc : Nat) (lane : Option Nat) : State :=
  match s.replaying? (s.grp g).ctx with
  | none => s
  | some (t, k) =>
    match takeMine g (fun r => recIs 0x03 g r && recField r 27 4 == tkind && recField r 64 64 == loc &&
        recField r 32 5 == lane.getD 0) (s.sess t k).log with
    | some (_, l) => s.onSess t k fun x => { x with log := l }
    | none => s

/-- The log's token record of a request by an engine of a core. -/
def engRec (core tkind loc : Nat) (r : List Byte) : Bool :=
  recKind r == 0x03 && recClu r == cluOf core && recField r 16 6 == core % 64 && recField r 27 4 == tkind && recField r 64 64 == loc % 2 ^ 60

/-- A request by an engine of a core may be performed now: in replay, at its logged token (R233, R328). -/
def State.engReady (s : State) (c core tkind loc : Nat) : Bool :=
  match s.replaying? c with
  | none => true
  | some (t, k) =>
    match (s.sess t k).log.find? (engRec core tkind loc) with
    | none => true
    | some r => (s.tok tkind loc).count.toNat == recField r 37 27

/-- The logged token of a request by an engine of a core, or by the core itself, is consumed. -/
def State.useCoreToken (s : State) (c core tkind loc : Nat) : State :=
  match s.replaying? c with
  | none => s
  | some (t, k) =>
    match takeRec (engRec core tkind loc) (s.sess t k).log with
    | some (_, l) => s.onSess t k fun x => { x with log := l }
    | none => s

/-- The log's token record of a request by a hub unit (R39, R323). -/
def hubTok (tkind loc : Nat) (r : List Byte) : Bool :=
  recKind r == 0x03 && recClu r == 15 && recField r 27 4 == tkind && recField r 64 64 == loc

/-- A hub unit's request may be performed: in replay, at its logged token (R328). -/
def State.hubReady (s : State) (c tkind loc : Nat) : Bool :=
  match s.replaying? c with
  | none => true
  | some (t, k) => match (s.sess t k).log.find? (hubTok tkind loc) with
    | none => true
    | some r => (s.tok tkind loc).count.toNat == recField r 37 27

/-- The logged token of a request is consumed in a replay of context c. -/
def State.useLogged (s : State) (c tkind loc : Nat) (who : Asker) (lane : Option Nat) : State :=
  match who with
  | .group g => s.useToken g tkind loc lane
  | .engine e => s.useCoreToken c e tkind loc
  | .core e => s.useCoreToken c e tkind loc
  | .host => match s.replaying? c with
    | none => s
    | some (t, k) => match takeRec (hubTok tkind loc) (s.sess t k).log with
      | some (_, l) => s.onSess t k fun x => { x with log := l }
      | none => s
  | .peer _ => s

/-- A request performed: its logged token is consumed and a token taken (R321, R328 step 3). -/
def State.tokenNow (s : State) (c tkind loc : Nat) (who : Asker) (lane : Option Nat) : State :=
  (s.useLogged c tkind loc who lane).token c tkind loc who lane

/-- An engine's request performed: its logged token is consumed and a token taken (R233). -/
def State.engToken (s : State) (c core tkind loc : Nat) : State := s.tokenNow c tkind loc (.engine core) none

/-- No bound register is set. -/
def noBounds : Vector Bound 16 := Vector.replicate 16 Bound.clear

/-- LOC of the bound-register tokens of a context (R465). -/
def boundLoc (c : Nat) : Nat := 0x1FFFFFFFF00 + c

/-- A core refreshes its copy of a context's bound registers from their home, for group g or on becoming resident, taking a token there
(R465). -/
def State.refreshBounds (s : State) (core c : Nat) (g : Option Nat) : State :=
  let s1 := s.onCore core fun k => { k with bounds := SMap.put k.bounds c (s.ctx c).bounds noBounds }
  s1.tokenNow c 2 (boundLoc c) (match g with
    | some n => .group n
    | none => .core core) none

/-- Chunks that have ended in a cluster of a session (R319). -/
def Session.ended (x : Session) (clu : Nat) : Nat := vat x.order clu 0

/-- The chunk record of group g in a replay log: order number, start number, count and end reason; order numbers follow
from the chunk records of the cluster before it (R323, R324). -/
def chunkOf (g : Nat) (n : Nat) : List (List Byte) → Option (Nat × Nat × Nat × Nat)
  | [] => none
  | r :: l =>
    let big := recKind r == 0x02
    if (recKind r == 0x01 || big) && recClu r == cluOf (coreOf g) then
      let ord := if big then recField r 64 48 else n
      if recField r 16 6 == coreOf g % 64 && recField r 22 5 == slotOf g then
        some (ord, if big then recField r 128 48 else ord - recField r 45 19, recField r 31 14 + 1, recField r 27 4)
      else chunkOf g (ord + 1) l
    else chunkOf g n l

/-- The next chunk that the log holds for group g. -/
def State.nextChunk (s : State) (g : Nat) : Option (Nat × Nat × Nat × Nat) :=
  (s.replaying? (s.grp g).ctx).bind fun (t, k) =>
    chunkOf g ((s.sess t k).ended (cluOf (coreOf g))) (s.sess t k).log

/-- The records of a replay log before group g's next chunk record: those of that chunk are among them (R324). -/
def toChunk (g : Nat) (log : List (List Byte)) : List (List Byte) := log.takeWhile fun r => !(recIs 0x01 g r || recIs 0x02 g r)

/-- A TRAPT record of group g for event evt at its position (R323, R328 step 7). -/
def State.traptIs (s : State) (g evt : Nat) (r : List Byte) : Bool :=
  recIs 0x05 g r && recField r 27 4 == evt && recField r 31 14 == (s.grp g).chunk.count && recField r 45 6 == (s.grp g).rep

/-- In replay, the next TRAPT record of group g at its position for an event that p names. -/
def State.traptDue (s : State) (g : Nat) (p : Nat → Bool) : Option (List Byte) :=
  (s.replaying? (s.grp g).ctx).bind fun (t, k) => (toChunk g (s.sess t k).log).find? fun r => p (recField r 27 4) && s.traptIs g (recField r 27 4) r

/-- The cluster that makes the next request at a logged token's location: as the log has it, or the last one's (R321, R330). -/
def State.nextAsker (s : State) (log : List (List Byte)) (r : List Byte) : Option Nat :=
  let kind := recField r 27 4
  let tk := s.tok kind (recField r 64 64)
  match log.find? fun q => recKind q == 0x03 && recField q 27 4 == kind && recField q 64 64 == recField r 64 64 && recField q 37 27 == tk.count.toNat with
  | some q => some (recClu q)
  | none => if tk.last = 0 || tk.last = 20 || decide (2000 ≤ tk.last) then none else some (if tk.last < 1000 then tk.last - 1 else cluOf (tk.last - 1000))

/-- A chunk of a replay's log that has not ended: its cluster, its order number, and the tokens it needs, by location key (R330). -/
structure LogChunk where
  clu : Nat
  ord : Nat
  toks : List (Nat × Nat)
  deriving DecidableEq, Repr

/-- The chunks of a log, from the order numbers that come next in each cluster on; `pend` has the tokens whose chunk record is still to come,
by cluster, core and slot (R324). -/
def logChunks (next : Vector Nat 12) (pend : List ((Nat × Nat × Nat) × (Nat × Nat))) : List (List Byte) → List LogChunk
  | [] => []
  | r :: l =>
    let who := (recClu r, recField r 16 6, recField r 22 5)
    if recKind r = 0x03 && recField r 27 4 != 6 && recClu r != 15 then
      logChunks next (pend ++ [(who, tokKey (recField r 27 4) (recField r 64 64), recField r 37 27)]) l
    else if recKind r = 0x01 || recKind r = 0x02 then
      let ord := if recKind r = 0x02 then recField r 64 48 else vat next (recClu r) 0
      { clu := recClu r, ord := ord, toks := (pend.filter (·.1 == who)).map (·.2) } ::
        logChunks (vset next (recClu r) (ord + 1)) (pend.filter (·.1 != who)) l
    else logChunks next pend l

/-- The chunk lies below the bounds of a cut. -/
def LogChunk.within (x : LogChunk) (b : Vector Nat 12) : Bool := decide (x.ord < vat b x.clu 0)

/-- The bounds with a chunk in them: what precedes it in its cluster is in the cut too (R330). -/
def LogChunk.into (x : LogChunk) (b : Vector Nat 12) : Vector Nat 12 := vset b x.clu (max (vat b x.clu 0) (x.ord + 1))

/-- The chunks whose logged requests have lower tokens than one that a chunk of the cut needs join the cut (R330), n times over. -/
def cutClose (l : List LogChunk) (b : Vector Nat 12) : Nat → Vector Nat 12
  | 0 => b
  | n + 1 =>
    let need := (l.filter (·.within b)).flatMap (·.toks)
    let b1 := (l.filter fun x => x.toks.any fun t => need.any fun u => u.1 == t.1 && decide (t.2 < u.2)).foldl (fun c x => x.into c) b
    if b1 = b then b else cutClose l b1 n

/-- Tokens of a replay's log that a chunk of the cut needs. -/
def Session.cutNeeds (x : Session) (b : Vector Nat 12) : List (Nat × Nat) := ((logChunks x.order [] x.log).filter (·.within b)).flatMap (·.toks)

/-- The cut of an armed stop, as the number of chunks of each cluster that lie in it (R330): the stop chunk, what its links reach in the log, and
the next chunk of a cluster that has a request with no logged token to make before one of them, n such links away. -/
def State.cutFrom (s : State) (x : Session) (b : Vector Nat 12) : Nat → Vector Nat 12
  | 0 => b
  | n + 1 =>
    let l := logChunks x.order [] x.log
    let b1 := cutClose l b l.length
    let need := (l.filter (·.within b1)).flatMap (·.toks)
    let asked := (x.log.filter fun r => recKind r == 0x03 && need.contains (tokKey (recField r 27 4) (recField r 64 64), recField r 37 27) &&
      decide ((s.tok (recField r 27 4) (recField r 64 64)).count.toNat < recField r 37 27)).filterMap (s.nextAsker x.log)
    let b2 := asked.foldl (fun c k => vset c k (max (vat c k 0) (x.ended k + 1))) b1
    if b2 = b then b else s.cutFrom x b2 n

/-- The cut of an armed stop. -/
def State.cut (s : State) (x : Session) : Vector Nat 12 :=
  let k := dbits x.lstop 51 48
  s.cutFrom x (vset x.cut k (max (vat x.cut k 0) (dbits x.lstop 47 0 + 1))) 25

/-- Group g's next chunk belongs to the cut of an armed stop (R330). -/
def State.inCut (s : State) (x : Session) (g : Nat) : Bool := (s.nextChunk g).any fun p => decide (p.1 < vat (s.cut x) (cluOf (coreOf g)) 0)

/-- What is known of the cut is kept while its chunks leave the log (R330). -/
def State.keepCut (s : State) (t k : Nat) : State :=
  let x := s.sess t k
  if x.lstop.getLsbD 63 then s.onSess t k fun y => { y with cut := s.cut x } else s

/-- An arrival at queue q with token n may be applied: no stop is armed, or a chunk of its cut needs a later token there (R330). -/
def State.arrivalInCut (s : State) (x : Session) (q n : Nat) : Bool :=
  !(x.lstop.getLsbD 63) || (x.cutNeeds (s.cut x)).any fun u => u.1 == tokKey 4 q && decide (n < u.2)

/-- An armed stop keeps group g from its next chunk (R330). -/
def State.stopHolds (s : State) (g : Nat) (x : Session) : Bool :=
  x.lstop.getLsbD 63 && !(s.inCut x g)

/-- The group's next instruction must wait in a replay: for other chunks of its cluster, for a stop at its position, or outside the
cut of an armed stop (R328 steps 1, 2 and 7, R330). -/
def State.replayHolds (s : State) (g : Nat) : Bool :=
  let x := s.grp g
  match s.replaying? x.ctx with
  | none => false
  | some (t, k) =>
    let n := (s.sess t k).ended (cluOf (coreOf g))
    match s.nextChunk g with
    | none => true
    | some (ord, start, count, _) =>
      (if x.chunk.count = 0 then decide (n < start) || s.stopHolds g (s.sess t k) else decide (count ≤ x.chunk.count) && decide (n < ord)) ||
      (s.traptDue g fun e => e == 0 || e == 1 || e == 4).isSome

/-- The log without group g's next chunk record, and without the resumes of that chunk that did not come about (R529). -/
def dropToChunk (g : Nat) : List (List Byte) → List (List Byte)
  | [] => []
  | r :: l => if recIs 0x01 g r || recIs 0x02 g r then l
    else if recIs 0x05 g r && recField r 27 4 == 2 then dropToChunk g l else r :: dropToChunk g l

/-- Take the next chunk record of group g out of the log and count the chunk as ended; a TRAPT or VALUE of it that met no event is a
divergence, and so is a logged token of its own instructions whose request has not come (R328, R329); an engine's and a core's records carry slot 0,
so that a group there answers for the kinds that only groups have. -/
def State.dropChunk (s : State) (g : Nat) : State :=
  let c := (s.grp g).ctx
  match s.replaying? c with
  | none => s
  | some (t, k) =>
    let clu := cluOf (coreOf g)
    let log := (s.sess t k).log
    let missed := (toChunk g log).any fun r => (recIs 0x05 g r && recField r 27 4 != 2) || recIs 0x04 g r
    let own := if slotOf g = 0 then [0, 1, 5] else [0, 1, 2, 3, 4, 5, 7, 8]
    let absent := (s.grp g).flights.isEmpty && (toChunk g log).any fun r => recIs 0x03 g r && own.contains (recField r 27 4)
    let s1 := ((s.keepCut t k).onGrp g fun x => { x with chunk := { Chunk.new with ended := true } }).onSess t k fun x =>
      { x with log := dropToChunk g x.log, order := vset x.order clu (vat x.order clu 0 + 1) }
    if missed then s1.diverge c 0x03 else if absent then s1.diverge c 0x02 else s1

/-- Chunks of a cluster that have run to their counts and waited for earlier ones end, in order (R328 step 2). -/
def State.settle (s : State) (c clu : Nat) : Nat → State
  | 0 => s
  | n + 1 =>
    match s.replaying? c with
    | none => s
    | some (t, k) =>
      match (s.gidsCtx c).find? fun g => cluOf (coreOf g) == clu && decide (g < 18432) && (s.grp g).chunk.count != 0 && !(s.grp g).chunk.live &&
          (s.nextChunk g).any fun p => p.1 == (s.sess t k).ended clu with
      | none => s
      | some g => (s.dropChunk g).settle c clu n

/-- A replay reaches a HORIZON: its log has one and no chunk record is left (R327, R329). -/
def State.horizon (s : State) (c : Nat) : State :=
  match s.replaying? c with
  | none => s
  | some (t, k) =>
    let log := (s.sess t k).log
    if (log.any fun r => recKind r == 0x1D) && !(log.any fun r => recKind r == 0x01 || recKind r == 0x02) then s.diverge c 0x06 else s

/-- A logged token whose request can no longer arrive: the context has no group, command or launch left, and its log no chunk (R329). -/
def State.unmet (s : State) (c : Nat) : State :=
  match s.replaying? c with
  | none => s
  | some (t, k) =>
    let log := (s.sess t k).log
    let busy := !(s.gidsCtx c).isEmpty || (s.cores.any fun (q : Nat × Core) => q.2.cmds.any (·.ctx == c)) || s.hub.launches.any (·.2.ctx == c) ||
      log.any fun r => recKind r == 0x01 || recKind r == 0x02
    if !busy && log.any (recKind · == 0x03) then s.diverge c 0x02 else s

/-- The replay is at its armed stop: the stop chunk and every other chunk of the cut has ended; the context halts and STOPPED is set (R330). -/
def State.stopReached (s : State) (c : Nat) : State :=
  match s.replaying? c with
  | none => s
  | some (t, k) =>
    let x := s.sess t k
    if x.lstop.getLsbD 63 && !(x.lstat.getLsbD 3) && (List.range 12).all fun i => decide (vat (s.cut x) i 0 ≤ x.ended i) then
      (s.haltCtx c).onSess t k fun y => { y with lstat := withBits y.lstat 3 3 1 }
    else s

/-- End the open chunk of group g with a reason; a group that has issued nothing since its last chunk has none open
(R317, R319, R323, R324). In replay the count and the reason are compared with the record (R329). -/
def State.endChunk (s : State) (g code : Nat) : State :=
  let x := s.grp g
  if x.chunk.count = 0 || !x.chunk.live then s else
    let clu := cluOf (coreOf g)
    let s0 := s.setGrp g { x with chunk := { Chunk.new with ended := true } }
    match s.session? x.ctx with
    | none => s0
    | some (t, k) =>
      let ss := s.sess t k
      if ss.replay then
        match s.nextChunk g with
        | none => s0.diverge x.ctx 0x01
        | some (ord, _, count, why) =>
          if count ≠ x.chunk.count then s0.diverge x.ctx 0x01
          else if code ≠ why && code ≠ 11 then s0.diverge x.ctx 0x01
          else if ord < ss.ended clu then s0.diverge x.ctx 0x05
          else if ss.ended clu < ord then s.setGrp g { x with chunk := { x.chunk with live := false } }
          else (((s.dropChunk g).settle x.ctx clu 1536).horizon x.ctx).stopReached x.ctx
      else if ss.closing then s0
      else
        let ord := ss.ended clu
        let dist := ord - x.chunk.start
        let long := !ss.first.contains clu || decide (524287 < dist)
        let who := recWho g ++ [(27, 4, code), (31, 14, x.chunk.count - 1)]
        let r := if long then mkRec 0x02 24 clu (who ++ [(64, 48, ord), (128, 48, x.chunk.start)])
          else mkRec 0x01 8 clu (who ++ [(45, 19, dist)])
        (s0.addRec x.ctx clu r).onSess t k fun y =>
          { y with order := vset y.order clu (ord + 1), first := if y.first.contains clu then y.first else clu :: y.first }

/-- Count one instruction of group g in its chunk, opening one if none is open; the chunk then ends for `code` when the
instruction ends it, and at 16,384 instructions (R317, R319). In replay a chunk without such a reason ends at its recorded
count (R328 step 2). -/
def State.countInstr (s : State) (g : Nat) (code : Option Nat) : State :=
  let x := s.grp g
  match s.session? x.ctx with
  | none => s
  | some (t, k) =>
    let st := if x.chunk.count = 0 && !x.chunk.live then (s.sess t k).ended (cluOf (coreOf g)) else x.chunk.start
    let n := x.chunk.count + 1
    let s1 := s.setGrp g { x with chunk := { x.chunk with start := st, count := n, live := true, ended := false } }
    if 16384 ≤ n then s1.endChunk g 0
    else match code with
      | some c => s1.endChunk g c
      | none =>
        match s1.nextChunk g with
        | some (_, _, count, why) =>
          if count = n && (why = 11 || why = 12) then s1.endChunk g why
          else if count < n || (count = n && (why ≤ 7 || why = 10)) then s1.diverge x.ctx 0x01 else s1
        | none => s1

/-- The first instruction of group g's next chunk has begun its work: the chunk opens (R319). -/
def State.openChunk (s : State) (g : Nat) : State :=
  let x := s.grp g
  match s.session? x.ctx with
  | none => s
  | some (t, k) =>
    if x.chunk.count == 0 && !x.chunk.live then
      s.onGrp g fun y => { y with chunk := { y.chunk with start := (s.sess t k).ended (cluOf (coreOf g)), live := true, ended := false } }
    else s

/-- An instruction of group g waits after it has issued: at the crew barrier, or with a request made. It starts a chunk if it is its
first (R319). -/
def State.opened (s : State) (g : Nat) (c : Cond) : State := if [Cond.bar, .queue, .deque].contains c then s.openChunk g else s

/-- A TRAPT record: an event at group g's position (R323); in replay the matching record is consumed, and a lane kill, halt
or stop that the log lacks is divergence 0x03 while a resume is timing only (R328 step 7, R529). -/
def State.trapt (s : State) (g evt : Nat) (lanes : Word) (cause : Nat) : State :=
  let x := s.grp g
  match s.replaying? x.ctx with
  | none => s.grpRec g 0x05 16 [(27, 4, evt), (31, 14, x.chunk.count), (45, 6, x.rep), (64, 32, lanes.toNat), (96, 8, cause)]
  | some (t, k) =>
    if (s.traptDue g (· == evt)).isSome then
      s.onSess t k fun y => { y with log := ((takeRec (s.traptIs g evt) y.log).map (·.2)).getD y.log }
    else if evt = 2 then s else s.diverge x.ctx 0x03

/-- Group g touches a line of its cluster's L2: open chunks of other groups that conflict end with code 11, and the chunk
notes the line (R318). The group's own open chunk ends with them, so that the access falls into a chunk that starts after the ones it
conflicts with (R319, log entry 75). -/
def State.touchLine (s : State) (g line : Nat) (write : Bool) : State :=
  let x := s.grp g
  match s.session? x.ctx with
  | none => s
  | some (t, k) =>
    let clash := if (s.sess t k).replay then [] else s.gids.filter fun h =>
      h != g && cluOf (coreOf h) == cluOf (coreOf g) && (s.grp h).chunk.live &&
        ((s.grp h).chunk.writes.contains line || (write && (s.grp h).chunk.reads.contains line))
    let s1 := clash.foldl (fun st h => st.endChunk h 11) s
    let s2 := if clash.isEmpty then s1.openChunk g
      else ((s1.endChunk g 11).onGrp g fun y => { y with chunk := { y.chunk with live := false } }).openChunk g
    s2.onGrp g fun y =>
      if write then { y with chunk := { y.chunk with writes := if y.chunk.writes.contains line then y.chunk.writes else line :: y.chunk.writes } }
      else { y with chunk := { y.chunk with reads := if y.chunk.reads.contains line then y.chunk.reads else line :: y.chunk.reads } }

/-- A recall ends the open chunks of a cluster that touched the line, with code 12 (R320). -/
def State.recallChunks (s : State) (clu line : Nat) : State :=
  (s.gids.filter fun h => cluOf (coreOf h) == clu && (s.grp h).chunk.live &&
    ((s.grp h).chunk.writes.contains line || (s.grp h).chunk.reads.contains line)).foldl (fun st h => st.endChunk h 12) s

/-- Bytes of a list of records. -/
def bytesOfRecs (l : List (List Byte)) : Nat := l.foldl (fun n r => n + r.length) 0

/-- R326, R327: a group at a chunk end must wait: its recorder's 64 KiB buffer is full, or groups wait for larder space. -/
def State.larderWaits (s : State) (g : Nat) : Bool :=
  match s.recording? (s.grp g).ctx with
  | none => false
  | some (t, k) =>
    decide (65536 ≤ bytesOfRecs (vat (s.sess t k).bufs (cluOf (coreOf g)) [])) || (s.sess t k).lstat.getLsbD 1

/-- Group g is stopped at a chunk end (R326, R327). -/
def State.chunkStops (s : State) (g : Nat) : Bool := (s.grp g).chunk.ended && s.larderWaits g

/-- The INPUT record of a payload that reached the context's memory from outside (R316, R323). -/
def State.input (s : State) (c : Nat) (pa token : Nat) (payload : List Byte) : State :=
  s.hubRec c 0x0A (24 + roundUp payload.length 8)
    [(16, 8, payload.length - 1), (64, 64, pa), (128, 27, token), (192, 8 * payload.length, leNat payload)]

/-- A write from outside is performed at the home of its line: it takes its token there, and is logged with it (R316, R321, R323). -/
def State.inputNow (s : State) (c pa : Nat) (who : Asker) (payload : List Byte) : State :=
  (s.takeTok 0 (pa / 512) who).input c pa (s.tok 0 (pa / 512)).count.toNat payload

/-- Device output (R316, R323 DEVOUT): logged; in replay it is compared with its record, which is consumed, and nothing is enforced. -/
def State.devout (s : State) (c pa : Nat) (v : Dword) : State :=
  match s.replaying? c with
  | none => s.hubRec c 0x0B 24 [(64, 64, pa), (128, 64, v.toNat)]
  | some (t, k) =>
    match takeRec (fun r => recKind r == 0x0B && recField r 64 64 == pa) (s.sess t k).log with
    | some (_, l) => s.onSess t k fun x => { x with log := l }
    | none => s

end Sys2Proof.Machine
end

