-- ==== Sys2Proof/Machine/Home.lean ====
section
/-! DEFINITION. The point of coherence: frames and data bytes (R289 to R292), sectors with errors and poison (R294 to R298,
R312), the error budget (R299, R300), the second-touch filter (R178 to R180), and the cluster's L2 (R174, R175, R219, R295,
R308, R309, R531) and L1s. Stored check bytes are computed, not kept: an error is a mark on its sector (log entry 11). -/

namespace Sys2Proof.Machine

/-- The format of the frame or scratchpad that holds a location; host and peer memory carry none of this device's (R289). -/
def State.fmtAt (s : State) (loc : Nat) : Cls :=
  if isSpad loc then (s.core ((loc - spadBase) / 2 ^ 19)).format
  else if isLocal loc then SMap.look s.hub.formats (loc / 2 ^ 21) .p else .u

/-- Data bytes per 512-byte line (R289). -/
def lineData : Cls → Nat
  | .p => 448
  | .d => 496
  | .u => 512

/-- The raw address of data byte n of the frame at base f (R290). -/
def rawOf (c : Cls) (f n : Nat) : Nat := f + 512 * (n / lineData c) + n % lineData c

/-- The raw location of offset o in a page whose leaf names slot address a of a local frame (R290); elsewhere a + o. -/
def State.pageByte (s : State) (a o : Nat) : Nat :=
  if isLocal a then rawOf (s.fmtAt a) (a / 2 ^ 21 * 2 ^ 21) (a % 2 ^ 21 + o) else a + o

/-- The slot exists in its frame's format (R291). -/
def State.slotOk (s : State) (a : Nat) : Bool :=
  !isLocal a || match s.fmtAt a with
    | .p => decide (a % 2 ^ 21 / 65536 < 28)
    | .d => decide (a % 2 ^ 21 / 65536 < 31)
    | .u => true

/-- What a read of a sector or scratchpad row finds (R294). -/
inductive SecOut where
  | ok
  | poison
  | detected
  deriving DecidableEq, Repr

/-- Key of the unit of protection that holds a location: a 64-byte sector or row, or a format-D scratchpad's 128-byte row. Poison
is kept by 64-byte rows in every format (R297). -/
def State.secKey (s : State) (loc : Nat) : Nat :=
  if isSpad loc && decide (s.fmtAt loc = .d) then loc / 128 * 2 else loc / 64

/-- Bytes of that unit. -/
def State.secLen (s : State) (loc : Nat) : Nat := if isSpad loc && decide (s.fmtAt loc = .d) then 128 else 64

/-- UNIT of an error-log record: the HBM stack or the scratchpad that holds the location (R310). -/
def unitOf (loc : Nat) : Nat :=
  if isSpad loc then 0x4000 + (loc - spadBase) / 2 ^ 19 else 0x3000 + stackOf loc

/-- ADDR of an error-log record: the raw physical address, or the cluster scratchpad address (R310). -/
def errAddr (loc : Nat) : Nat := if isSpad loc then (loc - spadBase) % 2 ^ 25 else loc

/-- A budget debit of a context: whether it exhausts the budget, and the state after it (R299, R300). -/
def State.debit (s : State) (c : Nat) (who : Asker) : Bool × State :=
  let e := (s.ctx c).errbud
  if e = 0xFFFFFFFF then (false, s)
  else (decide (e.toNat ≤ 1),
    (s.onCtx c fun x => { x with errbud := if e = 0 then 0 else e - 1 }).tokenNow c 8 c who none)

/-- The state with f applied to the home slice of a location. -/
def State.onSlice (s : State) (loc : Nat) (f : Slice → Slice) : State :=
  s.onHub fun h => { h with slices := SMap.put h.slices (sliceOf loc) (f (SMap.look h.slices (sliceOf loc) Slice.reset)) Slice.reset }

/-- Mark a context for termination before the step ends (R288). -/
def State.doom (s : State) (c reason : Nat) : State :=
  if (s.ctx c).used && !(s.hub.doomed.any (·.1 == c)) then s.onHub fun h => { h with doomed := h.doomed ++ [(c, reason)] }
  else s

/-- The L2 set of a line (R532). -/
def l2Set (loc : Nat) : Nat := loc / 512 % 2048

/-- The slot address that a leaf names (R257). -/
def leafAddr (pte : Dword) : Nat := dbits pte 51 13 * 8192

/-- The range of physical storage that a TLB entry's leaf names holds a slot: of a leaf larger than a page too (R257, R309). -/
def TlbEntry.names (e : TlbEntry) (slot : Nat) : Bool := decide (leafAddr e.pte ≤ slot) && decide (slot < leafAddr e.pte + e.size)

/-- Every mapping of a slot is shot down, in sequence with the other shoot-downs: every TLB entry whose leaf names it goes (R274, R309 step
3). -/
def State.dropSlot (s : State) (slot : Nat) : State :=
  let s1 := s.onHub fun h => { h with shootSeq := h.shootSeq + 1 }
  { s1 with
    cores := SMap.mapAll (fun c => { c with l1tlb := c.l1tlb.filter fun e => !(e.names slot) }) Core.idle s1.cores
    clusters := SMap.mapAll (fun c => { c with l2tlb := c.l2tlb.filter fun e => !(e.names slot) }) Cluster.empty s1.clusters }

/-- The page slot that holds a raw local location (R290). -/
def State.slotAt (s : State) (loc : Nat) : Nat :=
  loc / 2 ^ 21 * 2 ^ 21 + (loc % 2 ^ 21 / 512 * lineData (s.fmtAt loc) + loc % 512) / 65536 * 65536

/-- A page slot is retired: it leaves its pool, and every mapping of it is shot down (R309 step 3). -/
def State.retireSlot (s : State) (slot : Nat) : State :=
  (s.onHub fun h => {
    h with
    retiredSlots := if h.retiredSlots.contains slot then h.retiredSlots else slot :: h.retiredSlots,
    pool := h.pool.filter (· != slot / 65536) }).dropSlot slot

/-- The set of a cache that holds a line: of a cluster's L2, or of the line's L3 slice, whose function is left open (R532). -/
def cacheSet (k : Option Nat) (loc : Nat) : Nat := if k.isSome then l2Set loc else Config.l3Set (loc / 512) % 1024

/-- Ways locked in that set. -/
def State.lockedWays (s : State) (k : Option Nat) (loc : Nat) : Nat :=
  match k with
  | some c => SMap.look (s.cluster c).locked (cacheSet k loc) 0
  | none => SMap.look (SMap.look s.hub.slices (sliceOf loc) Slice.reset).locked (cacheSet k loc) 0

/-- One more way locked in that set. -/
def State.lockWay (s : State) (k : Option Nat) (loc : Nat) : State :=
  match k with
  | some c => s.onCluster c fun q => { q with locked := SMap.put q.locked (cacheSet k loc) (s.lockedWays k loc + 1) 0 }
  | none => s.onSlice loc fun x => { x with locked := SMap.put x.locked (cacheSet k loc) (s.lockedWays k loc + 1) 0 }

/-- Byte i of a sector. -/
def Sector.byte (x : Sector) (i : Nat) : Byte := (x.data >>> (8 * i)).truncate 8

/-- The written bytes of an L2's copy of a sector merged at the home, and its poison with them (R219, R295). -/
def State.putWritten (s : State) (key : Nat) (x : Sector) : State :=
  let s1 := (List.range 64).foldl (fun st i => if x.written.getLsbD i then st.setMem (Memory.setByte st.mem (key * 64 + i) (x.byte i)) else st) s
  if x.poison then s1.onHub fun h => { h with poison := if h.poison.contains key then h.poison else key :: h.poison } else s1

/-- A cache's line is invalidated, what its other sectors hold written going home (R309 step 4): cluster k's L2, with the L1s that it includes,
or the line's L3 slice, whose data are at the home already. -/
def State.voidLine (s : State) (k : Option Nat) (loc : Nat) : State :=
  match k with
  | some c =>
    (((s.cluster c).l2.filter fun e => e.1 / 8 == loc / 512 && e.2.written != 0).foldl (fun st e => st.putWritten e.1 e.2) s).onCluster c fun q =>
      { q with l2 := q.l2.filter fun e => e.1 / 8 != loc / 512, l1 := SMap.mapAll (fun l => l.filter fun n => n / 8 != loc / 512) [] q.l1 }
  | none => s.onSlice loc fun x => { x with lines := x.lines.filter (· != loc / 512), dirty := x.dirty.filter fun e => e.1 / 8 != loc / 512 }

/-- An uncorrectable error in a dirty sector of a cache: cluster k's L2, or L3 for none (R309, R533). The owner and the writable sharers
are terminated, the home sector takes the outcome of its class, the page slot is retired with every mapping of it, the way is
quarantined, and the records of kinds 0x05 to 0x07 are written. The way is one that no rule fixes (R532): a free value. -/
def State.dirtyLoss (s : State) (k : Option Nat) (loc owner va : Nat) : State :=
  let sec := loc / 64 * 64
  let slot := s.slotAt loc
  let (w, s0) := s.draw
  let sharers := SMap.look s0.hub.shared slot 0
  let s1 := (List.range 64).foldl (fun st c => if sharers.getLsbD c then st.doom c 3 else st) (s0.doom owner 3)
  let s2 : State := match s1.fmtAt loc with
    | .p => s1.onHub fun h => { h with poison := if h.poison.contains (loc / 64) then h.poison else loc / 64 :: h.poison }
    | .d => (s1.setMem (Memory.setBytes s1.mem sec (List.replicate 64 0))).onHub fun h => { h with marks := SMap.put h.marks (loc / 64) 3 0 }
    | .u => s1.setMem (Memory.setBytes s1.mem sec (List.replicate 64 0))
  let s3 := s2.retireSlot slot
  let free := decide (s3.lockedWays k loc < 2)
  let s4 := if free then s3.lockWay k loc else s3.voidLine k loc
  let unit := match k with
    | some c => 0x1000 + c
    | none => 0x2000 + sliceOf loc
  let rec5 : ErrRec := {
    addr := sec, va := va, ctx := owner, kind := 0x05, cls := 3, unit := unit, detail := w.toNat % 16 * 4096 + cacheSet k loc, lanes := 0 }
  let s5 := (s4.err (some owner) rec5).err (some owner)
    { rec5 with kind := 0x06, cls := clsCode (s.fmtAt loc), unit := unitOf loc, detail := 0 }
  if free then s5.err (some owner) { rec5 with kind := 0x07 } else s5

/-- An error injected into L3's copy of a sector strikes at its read: a correctable one is corrected and counted, a clean sector is
dropped and refetched, a dirty one is lost (R294, R309, R312). -/
def State.l3Strike (s : State) (loc : Nat) : State :=
  let m : Nat := SMap.look s.hub.l3marks (loc / 64) 0
  if m = 0 then s
  else
    let s1 := s.onHub fun h => { h with l3marks := SMap.put h.l3marks (loc / 64) 0 0 }
    let owner : Nat := SMap.look (SMap.look s.hub.slices (sliceOf loc) Slice.reset).dirty (loc / 64) 0
    if m = 1 then s1.onSlice loc fun x => { x with corrected := x.corrected + 1 }
    else if owner = 0 then s1
    else (s1.onSlice loc fun x => { x with dirty := SMap.put x.dirty (loc / 64) 0 0 }).dirtyLoss none loc (owner - 1) 0

/-- A corrected error of an HBM sector may be one of a data pin, which its stack counts (R306, R337): a free value says whether it is
(log entry 7). -/
def State.pinSeen (s : State) (loc : Nat) : State :=
  let (w, s1) := s.draw
  s1.onHub fun h => { h with pinErrors := SMap.put h.pinErrors (stackOf loc) (SMap.look h.pinErrors (stackOf loc) 0 + w.toNat % 2) 0 }

/-- In a replay's log, a detection by requester `who` at a location, and the log without it (R311). -/
def detectRec (who : Asker) (loc : Nat) (log : List (List Byte)) : Option (List Byte × List (List Byte)) :=
  match who with
  | .group g => takeMine g (fun r => recIs 0x03 g r && recField r 27 4 == 7 && recField r 64 64 == loc / 512) log
  | .engine e => takeRec (engRec e 7 (loc / 512)) log
  | .core e => takeRec (engRec e 7 (loc / 512)) log
  | _ => takeRec (hubTok 7 (loc / 512)) log

/-- A read in a replay looks at no stored error: the log says whether a detection happens, and the sector then reads zeros (R311, R328
steps 7 and 9). -/
def State.readReplay (s : State) (t k loc c : Nat) (who : Asker) : SecOut × State :=
  match detectRec who loc (s.sess t k).log with
  | none => (.ok, s)
  | some (_, l) =>
    let s1 := s.onSess t k fun x => { x with log := l }
    (.detected, (s1.setMem (Memory.setBytes s1.mem (s1.secKey loc * 64) (List.replicate (s1.secLen loc) 0))).token c 7 (loc / 512) who none)

/-- A read of the sector or row of a location, for a context, meets a stored error, or in a replay a logged detection (R294, R311). -/
def State.meetsError (s : State) (loc c : Nat) (who : Asker) : Bool :=
  match s.replaying? c with
  | some (t, n) => (detectRec who loc (s.sess t n).log).isSome
  | none => SMap.look s.hub.marks (s.secKey loc) 0 != 0

/-- A read of the stored sector or row that holds a location, borne by context c (R294, R296, R298): the outcome, with marks corrected,
scrubbed or turned into poison. A pinned sector's cells are not read (R307). -/
def State.readHome (s : State) (loc : Nat) (c va : Nat) (who : Asker) : SecOut × State :=
  let k := s.secKey loc
  match s.replaying? c with
  | some (t, n) => s.readReplay t n loc c who
  | none =>
  if s.hub.poison.contains (loc / 64) then (.poison, s)
  else
    let mark := if s.hub.pinned.contains k then 0 else SMap.look s.hub.marks k 0
    if mark = 0 then (.ok, s)
    else
      let clear := fun (h : Hub) => { h with marks := SMap.put h.marks k 0 0 }
      let rec0 : ErrRec := {
        addr := errAddr (k * 64), va := va, ctx := if (s.ctx c).used then c else 0xFFFF, kind := 0x01, cls := clsCode (s.fmtAt loc),
        unit := unitOf loc, detail := 0, lanes := 0 }
      match s.fmtAt loc with
      | .u => (.ok, s)
      | .d =>
        let s1 := (s.onHub clear).setMem (Memory.setBytes s.mem (k * 64) (List.replicate (s.secLen loc) 0))
        (.detected, (s1.err (some c) rec0).token c 7 (loc / 512) who none)
      | .p =>
        if mark = 1 then
          let s1 := s.onHub clear
          (.ok, if isSpad loc then s1.bump ((loc - spadBase) / 2 ^ 19) c 13 1 else (s1.onSlice loc fun x => { x with corrected := x.corrected + 1 }).pinSeen loc)
        else
          (.poison, (s.onHub fun h => { clear h with poison := k :: h.poison }).err (some c) { rec0 with kind := 0x02 })

/-- A read of the sector or row that holds a location at its home, L3 first (R294). -/
def State.readSector (s : State) (loc : Nat) (c va : Nat) (who : Asker) : SecOut × State :=
  (s.l3Strike loc).readHome loc c va who

/-- The data bytes of the sector that holds a location: all 64, but 48 in sector 7 of a class-D line (R289). -/
def State.dataBytes (s : State) (loc : Nat) : Nat := if isLocal loc && decide (s.fmtAt loc = .d) && loc / 64 % 8 == 7 then 48 else 64

/-- A write at the home: bytes from location loc on; the poison, and the detected error, of every sector that it covers whole is cleared
(R295). An injected error stays until the sector's next read (R312). -/
def State.homeWrite (s : State) (loc : Nat) (b : List Byte) : State :=
  let s1 := s.setMem (Memory.setBytes s.mem loc b)
  if s1.hub.poison.isEmpty && s1.hub.marks.isEmpty then s1 else
    let keeps := fun (k : Nat) =>
      !(decide (loc ≤ k * 64) && decide (k * 64 + s.dataBytes (k * 64) ≤ loc + b.length))
    s1.onHub fun h => { h with poison := h.poison.filter keeps, marks := h.marks.filter fun (e : Nat × Nat) => e.2 != 3 || keeps e.1 }

/-- Hash n of the second-touch filter (R178). -/
def filterHash (i n : Nat) : Nat :=
  let k := match i with
    | 0 => 0x9E3779B97F4A7C15
    | 1 => 0xC2B2AE3D27D4EB4F
    | _ => 0x165667B19E3779F9
  n * k % 2 ^ 64 / 2 ^ 48

/-- A slice takes a line in: a line of its set goes when the ways that are not locked are all in use (R174, R307); its data are at the home
already (R181, log entry 76). -/
def Slice.allocate (x : Slice) (n : Nat) : Slice :=
  let room := { x with lines := n :: x.lines, allocations := x.allocations + 1 }
  if x.lines.length + 2 < 16 then room
  else
    let set := fun (m : Nat) => Config.l3Set m % 1024
    let mine := x.lines.filter fun m => set m == set n
    if mine.length < 16 - SMap.look x.locked (set n) 0 then room
    else
      let v := nth mine (Config.victim 2 (set n) % mine.length) 0
      { room with lines := n :: x.lines.filter (· != v), dirty := x.dirty.filter fun e => e.1 / 8 != v }

/-- The requests that allocate whatever the hint: a line that a mapping has registered, or that holds a pinned sector (R180). -/
def State.l3Forced (s : State) (n : Nat) : Bool := s.hub.mapLines.any (·.1 == n) || s.hub.pinned.any (· / 8 == n)

/-- A line reaches its L3 slice: the filter and the page hint decide its allocation, misses age the filter (R178 to R180).
`always` covers the requests that allocate whatever the hint. -/
def State.l3Touch (s : State) (loc hint : Nat) (always : Bool) : State :=
  if !isLocal loc then s else
    let n := loc / 512
    let h := sliceOf loc
    let x := SMap.look s.hub.slices h Slice.reset
    if x.lines.contains n then s else
      let hs := [filterHash 0 n, filterHash 1 n, filterHash 2 n]
      let hit := hs.all x.filter.contains
      let alloc := always || s.l3Forced n || hint == 1 || (hint == 0 && hit)
      let f1 := if hit then x.filter else hs.foldl (fun l b => if l.contains b then l else b :: l) x.filter
      let m1 := x.misses + 1
      let full := decide (2 ^ x.w ≤ m1)
      let x1 := {
        x with
        filter := if full then [] else f1, misses := if full then 0 else m1,
        clears := if full then x.clears + 1 else x.clears }
      s.onHub fun hb => { hb with slices := SMap.put hb.slices h (if alloc then x1.allocate n else x1) Slice.reset }

/-- A write of context c reaches a sector at its L3 slice: in a line that L3 holds, the sector becomes dirty under c's tag, what the line held
dirty under another tag having gone home first (R308). `c` is a context number plus 1, or 0 for a write that no context owns. -/
def State.l3Dirty (s : State) (loc c : Nat) : State :=
  if !isLocal loc || !(SMap.look s.hub.slices (sliceOf loc) Slice.reset).lines.contains (loc / 512) then s
  else s.onSlice loc fun x =>
    { x with dirty := SMap.put (x.dirty.filter fun e => e.1 / 8 != loc / 512 || e.2 == c) (loc / 64) c 0 }

/-- The sector with byte i replaced. -/
def Sector.setByte (x : Sector) (i : Nat) (b : Byte) : Sector :=
  { x with data := (x.data &&& ~~~((0xFF : BitVec 512) <<< (8 * i))) ||| ((b.zeroExtend 512) <<< (8 * i)) }

/-- The 64 bytes from index i on as a bit mask of n. -/
def byteMask (i n : Nat) : Dword := BitVec.ofNat 64 ((2 ^ n - 1) * 2 ^ i)

/-- The sector of cluster k's L2 that holds a location. -/
def State.sector (s : State) (k loc : Nat) : Sector := SMap.look (s.cluster k).l2 (loc / 64) Sector.empty

/-- The state with that sector replaced. -/
def State.setSector (s : State) (k loc : Nat) (x : Sector) : State :=
  s.onCluster k fun c => { c with l2 := SMap.put c.l2 (loc / 64) x Sector.empty }

/-- A write-back advances its sector's minor counter in an enclave page; past 63 the line's major counter advances and its minors start
again; at 2^56 - 2^32 the error record 0x0E is written, and from 2^56 - 2^24 on the region is exhausted (R358). -/
def State.encCount (s : State) (loc : Nat) : State :=
  if s.hub.encPages.isEmpty || !isLocal loc then s
  else
    let c := SMap.look s.hub.encPages (s.slotAt loc / 65536) 0
    if c = 0 then s
    else
      let n := loc / 512
      let x := SMap.look s.hub.encLines n EncLine.fresh
      let i := loc / 64 % 8
      if vat x.minors i 0 < 63 then
        s.onHub fun h => { h with encLines := SMap.put h.encLines n { x with minors := vset x.minors i (vat x.minors i 0 + 1) } EncLine.fresh }
      else
        let y : EncLine := { EncLine.fresh with major := x.major + 1 }
        let s1 := s.onHub fun h => { h with encLines := SMap.put h.encLines n y EncLine.fresh }
        let s2 := if y.major = 2 ^ 56 - 2 ^ 32 then s1.err (some (c - 1)) {
            addr := n * 512, va := 0, ctx := c - 1, kind := 0x0E, cls := 0, unit := unitOf loc, detail := 0, lanes := 0 } else s1
        if 2 ^ 56 - 2 ^ 24 ≤ y.major then s2.onCtx (c - 1) fun z => { z with exhausted := true } else s2

/-- A walk that ends on a leaf tells the memory controller whether its page is an enclave's (R358). -/
def State.noteEnc (s : State) (c : Nat) (pte : Dword) : State :=
  let slot := leafAddr pte / 65536
  let v := if pte.getLsbD 8 && (s.ctx c).encl then c + 1 else 0
  if !isLocal (leafAddr pte) || SMap.look s.hub.encPages slot 0 == v then s
  else s.onHub fun h => { h with encPages := SMap.put h.encPages slot v 0 }

/-- The counters of every line of context c's enclave pages start again (R358). -/
def State.encFresh (s : State) (c : Nat) : State :=
  s.onHub fun h => { h with encLines := h.encLines.filter fun e => SMap.look h.encPages (s.slotAt (e.1 * 512) / 65536) 0 != c + 1 }

/-- Write one sector's written bytes of cluster k back to its home (R219, R308, R538): an error marked on the dirty sector is
a dirty-line loss; a write-back that does not cover the sector's data reads the home sector, and a failing class-D one is scrubbed
first and debits the owner; poison goes with the data. L3 takes the line in under ALWAYS, when it is forced, or when the filter holds it
(R180). -/
def State.writeBack (s : State) (k loc : Nat) : State :=
  let x := s.sector k loc
  if x.written = 0 then s
  else if x.mark = 2 then (s.setSector k loc Sector.empty).dirtyLoss (some k) loc (x.owner - 1) x.va
  else
    let sec := loc / 64 * 64
    let all := x.written &&& byteMask 0 (s.dataBytes loc) == byteMask 0 (s.dataBytes loc)
    let faulty := decide (SMap.look s.hub.marks (loc / 64) 0 ≠ 0) || decide (SMap.look s.hub.l3marks (loc / 64) 0 ≠ 0)
    let s1 := if !all && faulty then
        let (o, st) := s.readSector sec (x.owner - 1) 0 (.group (24 * 64 * k))
        match o with
        | .detected => if (st.ctx (x.owner - 1)).used then (st.debit (x.owner - 1) (.group (24 * 64 * k))).2 else st
        | _ => st
      else s
    let s2 := s1.putWritten (loc / 64) x
    let s3 := if !x.poison && all then
        s2.onHub fun h => { h with poison := h.poison.filter (· != loc / 64), marks := h.marks.filter fun (e : Nat × Nat) => !(e.1 == loc / 64 && e.2 == 3) }
      else s2
    let n := loc / 512
    let sl := SMap.look s3.hub.slices (sliceOf loc) Slice.reset
    let hit := [filterHash 0 n, filterHash 1 n, filterHash 2 n].all sl.filter.contains
    let s4 := if isLocal loc && !sl.lines.contains n && (hit || x.hint == 1 || s3.l3Forced n) then s3.onSlice loc fun y => y.allocate n else s3
    ((s4.l3Dirty loc x.owner).encCount loc).setSector k loc { x with written := 0, owner := 0, va := 0, mark := 0 }

/-- Every sector with written bytes of cluster k goes home (R219). -/
def State.writeBackAll (s : State) (k : Nat) : State :=
  ((s.cluster k).l2.filter fun e => e.2.written != 0).foldl (fun st e => st.writeBack k (e.1 * 64)) s

/-- An acquire's invalidation in cluster k: clean sectors go, unwritten bytes of dirty ones become stale (R219). -/
def State.invalidateAll (s : State) (k : Nat) : State :=
  s.onCluster k fun c =>
    let l2 := (c.l2.filter fun e => e.2.written != 0).map fun e => (e.1, { e.2 with valid := e.2.written })
    { c with l2 := l2, l1 := SMap.mapAll (fun l => l.filter fun n => l2.any (·.1 == n)) [] c.l1 }

/-- Write back and drop the sectors of one line of cluster k (R200, R320, R224). -/
def State.dropLine (s : State) (k line : Nat) : State :=
  let s1 := (List.range 8).foldl (fun st i => st.writeBack k (line * 512 + i * 64)) s
  s1.onCluster k fun c => { c with l2 := c.l2.filter fun e => e.1 / 8 != line, l1 := SMap.mapAll (fun l => l.filter fun n => n / 8 != line) [] c.l1 }

/-- Cluster k's L2 evicts a line that it holds: what is written goes home (R174, R213). -/
def State.evictLine (s : State) (k line : Nat) : State := if (s.cluster k).l2.any (·.1 / 8 == line) then s.dropLine k line else s

/-- Lines that cluster k's L2 holds in the set of a location (R532). -/
def Cluster.linesOf (x : Cluster) (loc : Nat) : List Nat :=
  x.l2.foldl (fun l e => if e.1 / 8 % 2048 == l2Set loc && !l.contains (e.1 / 8) then e.1 / 8 :: l else l) []

/-- Cluster k's L2 has a way for a location's line: when it is not there, and the ways of its set that are not locked are all in use, a line
of the set is evicted (R174, R307, R309). -/
def State.makeRoom (s : State) (k loc : Nat) : State :=
  let ls := (s.cluster k).linesOf loc
  if ls.contains (loc / 512) || decide (ls.length < 16 - s.lockedWays (some k) loc) then s
  else s.evictLine k (nth ls (Config.victim 1 (l2Set loc) % ls.length) 0)

/-- A core's L1 holds sector n from now on: 8 ways of 512-byte lines in each of 16 sets, where the line used longest ago goes (R174, log
entry 76). -/
def l1Take (l : List Nat) (n : Nat) : List Nat :=
  let r := n :: l.filter (· != n)
  let lines := r.foldl (fun (m : List Nat) j => if j / 8 % 16 == n / 8 % 16 && !m.contains (j / 8) then m ++ [j / 8] else m) []
  let gone := lines.drop 8
  r.filter fun j => !gone.contains (j / 8)

/-- The sector of a location is in the L1 of a core, with these bytes valid (R174, R175). -/
def State.inL1 (s : State) (core loc n : Nat) : Bool :=
  (SMap.look (s.cluster (cluOf core)).l1 (core % 64) []).contains (loc / 64) &&
    (s.sector (cluOf core) loc).valid &&& byteMask (loc % 64) n == byteMask (loc % 64) n

/-- A core's L1 takes a sector in, the cluster's L2 having it (R174). -/
def State.touchL1 (s : State) (core loc : Nat) : State :=
  s.onCluster (cluOf core) fun c => { c with l1 := SMap.put c.l1 (core % 64) (l1Take (SMap.look c.l1 (core % 64) []) (loc / 64)) [] }

/-- Bring every byte of a sector into cluster k's L2, from the home where it is not valid (R174, R294): the outcome. -/
def State.fill (s : State) (k loc : Nat) (c va hint : Nat) (who : Asker) : SecOut × State :=
  let x := s.sector k loc
  let full := BitVec.ofNat 64 (2 ^ 64 - 1)
  if x.valid = full then (if x.poison then .poison else .ok, s)
  else
    let (o, s1) := ((s.makeRoom k loc).l3Touch loc hint false).readSector loc c va who
    let x1 := s1.sector k loc
    let y := (List.range 64).foldl (fun (z : Sector) i => if x1.valid.getLsbD i then z else z.setByte i (Memory.byte s1.mem (loc / 64 * 64 + i))) x1
    (o, s1.setSector k loc { y with valid := full, poison := y.poison || decide (o = .poison), hint := hint })

/-- An error marked in the L2's own array strikes at a read (R293, R309, R312): a correctable one is corrected, a clean
sector is dropped and refetched, a dirty one is lost. -/
def State.l2Strike (s : State) (k loc : Nat) : State :=
  let x := s.sector k loc
  if x.mark = 0 then s
  else if x.mark = 1 then s.setSector k loc { x with mark := 0 }
  else if x.written = 0 then s.setSector k loc Sector.empty
  else (s.setSector k loc Sector.empty).dirtyLoss (some k) loc (x.owner - 1) x.va

/-- A read of n bytes (in one sector) through cluster k's L2: the outcome, the value and the state (R175). -/
def State.l2Read (s : State) (k loc n : Nat) (c va hint : Nat) (who : Asker) : SecOut × Nat × State :=
  let s0 := s.l2Strike k loc
  let x := s0.sector k loc
  let need := byteMask (loc % 64) n
  let (o, s1) := if x.valid &&& need = need then (if x.poison then SecOut.poison else .ok, s0) else s0.fill k loc c va hint who
  let y := s1.sector k loc
  (o, leNat ((List.range n).map fun i => y.byte (loc % 64 + i)), s1)

/-- A write of bytes (in one sector) into cluster k's L2 by context c at address va, 0 when not known (R174, R308, R531): a line dirty under another owner is
written back first; an armed mark attaches; `cover` says that the write's lanes together cover the whole sector (R295). -/
def State.l2Write (s : State) (k loc : Nat) (b : List Byte) (c va hint : Nat) (cover : Bool) : State :=
  let line := loc / 512
  let foreign := (s.cluster k).l2.any fun e => e.1 / 8 == line && e.2.written != 0 && e.2.owner != c + 1
  let s0 := if foreign then (List.range 8).foldl (fun st i => st.writeBack k (line * 512 + i * 64)) s else s.makeRoom k loc
  let x := s0.sector k loc
  let m := byteMask (loc % 64) b.length
  let y := (List.range b.length).foldl (fun (z : Sector) i => z.setByte (loc % 64 + i) (nth b i 0)) x
  let arm := (s0.cluster k).armed.find? (·.1 == loc / 64)
  let s1 := if arm.isSome then s0.onCluster k fun q => { q with armed := q.armed.filter (·.1 != loc / 64) } else s0
  s1.setSector k loc {
    y with
    valid := x.valid ||| m, written := x.written ||| m, owner := c + 1, va := if va = 0 then x.va else va - loc % 64, hint := hint,
    poison := x.poison && !cover && (m &&& byteMask 0 (s0.dataBytes loc) != byteMask 0 (s0.dataBytes loc)),
    mark := match arm with
      | some (_, u) => if u then 2 else 1
      | none => x.mark }

end Sys2Proof.Machine
end

