-- ==== Sys2Proof/Machine/Translate.lean ====
section
/-! DEFINITION. Translation: page-table entries and walks (R256 to R260), the TLBs (R261 to R263, R275), the scratchpad
aperture and mapping windows (R171 to R173, R199 to R201), tile ownership (R191), and where each lane of an access goes. -/

namespace Sys2Proof.Machine

/-- Access kinds (R126, R260). -/
inductive Acc where
  | r
  | w
  | rw
  | x
  deriving DecidableEq, Repr

/-- STATE of a leaf (R257): 0 RESIDENT, 1 CELLAR, 2 MIGRATING, 3 REMOTE. -/
def pteState (e : Dword) : Nat := dbits e 2 1

/-- SIZE of an entry (R257). -/
def pteSize (e : Dword) : Nat := dbits e 63 62

/-- HINT of a leaf. -/
def pteHint (e : Dword) : Nat := dbits e 6 5

/-- Bytes of a leaf by SIZE. -/
def pageBytes : Nat → Nat
  | 0 => 65536
  | 1 => 2 ^ 21
  | _ => 2 ^ 30

/-- The frame lies in the context's tenant's window (R351). -/
def State.inWindow (s : State) (c addr : Nat) : Bool :=
  SMap.look s.hub.window (addr / 2 ^ 21) 0 == (s.ctx c).tenant + 1

/-- A leaf that R258 or R259 calls malformed by its fields, present or not: ADDR is software-defined when V = 0 (R257). -/
def leafMalformed (e : Dword) : Bool :=
  let a := leafAddr e
  dbits e 61 52 != 0 || pteHint e == 3 || dbits e 4 3 == 3 || (pteSize e != 0 && dbits e 4 3 != 2) ||
  (e.getLsbD 0 &&
    (a % pageBytes (pteSize e) != 0 ||
    ((pteState e == 0 || pteState e == 1) && !isLocal a) ||
    (pteState e == 3 && !(isHost a || isPeer a)) ||
    !(isLocal a || isHost a || isPeer a)))

/-- A table entry with a field besides V, SIZE and ADDR (R258). -/
def tableMalformed (e : Dword) : Bool := dbits e 61 52 != 0 || dbits e 12 1 != 0

/-- What a walk ends with. -/
inductive WalkRes where
  /-- malformed or unresolvable: MEMFAULT -/
  | bad
  /-- V = 0 at some level (R258) -/
  | absent (pte : Dword)
  | leaf (e : TlbEntry)
  /-- a walker read a poisoned sector (R294) -/
  | poison
  deriving DecidableEq, Repr

/-- An entry of a table, read at its home (R256, R257). -/
def State.readPte (s : State) (c table idx : Nat) : Option (SecOut × Dword × State) :=
  if isLocal table && decide (s.fmtAt table = .p) && decide (table % 2 ^ 21 / 65536 < 28) && s.inWindow c table then
    let loc := s.pageByte table (8 * idx)
    let (o, s1) := (s.l3Touch loc 0 false).readSector loc c 0 .host
    some (o, BitVec.ofNat 64 (Memory.le s1.mem loc 8), s1)
  else none

/-- The index of a virtual address at a level (R256). -/
def vaIndex (va : Dword) (lvl : Nat) : Nat := dbits va (25 + 10 * lvl) (16 + 10 * lvl)

/-- A cached table entry of a level (R262). -/
def State.cachedPte (s : State) (k c lvl : Nat) (va : Dword) : Option Dword :=
  ((s.cluster k).wcache.find? fun w => w.ctx == c && w.level == lvl && w.idx == dbits va 55 (16 + 10 * lvl)).map (·.pte)

/-- One level of a walk: its end, or the next level's table (R256 to R259, R291, R351). -/
def State.walkLevel (s : State) (k c : Nat) (va : Dword) (table lvl : Nat) : (WalkRes ⊕ Nat) × State :=
  let idx := vaIndex va lvl
  let got := match s.cachedPte k c lvl va with
    | some e => some (SecOut.ok, e, s)
    | none => s.readPte c table idx
  match got with
  | none => (.inl .bad, s)
  | some (.poison, _, s1) => (.inl .poison, s1)
  | some (_, e, s1) =>
    if pteSize e = 3 then
      if tableMalformed e || lvl == 0 then (.inl .bad, s1)
      else if e.getLsbD 0 = false then (.inl (.absent e), s1)
      else
        let w : WalkEntry := { ctx := c, level := lvl, idx := dbits va 55 (16 + 10 * lvl), pte := e }
        (.inr (leafAddr e),
          s1.onCluster k fun q => { q with wcache := if q.wcache.contains w then q.wcache else (w :: q.wcache).take 256 })
    else if lvl ≠ (if pteSize e = 2 then 1 else 0) then (.inl .bad, s1)
    else
      let run := if pteSize e = 0 then 1 else if pteSize e = 1 then 32 else 16
      match s1.readPte c table (idx / run * run) with
      | none => (.inl .bad, s1)
      | some (.poison, _, s2) => (.inl .poison, s2)
      | some (_, f, s2) =>
        if pteSize f ≠ pteSize e || leafMalformed f then (.inl .bad, s2)
        else if f.getLsbD 0 = false then (.inl (.absent f), s2)
        else if pteState f = 0 && !(s2.slotOk (leafAddr f) && s2.inWindow c (leafAddr f)) then (.inl .bad, s2)
        else
          let sz := pageBytes (pteSize f)
          (.inl (.leaf { ctx := c, base := va.toNat / sz * sz, size := sz, pte := f }), s2)

/-- The walk from a table on, over n more levels below the table's own. -/
def State.walkFrom (s : State) (k c : Nat) (va : Dword) (table : Nat) : Nat → WalkRes × State
  | 0 =>
    match s.walkLevel k c va table 0 with
    | (.inl r, s1) => (r, s1)
    | (.inr _, s1) => (.bad, s1)
  | n + 1 =>
    match s.walkLevel k c va table (n + 1) with
    | (.inl r, s1) => (r, s1)
    | (.inr next, s1) => s1.walkFrom k c va next n

/-- The walk of an address in a context, on cluster k's walkers (R256). -/
def State.walk (s : State) (k c : Nat) (va : Dword) : WalkRes × State := s.walkFrom k c va (s.ctx c).ptroot.toNat 3

/-- How an access to a page goes on. -/
inductive Xl where
  | ok (e : TlbEntry)
  | bad
  | perm
  | park (cellar : Bool)
  | walk
  deriving DecidableEq, Repr

/-- The leaf makes its accesses park (R260). -/
def pteParks (e : Dword) : Bool := pteState e == 1 || pteState e == 2 || (pteState e == 3 && e.getLsbD 12)

/-- The checks of R260 on a leaf with V = 1, for an access at an address of its page: the format is that of the frame that the access
reaches. A peer's home makes the check for its own pages. -/
def State.leafCheck (s : State) (c : Nat) (acc : Acc) (t : TlbEntry) (va : Dword) : Xl :=
  let e := t.pte
  if pteParks e then .park (pteState e == 1)
  else
    let need := match acc with
      | .r => e.getLsbD 9
      | .w => e.getLsbD 10
      | .rw => e.getLsbD 9 && e.getLsbD 10
      | .x => e.getLsbD 11
    let a := leafAddr e
    let cls := if isLocal a then decide (s.fmtAt (a + (va.toNat - t.base)) = clsOf (dbits e 4 3)) else if isHost a then dbits e 4 3 == 2 else true
    if !need || (e.getLsbD 8 && !(s.ctx c).encl) || !cls then .perm else .ok t

/-- An entry serves an address. -/
def TlbEntry.covers (e : TlbEntry) (c : Nat) (va : Dword) : Bool :=
  e.ctx == c && decide (e.base ≤ va.toNat) && decide (va.toNat < e.base + e.size)

/-- The entry that a core's TLBs hold for an address: its L1 TLB, then its cluster's L2 TLB (R261). -/
def State.tlb (s : State) (core c : Nat) (va : Dword) : Option TlbEntry :=
  match (s.core core).l1tlb.find? (·.covers c va) with
  | some e => some e
  | none => (s.cluster (cluOf core)).l2tlb.find? (·.covers c va)

/-- The L2 TLB takes an entry in: 512 sets of 8 ways, in which the oldest goes first (R262, log entry 18). -/
def l2TlbTake (l : List TlbEntry) (e : TlbEntry) : List TlbEntry :=
  let r := e :: l.filter (· != e)
  if r.length ≤ 8 then r
  else
    let set := fun (x : TlbEntry) => Config.tlbSet x.base x.size % 512
    let gone := (r.filter fun x => set x == set e).drop 8
    r.filter fun x => !(gone.contains x)

/-- The entry in both TLBs, the oldest going first (R262, log entry 18). -/
def State.tlbFill (s : State) (core : Nat) (e : TlbEntry) : State :=
  let s1 := s.onCore core fun x => { x with l1tlb := (e :: x.l1tlb.filter (· != e)).take 64 }
  s1.onCluster (cluOf core) fun x => { x with l2tlb := l2TlbTake x.l2tlb e }

/-- Drop the entry that served an address (R263). -/
def State.tlbDrop (s : State) (core : Nat) (e : TlbEntry) : State :=
  let s1 := s.onCore core fun x => { x with l1tlb := x.l1tlb.filter (· != e) }
  s1.onCluster (cluOf core) fun x => { x with l2tlb := x.l2tlb.filter (· != e) }

/-- The 64 KiB page of an address. -/
def pageOf (va : Dword) : Dword := BitVec.ofNat 64 (va.toNat / 65536 * 65536)

/-- Translation of one address for group g (R260, R261, R263, R265): outcomes that a finished walk left for this bundle, then
the TLBs. -/
def State.xlate (s : State) (g : Nat) (va : Dword) (acc : Acc) : Xl × State :=
  let x := s.grp g
  if !canonical va || x.givenUp.any fun p => decide (p.1.toNat ≤ va.toNat) && decide (va.toNat < p.1.toNat + p.2) then (.bad, s)
  else
    let walked := (x.walked.find? (·.1 == pageOf va)).map (·.2)
    match walked with
    | some 1 => (.bad, s)
    | some 3 => (.park true, s)
    | some 4 => (.park false, s)
    | _ =>
      match s.tlb (coreOf g) x.ctx va with
      | none => (.walk, s.bump (coreOf g) x.ctx 9 1)
      | some e =>
        match s.leafCheck x.ctx acc e va with
        | .perm => if walked.isSome then (.perm, s) else (.walk, s.tlbDrop (coreOf g) e)
        | o => (o, if (s.core (coreOf g)).l1tlb.any (·.covers x.ctx va) then s
                else (s.tlbFill (coreOf g) e).bump (coreOf g) x.ctx 9 1)

/-- Ask for a walk of a page for a group (R264); requests for one page share a walk. A walk waits while all 32 walkers of the cluster have
one. A walk of run-ahead is counted once it has not been dropped (R276). -/
def State.askWalk (s : State) (g : Nat) (va : Dword) (quiet : Bool) : State :=
  let x := s.grp g
  let k := cluOf (coreOf g)
  let p := pageOf va
  let gid := if quiet then [] else [g]
  match (s.cluster k).walks.find? fun w => w.ctx == x.ctx && w.page == p && w.core == coreOf g with
  | some v =>
    let s1 := s.onCluster k fun q =>
      { q with walks := q.walks.map fun w =>
          if w.id == v.id then { w with gids := if w.gids.contains g || quiet then w.gids else w.gids ++ gid, quiet := w.quiet && quiet } else w }
    if v.quiet && !quiet then s1.bump (coreOf g) x.ctx 10 1 else s1
  | none =>
    let w : Walk := { id := s.hub.nextWalk, ctx := x.ctx, core := coreOf g, page := p, gids := gid, seq := s.hub.shootSeq.toNat, quiet := quiet,
                      begun := decide (((s.cluster k).walks.filter (·.begun)).length < 32) }
    let s1 := (s.onCluster k fun q => { q with walks := q.walks ++ [w] }).onHub fun h => { h with nextWalk := h.nextWalk + 1 }
    if quiet then s1 else s1.bump (coreOf g) x.ctx 10 1

/-- Walks of a cluster that an instruction's group still waits for. -/
def Cluster.walksOf (q : Cluster) (w : Walk) : Nat :=
  (q.walks.filter fun v => if w.gids.isEmpty then v.id == w.id else v.gids.any w.gids.contains).length

/-- A free walker takes the next walk: of the instruction with the fewest outstanding walks, then of the one that asked first, then of the
lowest core (R264); the shoot-down sequence number is the one of its start (R275). -/
def State.nextWalker (s : State) (k : Nat) : State :=
  let q := s.cluster k
  if 32 ≤ (q.walks.filter (·.begun)).length then s
  else
    let best := (q.walks.filter fun w => !w.begun).foldl (fun (o : Option Walk) w => match o with
      | none => some w
      | some v => if q.walksOf w < q.walksOf v then some w else some v) none
    match best with
    | none => s
    | some w => s.onCluster k fun q => { q with walks := q.walks.map fun v => if v.id == w.id then { v with begun := true, seq := s.hub.shootSeq.toNat } else v }

/-- Tile t of core c. -/
def State.tile (s : State) (c t : Nat) : Tile := SMap.look (s.core c).tiles t Tile.free

/-- The state with a tile replaced. -/
def State.setTile (s : State) (c t : Nat) (x : Tile) : State :=
  s.onCore c fun k => { k with tiles := SMap.put k.tiles t x Tile.free }

/-- Core, tile and offset of a scratchpad location. -/
def spadParts (loc : Nat) : Nat × Nat × Nat := ((loc - spadBase) / 2 ^ 19, (loc - spadBase) % 2 ^ 19 / 4096, (loc - spadBase) % 2 ^ 19)

/-- A thread's access is allowed by the tile's owner state (R191). -/
def ownerAllows (owner : Nat) (acc : Acc) : Bool :=
  owner == 0 || (decide (1 ≤ owner) && decide (owner ≤ 5) && decide (acc = .r))

/-- The scratchpad byte is below the usable size and in a tile of the context (R171, R173). -/
def State.spadOk (s : State) (c loc : Nat) : Bool :=
  let (core, t, off) := spadParts loc
  decide (off < usable (s.core core).format) && (s.tile core t).held && (s.tile core t).ctx == c

/-- The owner state of a scratchpad location's tile (R190). -/
def State.ownerAt (s : State) (loc : Nat) : Nat :=
  let (core, t, _) := spadParts loc
  (s.tile core t).owner

/-- Mapping entry fields (R199): valid, window base, bytes, first tile, read-write, context. -/
def mapV (e : Dword × Dword) : Bool := e.1.getLsbD 0
def mapVa (e : Dword × Dword) : Nat := dbits e.1 55 12 * 4096
def mapLen (e : Dword × Dword) : Nat := (dbits e.2 7 1 + 1) * 4096
def mapTile (e : Dword × Dword) : Nat := dbits e.2 14 8
def mapWr (e : Dword × Dword) : Bool := e.2.getLsbD 0
def mapCtx (e : Dword × Dword) : Nat := dbits e.2 53 48

/-- The valid mapping entry of a context that holds an address: its core and the entry (R201). -/
def State.mapping? (s : State) (c : Nat) (va : Dword) : Option (Nat × (Dword × Dword)) :=
  let a := dbits va 55 0
  s.cores.findSome? fun k => (List.find? (fun (e : Nat × (Dword × Dword)) =>
    mapV e.2 && mapCtx e.2 == c && decide (mapVa e.2 ≤ a) && decide (a < mapVa e.2 + mapLen e.2)) k.2.maps).map fun e => (k.1, e.2)

/-- The offset of an address in its context's scratchpad aperture (R172). -/
def State.aperture? (s : State) (c : Nat) (va : Dword) : Option Nat :=
  let b := (s.ctx c).spapb.toNat
  if b ≤ va.toNat && decide (va.toNat < b + 2 ^ 25) then some (va.toNat - b) else none

/-- Where one lane's access goes. -/
inductive Spot where
  | loc (a hint : Nat) (enc : Bool)
  | bad
  | perm
  | park (cellar : Bool)
  | walk
  deriving DecidableEq, Repr

/-- Where an access to a peer's page goes: its home may refuse it for want of an export, or for the class, and no rule of this device says when
(R260, R356): a free value. With every port down it is unreachable. -/
def State.peerSpot (s : State) (l hint : Nat) (enc : Bool) : Spot × State :=
  if 18 ≤ s.hub.portsDown.length then (.bad, s)
  else
    let (w, s1) := s.draw
    (match w.toNat % 3 with
      | 0 => .loc l hint enc
      | 1 => .bad
      | _ => .perm, s1)

/-- The place of one access of group g at a virtual address (R169, R172, R201, R260, R265). -/
def State.spot (s : State) (g : Nat) (va : Dword) (acc : Acc) (aperture : Bool) : Spot × State :=
  let c := (s.grp g).ctx
  if !canonical va then (.bad, s)
  else match s.aperture? c va with
    | some o =>
      let l := spadOf (cluOf (coreOf g)) o
      (if aperture && s.spadOk c l then .loc l 0 false else .bad, s)
    | none =>
      match (if acc = .x then none else s.mapping? c va) with
      | some (k, e) =>
        if decide (acc ≠ .r) && !mapWr e then (.perm, s)
        else (.loc (spadLoc k (mapTile e * 4096 + (dbits va 55 0 - mapVa e))) 0 false, s)
      | none =>
        match s.xlate g va acc with
        | (.ok e, s1) =>
          let l := s1.pageByte (leafAddr e.pte) (va.toNat - e.base)
          if isPeer l then s1.peerSpot l (pteHint e.pte) (e.pte.getLsbD 8) else (.loc l (pteHint e.pte) (e.pte.getLsbD 8), s1)
        | (.bad, s1) => (.bad, s1)
        | (.perm, s1) => (.perm, s1)
        | (.park b, s1) => (.park b, s1)
        | (.walk, s1) => (.walk, s1)

/-- The places of several lanes' accesses, in lane order. Each distinct page is looked up once: a lane on a page whose walk an earlier lane has
asked for takes that outcome (R261). -/
def State.spotsFrom (s : State) (g : Nat) (acc : Acc) (aperture : Bool) (asked : List Dword) : List (Nat × Dword) → List (Nat × Dword × Spot) × State
  | [] => ([], s)
  | (i, va) :: l =>
    if asked.contains (pageOf va) then
      let (r, s2) := s.spotsFrom g acc aperture asked l
      ((i, va, .walk) :: r, s2)
    else
      let (p, s1) := s.spot g va acc aperture
      let (r, s2) := s1.spotsFrom g acc aperture (if p = .walk then pageOf va :: asked else asked) l
      ((i, va, p) :: r, s2)

/-- The places of several lanes' accesses. -/
def State.spots (s : State) (g : Nat) (acc : Acc) (aperture : Bool) (l : List (Nat × Dword)) : List (Nat × Dword × Spot) × State :=
  s.spotsFrom g acc aperture [] l

/-- First address and size of the page that holds an address of a context: of the leaf where its walk ends, of 64 KiB where it ends on no leaf
(R257, R266, R269). -/
def State.pageSpan (s : State) (c : Nat) (va : Dword) : Nat × Nat :=
  match (s.walk 12 c va).1 with
  | .leaf e => (e.base, e.size)
  | .absent p =>
    let n := pageBytes (if pteSize p = 3 then 0 else pteSize p)
    (va.toNat / n * n, n)
  | _ => (va.toNat / 65536 * 65536, 65536)

end Sys2Proof.Machine
end

