-- ==== Sys2Proof/Machine/Image.lean ====
section
/-! DEFINITION. Save images: the group record and the register regions of R286, as bytes and back; WBASE (R94). -/

namespace Sys2Proof.Machine

/-- WBASE (R94). -/
def Group.wbase (g : Group) : Dword := BitVec.ofNat 64 (g.links.length * 2 ^ 32 + g.sb % 65536 * 65536 + g.vb % 65536)

/-- Vector window size (R84). -/
def Group.wv (g : Group) : Nat := min 96 g.av

/-- Scalar window size (R84). -/
def Group.ws (g : Group) : Nat := min 96 g.as

/-- The register is pending (R119). -/
def Group.pending (g : Group) (r : RegId) : Bool := g.pend.any (·.1 == r)

/-- Uncounted loads of a counter (R121). -/
def Group.uncounted (g : Group) (c : Nat) : Nat := vat g.issued c 0 - vat g.counted c 0

/-- The wait operand of a parked group: address, batch number or object index (R286); of a wait on a counter both its numbers. The queue that a
group waits at is not in its own state. -/
def Group.waitOperand (g : Group) : Nat :=
  match g.wait.cond with
  | .counter c n => c + 16 * n
  | .barrier o _ => o
  | .barrierFree o => o
  | .sync l _ => (l - spadBase) % 2 ^ 25
  | .word _ _ va => va.toNat
  | .batches n => n
  | .tiles c t _ => c % 64 * 2 ^ 19 + t * 4096
  | .fault => (g.missing.head?.map (·.1.toNat)).getD 0
  | _ => 0

/-- A wait's condition with its operand as the image has it (R285). -/
def Cond.withOperand (c : Cond) (n : Nat) : Cond :=
  match c with
  | .counter _ _ => .counter (n % 16) (n / 16)
  | .barrier _ g => .barrier n g
  | .batches _ => .batches n
  | c => c

/-- The batch has a status that no instruction has reported (R243). -/
def Batch.unreported (b : Batch) : Bool := b.retired && !b.reported && b.status != 0

/-- Bytes of a bit list, bit 0 first. -/
def packBits : Nat → (Nat → Bool) → List Byte
  | 0, _ => []
  | n + 1, f => BitVec.ofNat 8 ((List.range 8).foldl (fun a i => if f i then a + 2 ^ i else a) 0) :: packBits n fun i => f (i + 8)

/-- The 1 KiB record of a group (R286); vo and so are the offsets of its registers in their regions, and op its wait operand. -/
def groupRecord (g : Group) (vo so op : Nat) : List Byte :=
  let un := g.batches.filter Batch.unreported
  let slides := g.links.reverse.map (·.2.toNat)
  let rp := if g.rep = 0 then g.rpidx else BitVec.ofNat 64 g.rep
  leBytes 8 g.pc.toNat ++ leBytes 4 g.em.toNat ++ leBytes 4 g.live.toNat ++
  ((List.range 8).map fun i => leBytes 4 (if i = 0 then 0xFFFFFFFF else (vat g.preds i 0).toNat)).flatten ++
  ((List.range 16).map fun i => BitVec.ofNat 8 (g.uncounted i)) ++
  leBytes 8 g.wbase.toNat ++ leBytes 4 g.vlow ++ leBytes 4 g.slow ++
  leBytes 8 g.fctl.toNat ++ leBytes 8 g.fflags.toNat ++ leBytes 8 g.tcause.toNat ++ leBytes 8 g.tpc.toNat ++
  leBytes 8 g.tval.toNat ++ leBytes 8 rp.toNat ++
  leBytes 1 (if g.resume = 0 then g.rep else g.resume) ++
  leBytes 1 ((if g.intrap then 1 else 0) + (if g.halted then 2 else 0)) ++ leBytes 1 g.wait.code ++ leBytes 1 0 ++
  leBytes 4 (if g.unfin = 0 then (g.kept.map (·.unfin)).getD 0 else g.unfin).toNat ++ leBytes 2 g.missing.length ++ leBytes 6 0 ++ leBytes 8 op ++
  leBytes 4 g.ordinal ++ leBytes 2 g.av ++ leBytes 2 g.as ++ leBytes 4 vo ++ leBytes 4 so ++ leBytes 2 g.batchNum ++ leBytes 6 0 ++
  ((List.range 8).map fun i => match un[i]? with
    | some b => leBytes 2 b.num ++ leBytes 1 b.status ++ leBytes 1 0
    | none => leBytes 4 0).flatten ++
  packBits 64 (fun i => decide (i < g.av) && g.pending (.v (g.vlow + i))) ++
  packBits 32 (fun i => decide (i < g.as) && g.pending (.s (g.slow + i))) ++
  packBits 4 (fun i => if i < 16 then g.pending (.o i) else decide (i < 24) && g.pending (.h (i - 16))) ++
  leBytes 12 0 ++ ((List.range 32).map fun i => leBytes 4 (vat g.draws i 0).toNat).flatten ++ leBytes 64 0 ++
  ((List.range 32).map fun i => leBytes 8 ((g.links.reverse.map (·.1.toNat)).getD i 0)).flatten ++
  ((List.range 32).map fun i => BitVec.ofNat 8 (slides.getD i 0)) ++ leBytes 224 0

/-- The 128 bytes of a vector register, dead lanes zero (R284). -/
def laneBytes (live : Word) (v : Lanes) : List Byte :=
  ((List.range 32).map fun i => leBytes 4 (if lane? live i then (vat v i 0).toNat else 0)).flatten

/-- A vector register from 128 bytes. -/
def lanesFrom (b : List Byte) : Lanes := lanesFn fun i => BitVec.ofNat 32 (leNat ((b.drop (4 * i)).take 4))

/-- The absolute vector register n. -/
def Group.vabs (g : Group) (n : Nat) : Lanes := SMap.look g.vregs n Lanes.zero

/-- The absolute scalar register n. -/
def Group.sabs (g : Group) (n : Nat) : Dword := SMap.look g.sregs n 0

/-- The allocated vector registers, from LOW up (R286). -/
def vregBytes (g : Group) : List Byte := ((List.range g.av).map fun i => laneBytes g.live (g.vabs (g.vlow + i))).flatten

/-- The allocated scalar registers, from LOW up. -/
def sregBytes (g : Group) : List Byte := ((List.range g.as).map fun i => leBytes 8 (g.sabs (g.slow + i)).toNat).flatten

/-- The operand and last-result files (R286). -/
def fileBytes (g : Group) : List Byte :=
  ((List.range 16).map fun i => laneBytes g.live (vat g.ofile i Lanes.zero)).flatten ++
  ((List.range 8).map fun i => laneBytes g.live (vat g.hfile i Lanes.zero)).flatten

/-- n bytes of a list from offset o, as a number. -/
def fieldAt (b : List Byte) (o n : Nat) : Nat := leNat ((b.drop o).take n)

/-- Batches with the unreported statuses that an image lists, as number and status; a batch past the eight of the image keeps its own (R243,
R286). -/
def batchesFrom (l : List (Nat × Nat)) (n : Nat) : List Batch → List Batch
  | [] => []
  | b :: r =>
    if b.unreported && decide (n < 8) then
      (match l.find? (·.1 == b.num) with
        | some p => [{ b with status := p.2 }]
        | none => []) ++ batchesFrom l (n + 1) r
    else b :: batchesFrom l n r

/-- A group restored from its record and registers; what the image does not hold comes from the skeleton kept beside it
(R123, R285, R286). -/
def groupFrom (k : Group) (r vr sr fr : List Byte) : Group :=
  let d8 := fun o => BitVec.ofNat 64 (fieldAt r o 8)
  let wb := fieldAt r 0x40 8
  let vlow := fieldAt r 0x48 4
  let slow := fieldAt r 0x4C 4
  let depth := bitsN wb 37 32
  let bit := fun (o i : Nat) => (nth r (o + i / 8) 0).getLsbD (i % 8)
  let keep := k.pend.filter fun p => match p.1 with
    | .v n => decide (vlow ≤ n) && decide (n < vlow + k.av) && bit 0xD0 (n - vlow)
    | .s n => decide (slow ≤ n) && decide (n < slow + k.as) && bit 0x110 (n - slow)
    | .o n => bit 0x130 n
    | .h n => bit 0x130 (16 + n)
  let below := fun (m : SMap Lanes) => m.filter fun e => decide (e.1 < vlow) || decide (vlow + k.av ≤ e.1)
  let belowS := fun (m : SMap Dword) => m.filter fun e => decide (e.1 < slow) || decide (slow + k.as ≤ e.1)
  { k with
    pc := d8 0, em := BitVec.ofNat 32 (fieldAt r 8 4), live := BitVec.ofNat 32 (fieldAt r 12 4)
    preds := Vector.ofFn fun i => if i.val = 0 then 0xFFFFFFFF else BitVec.ofNat 32 (fieldAt r (0x10 + 4 * i.val) 4)
    vb := bitsN wb 15 0, sb := bitsN wb 31 16, vlow := vlow, slow := slow
    fctl := d8 0x50, fflags := d8 0x58, tcause := d8 0x60, tpc := d8 0x68, tval := d8 0x70, rpidx := d8 0x78
    resume := fieldAt r 0x80 1, rep := 0, intrap := bit 0x81 0, halted := bit 0x81 1 || k.halted
    unfin := if k.unfin = 0 ∧ k.kept.isSome then 0 else BitVec.ofNat 32 (fieldAt r 0x84 4)
    kept := k.kept.map fun q => if k.unfin = 0 then { q with unfin := BitVec.ofNat 32 (fieldAt r 0x84 4) } else q
    ordinal := fieldAt r 0x98 4, batchNum := fieldAt r 0xA8 2
    pend := keep
    counted := Vector.ofFn fun i => vat k.issued i.val 0 - fieldAt r (0x30 + i.val) 1
    wait := { code := fieldAt r 0x82 1, cond := k.wait.cond.withOperand (fieldAt r 0x90 8) }
    missing := k.missing.take (fieldAt r 0x88 2)
    batches := batchesFrom ((List.range 8).map fun i => (fieldAt r (0xB0 + 4 * i) 2, fieldAt r (0xB2 + 4 * i) 1)) 0 k.batches
    draws := Vector.ofFn fun i => BitVec.ofNat 32 (fieldAt r (0x140 + 4 * i.val) 4)
    links := ((List.range depth).map fun i => (d8 (0x200 + 8 * i), BitVec.ofNat 7 (fieldAt r (0x300 + i) 1))).reverse
    vregs := (List.range k.av).foldl (fun m i => SMap.put m (vlow + i) (lanesFrom ((vr.drop (128 * i)).take 128)) Lanes.zero) (below k.vregs)
    sregs := (List.range k.as).foldl (fun m i => SMap.put m (slow + i) (BitVec.ofNat 64 (fieldAt sr (8 * i) 8)) 0) (belowS k.sregs)
    ofile := Vector.ofFn fun i => lanesFrom ((fr.drop (128 * i.val)).take 128)
    hfile := Vector.ofFn fun i => lanesFrom ((fr.drop (128 * (16 + i.val))).take 128) }

end Sys2Proof.Machine
end

