-- ==== Sys2Proof/Machine/Perform.lean ====
section
/-! DEFINITION. Outstanding accesses: what orders them (R209, R212, R215 to R219), what performing one does (R211, R213, R219,
R294 to R296, R320, R363), and how results land (R83, R119, R121, R167). -/

namespace Sys2Proof.Machine

/-- The value an atomic writes (R363), on operands of w bytes. -/
def atomNew (op : AtomOp) (w old x cmp : Nat) : Nat :=
  let m := 2 ^ (8 * w)
  match op with
  | .add => (old + x) % m
  | .and => Nat.land old x
  | .or => Nat.lor old x
  | .xor => Nat.xor old x
  | .min => if sInt (8 * w) old ≤ sInt (8 * w) x then old else x
  | .max => if sInt (8 * w) old ≤ sInt (8 * w) x then x else old
  | .minn => min old x
  | .maxn => max old x
  | .swap => x
  | .cas => if old = cmp then x else old
  | .fadd => (fF32.add .rne false old x).bits

/-- A vector register, whose code word is 1,024 bits wide (R90). -/
def RegId.isVec : RegId → Bool
  | .s _ => false
  | _ => true

/-- Vector register RegId, all lanes. -/
def Group.getV (g : Group) : RegId → Lanes
  | .v n => g.vabs n
  | .o n => vat g.ofile n Lanes.zero
  | .h n => vat g.hfile n Lanes.zero
  | .s _ => Lanes.zero

/-- The group with a vector register replaced. -/
def Group.setV (g : Group) (r : RegId) (x : Lanes) : Group :=
  match r with
  | .v n => { g with vregs := SMap.put g.vregs n x Lanes.zero }
  | .o n => { g with ofile := vset g.ofile n x }
  | .h n => { g with hfile := vset g.hfile n x }
  | .s _ => g

/-- The group with absolute scalar register n replaced. -/
def Group.setSabs (g : Group) (n : Nat) (x : Dword) : Group := { g with sregs := SMap.put g.sregs n x 0 }

/-- Lanes of m taken from x, the others from old, lanes outside LIVE zero (R91). -/
def mergeLanes (live m : Word) (old x : Lanes) : Lanes :=
  lanesFn fun i => if lane? m i then vat x i 0 else if lane? live i then vat old i 0 else 0

/-- A lane of a vector register written. -/
def Group.putLane (g : Group) (r : RegId) (i : Nat) (x : Word) : Group :=
  if lane? g.live i then g.setV r (vset (g.getV r) i x) else g

/-- The access acquires: ORD acquire, acq_rel or seq on a read (R215, R219). -/
def Flight.acquires (f : Flight) : Bool :=
  (f.ord == .acquire || f.ord == .acqRel || f.ord == .seq) && (match f.kind with
    | .load => true
    | .atomic _ => true
    | .fence => true
    | _ => false)

/-- The access releases: ORD release, acq_rel or seq on a write (R215, R219). -/
def Flight.releases (f : Flight) : Bool :=
  (f.ord == .release || f.ord == .acqRel || f.ord == .seq) && (match f.kind with
    | .store => true
    | .atomic _ => true
    | .fence => true
    | _ => false)

/-- The flight is a memory access of one location. -/
def Flight.access (f : Flight) : Bool :=
  match f.kind with
  | .load => true
  | .store => true
  | .atomic _ => true
  | _ => false

/-- The access writes. -/
def Flight.writes (f : Flight) : Bool :=
  match f.kind with
  | .store => true
  | .atomic _ => true
  | _ => false

/-- Two accesses touch a common location. -/
def Flight.overlaps (e f : Flight) : Bool :=
  e.access && f.access && decide (e.loc < f.loc + f.width) && decide (f.loc < e.loc + e.width)

/-- The flight orders later accesses behind itself (R215, R219). -/
def Flight.orders (f : Flight) : Bool := f.kind == .fence || f.acquires

/-- e must be performed before f: both of one group, e before f in its program order (R209, R210, R215, R217, R218). -/
def Flight.before (e f : Flight) : Bool :=
  if e.seq = f.seq then
    f.writes && e.overlaps f && decide (e.id < f.id)
  else decide (e.seq < f.seq) &&
    match f.kind with
    | .fence => e.access || e.kind == .fence
    | .flush => e.writes || e.kind == .fence
    | .inval => e.kind == .fence
    | .sfu => false
    | .fill => e.kind == .spill && e.dest == f.dest
    | .spill => e.kind == .spill && e.dest == f.dest
    | _ => e.kind == .fence || (e.access && (e.acquires || f.releases || e.overlaps f || (e.ord == .seq && f.ord == .seq)))

/-- The flight of a group may be performed now. -/
def Group.performable (g : Group) (f : Flight) : Bool := !(g.flights.any fun e => e.before f)

/-- An ordering wait of the group lasts: a fence or an acquire is outstanding, or a release whose earlier accesses have not all performed;
later memory instructions park with stall reason 31 (R219). A release itself orders no later access (R215). -/
def Group.orderWait (g : Group) : Bool := g.flights.any fun f => f.orders || (f.releases && !g.performable f)

/-- Loads counted on every counter: all whose earlier loads on it have landed (R121, R186). -/
def Group.recount (g : Group) : Group :=
  { g with counted := Vector.ofFn fun c =>
      let open1 := g.flights.filterMap fun f => match f.ctr with
        | some (k, n) => if k = c.val then some n else none
        | none => none
      let open2 := (g.partLoad.toList ++ ((g.kept.bind (·.load)).toList)).foldl (fun l p => if p.1 = c.val then p.2 :: l else l) open1
      open2.foldl min (vat g.issued c.val 0) }

/-- Lanes of a group leave LIVE and EM, with an error-log record (R24, R301, R310, R542). -/
def State.killNow (s : State) (g : Nat) (m : Word) (rec_ : ErrRec) : State :=
  let x := s.grp g
  (s.setGrp g { x with live := x.live &&& ~~~m, em := x.em &&& ~~~m }).err (some x.ctx)
    { rec_ with ctx := x.ctx, detail := m.toNat % 65536, lanes := m.toNat }

/-- Kill lanes of a group, and log it (R24, R92, R294, R301, R311). A replay leaves a kill to its record, whatever storage holds, and
one that the log does not have is a divergence (R328 step 7, R329). -/
def State.kill (s : State) (g : Nat) (lanes : Word) (cause loc : Nat) (va : Dword) : State :=
  let x := s.grp g
  let m := lanes &&& x.live
  if m = 0 then s else
    match s.replaying? x.ctx with
    | some (t, k) => if (s.sess t k).log.any fun r => recIs 0x05 g r && recField r 27 4 == 3 then s else s.diverge x.ctx 0x03
    | none =>
      (s.killNow g m
        { addr := if cause = 1 then 0 else errAddr (loc / 64 * 64), va := va.toNat, ctx := x.ctx, kind := if cause = 1 then 0x04 else 0x03
          cls := if cause = 1 then 3 else clsCode (s.fmtAt loc), unit := if cause = 1 then coreOf g else unitOf loc, detail := 0, lanes := 0 }).trapt g 3 m cause

/-- In replay, the kill that the log has at group g's position (R311, R328 step 7, R539); the record's place and class, which no log
holds, are free (log entry 7). -/
def State.replayKill (s : State) (g : Nat) : State :=
  match s.traptDue g (· == 3) with
  | none => s
  | some r =>
    let m := BitVec.ofNat 32 (recField r 64 32) &&& (s.grp g).live
    let cause := recField r 96 8
    let (v, s1) := s.draw
    (s1.killNow g m { addr := v.toNat, va := 0, ctx := 0, kind := if cause = 1 then 0x04 else 0x03, cls := if cause = 1 then 3 else v.toNat % 3
                      unit := if cause = 1 then coreOf g else v.toNat / 4 % 65536, detail := 0, lanes := 0 }).trapt g 3 m cause

/-- A class-D detection borne by group g: the budget is debited, and ECCZ set but for an atomic performed at memory (R167); whether the debit
exhausts the budget (R294, R299, R300). -/
def State.bear (s : State) (g : Nat) (flag : Bool) : Bool × State :=
  let (ex, s1) := s.debit (s.grp g).ctx (.group g)
  (ex, if flag then s1.onGrp g fun x => { x with fflags := x.fflags ||| flECCZ.zeroExtend 64 } else s1)

/-- Send home and drop the copies of a line that clusters other than k hold. -/
def State.dropOthers (s : State) (k line : Nat) : State :=
  (List.range 12).foldl (fun st j => if j = k || (st.cluster j).l2.isEmpty then st else st.dropLine j line) s

/-- The cluster, plus 1, from which a line has to be recalled before an access by cluster k: 0 for none (R320). -/
def State.holder (s : State) (k line : Nat) : Nat :=
  let own := SMap.look s.hub.grants line 0
  if own = k + 1 then 0 else own

/-- An access of group g to a line takes a token at its home for a recall or a grant (R320). -/
def State.needsGrant (s : State) (g loc : Nat) (write : Bool) : Bool :=
  (s.session? (s.grp g).ctx).isSome && !isSpad loc &&
    (s.holder (cluOf (coreOf g)) (loc / 512) != 0 || (write && SMap.look s.hub.grants (loc / 512) 0 != cluOf (coreOf g) + 1))

/-- A token for a grant or a recall of a line, for requester `who` of context c (R320, R323). -/
def State.grantToken (s : State) (c line : Nat) (who : Asker) : State := s.tokenNow c 2 line who none

/-- A line is recalled from the cluster that it is granted to, unless that is cluster k: the cluster's open chunks that touched it end, what it
holds written goes home, and k's older copy goes (R320). In a replay no chunk ends for it (R328 step 2). -/
def State.recallLine (s : State) (c : Nat) (k : Option Nat) (line : Nat) (who : Asker) : State :=
  let own := match k with
    | some n => s.holder n line
    | none => SMap.look s.hub.grants line 0
  if own = 0 then s
  else
    let a := if (s.replaying? c).isSome then s else s.recallChunks (own - 1) line
    let b := (a.dropLine (own - 1) line).onHub fun h => { h with grants := SMap.put h.grants line 0 0 }
    (match k with
      | some n => b.dropLine n line
      | none => b).grantToken c line who

/-- In a recording or replaying context, a line goes to one cluster for writing, and is recalled for another's read or write;
each grant and recall takes a token (R320). Copies that a write makes old go. -/
def State.grantLine (s : State) (g loc : Nat) (write : Bool) : State :=
  let c := (s.grp g).ctx
  if (s.session? c).isNone then s
  else if isSpad loc then s.touchLine g (loc / 64 + 2 ^ 50) write
  else
    let line := loc / 512
    let k := cluOf (coreOf g)
    let s1 := s.recallLine c (some k) line (.group g)
    let s2 := if write && SMap.look s1.hub.grants line 0 ≠ k + 1 then
        ((s1.dropOthers k line).onHub fun h => { h with grants := SMap.put h.grants line (k + 1) 0 }).grantToken c line (.group g) else s1
    s2.touchLine g line write

/-- An access to a scratchpad word through a mapping window from another cluster takes a token there (R451). -/
def State.throughWindow (s : State) (g loc : Nat) : Bool :=
  isSpad loc && (loc - spadBase) / 2 ^ 25 != cluOf (coreOf g) && (s.session? (s.grp g).ctx).isSome

/-- That token. -/
def State.windowToken (s : State) (g loc : Nat) : State :=
  if s.throughWindow g loc then s.tokenNow (s.grp g).ctx 3 (loc - spadBase) (.group g) none else s

/-- The value of a load landing in its register: a scalar whole, a vector lane in one register or a pair (R411, R493). -/
def Group.landLoad (x : Group) (f : Flight) (v : Nat) : Group :=
  match f.dest with
  | [.s n] => x.setSabs n (BitVec.ofNat 64 (if f.sext then (sInt (8 * f.width) v % 2 ^ 64).toNat else v))
  | [r] => x.putLane r f.lane (BitVec.ofNat 32 v)
  | [r, q] => (x.putLane r f.lane (BitVec.ofNat 32 v)).putLane q f.lane (BitVec.ofNat 32 (v / 2 ^ 32))
  | _ => x

/-- The group without a flight, its counters counted again. -/
def Group.landed (x : Group) (f : Flight) : Group :=
  ({ x with flights := x.flights.filter (·.id != f.id) } : Group).recount

/-- The flights that a reply answers: the lanes of the same instruction that read the same sector or row and can be performed. -/
def Group.sameReply (x : Group) (f : Flight) : List Flight :=
  x.flights.filter fun e => e.id == f.id || (e.kind == f.kind && e.seq == f.seq && e.loc / 64 == f.loc / 64 && x.performable e)

/-- A reply from a poisoned sector or row: the lanes of a vector load that consume it are killed together, an atomic's one by one; a
scalar access kills every lane (R294, R310, R539). -/
def State.poisonReply (s : State) (g : Nat) (f : Flight) : State :=
  let scalar := match f.dest with
    | [.s _] => true
    | _ => false
  let fs := if f.kind = .load then (s.grp g).sameReply f else [f]
  let m := fs.foldl (fun (w : Word) e => w ||| BitVec.ofNat 32 (2 ^ e.lane)) 0
  (s.kill g (if scalar then (s.grp g).live else m) (if isSpad f.loc then 3 else 2) f.loc f.va).onGrp g fun x => fs.foldl Group.landed x

/-- A detection at a vector reply: an exhausting debit is owed by the covering WAITC or the marker (R480, R494). -/
def State.oweDetected (s : State) (g : Nat) (f : Flight) (tag : Tag) : State :=
  let (ex, s1) := s.bear g (isSpad f.loc || f.kind == .load)
  if ex then s1.onGrp g fun x => { x with owed := x.owed ++ [(tag, f.va)] } else s1

/-- An acquire at PKG or SYS scope: the cluster's invalidation, and the core's copy of the bound registers (R219, R465). -/
def State.acquireWide (s : State) (g : Nat) : State :=
  (s.invalidateAll (cluOf (coreOf g))).refreshBounds (coreOf g) (s.grp g).ctx (some g)

/-- A demand read of a sector: its miss or its use of a run-ahead prefetch is counted (R207, R337). -/
def State.demand (s : State) (g loc n : Nat) : State :=
  let k := cluOf (coreOf g)
  let x := s.sector k loc
  let c := (s.grp g).ctx
  let s1 := (if s.inL1 (coreOf g) loc n then s else s.bump (coreOf g) c 8 1).touchL1 (coreOf g) loc
  if x.ahead then (((s1.setSector k loc { x with ahead := false }).bump (coreOf g) c 3 1).bump (coreOf g) c 4 1) else s1

/-- A value read from host memory or a peer's window comes from outside: a recording context logs it as its input, and a replaying one takes the
logged bytes (R315, R316). -/
def State.outsideRead (s : State) (c loc n v : Nat) : Nat × State :=
  if !(isHost loc) && !(isPeer loc) then (v, s)
  else match s.replaying? c with
    | some (t, k) =>
      match takeRec (fun r => recKind r == 0x0A && recField r 64 64 == loc) (s.sess t k).log with
      | some (r, l) => (leNat ((r.drop 24).take n), (s.onSess t k fun x => { x with log := l }).takeTok 0 (loc / 512) .host)
      | none => (v, s)
    | none => (v, if (s.recording? c).isSome then s.inputNow c loc .host (leBytes n v) else s)

/-- A load performed (R175, R201, R212, R219, R294). -/
def State.performLoad (s : State) (g : Nat) (f : Flight) : State :=
  let k := cluOf (coreOf g)
  let c := (s.grp g).ctx
  let s0 := s.grantLine g f.loc false
  let s1 := if f.acquires && wideScope f.scope then s0.acquireWide g else s0
  let tag : Tag := match f.ctr with
    | some (q, n) => .split q n
    | none => .marker
  if isSpad f.loc then
    match (s1.windowToken g f.loc).readSector f.loc c f.va.toNat (.group g) with
    | (.poison, s2) => s2.poisonReply g f
    | (.detected, s2) => (s2.oweDetected g f tag).onGrp g fun x => (x.landLoad f 0).landed f
    | (.ok, s2) => s2.onGrp g fun x => (x.landLoad f (Memory.le s2.mem f.loc f.width)).landed f
  else
    match (s1.demand g f.loc f.width).l2Read k f.loc f.width c f.va.toNat f.hint (.group g) with
    | (.poison, _, s2) => s2.poisonReply g f
    | (.detected, v, s2) => (s2.oweDetected g f tag).onGrp g fun x => (x.landLoad f v).landed f
    | (.ok, v, s2) =>
      let (w, s3) := s2.outsideRead c f.loc f.width v
      s3.onGrp g fun x => (x.landLoad f w).landed f

/-- Poison of a scratchpad row or sector whose whole width the lanes of one store have now written goes (R295, R457). -/
def State.coverClear (s : State) (g : Nat) (f : Flight) : State :=
  if f.cover && !((s.grp g).flights.any fun e => e.seq == f.seq && e.id != f.id && e.loc / 64 == f.loc / 64) then
    if isSpad f.loc then s.onHub fun h => { h with poison := h.poison.filter (· != f.loc / 64) }
    else
      let x := s.sector (cluOf (coreOf g)) f.loc
      s.setSector (cluOf (coreOf g)) f.loc { x with poison := false }
  else s

/-- A store performed (R213, R219): in the cluster's L2 or at the scratchpad; a release at PKG or SYS writes the cluster's
bytes back, then its own. -/
def State.performStore (s : State) (g : Nat) (f : Flight) : State :=
  let k := cluOf (coreOf g)
  let c := (s.grp g).ctx
  let b := leBytes f.width f.data.toNat
  let wide := f.releases && wideScope f.scope
  let s0 := s.grantLine g f.loc true
  let s1 := if wide then s0.writeBackAll k else s0
  let s2 := if isSpad f.loc then (s1.windowToken g f.loc).setMem (Memory.setBytes s1.mem f.loc b)
    else (s1.touchL1 (coreOf g) f.loc).l2Write k f.loc b c f.va.toNat f.hint false
  let s3 := s2.coverClear g f
  let s4 := if wide && !isSpad f.loc then s3.writeBack k f.loc else s3
  s4.onGrp g (·.landed f)

/-- TKIND and LOC of an atomic's token (R323). -/
def atomTok (f : Flight) : Nat × Nat :=
  let scalar := match f.dest with
    | .s _ :: _ => true
    | _ => false
  if isSpad f.loc then (3, f.loc - spadBase) else if scalar then (0, f.loc / 512) else (1, f.loc / 512)

/-- The lane number of an atomic's token: vector atomics log one per lane. -/
def atomLane (f : Flight) : Option Nat :=
  match f.dest with
  | .s _ :: _ => none
  | _ => some f.lane

/-- An atomic performed at the point of coherence as one read and one write (R211, R363, R479, R480). -/
def State.performAtomic (s : State) (g : Nat) (f : Flight) (op : AtomOp) : State :=
  let k := cluOf (coreOf g)
  let c := (s.grp g).ctx
  let (tk, loc) := atomTok f
  let s0 := if isSpad f.loc then s.grantLine g f.loc true
    else ((if (s.session? c).isSome then s.recallLine c (some k) (f.loc / 512) (.group g) else s)).touchLine g (f.loc / 512) true
  let s1 := if f.releases && wideScope f.scope then s0.writeBackAll k else s0
  let s2 := if isSpad f.loc then s1 else
    let a := s1.writeBack k f.loc
    let b := if (s.session? c).isSome then a.dropOthers k (f.loc / 512) else a
    (b.setSector k f.loc Sector.empty).l3Touch f.loc f.hint true
  let s3 := s2.tokenNow c tk loc (.group g) (atomLane f)
  let s4 := if f.acquires && wideScope f.scope then s3.acquireWide g else s3
  match s4.readSector f.loc c f.va.toNat (.group g) with
  | (.poison, s5) => s5.poisonReply g f
  | (o, s5) =>
    let s6 := if o = .detected then s5.oweDetected g f .marker else s5
    let old := Memory.le s6.mem f.loc f.width
    let new := atomNew op f.width old (f.data.toNat % 2 ^ (8 * f.width)) (f.cmp.toNat % 2 ^ (8 * f.width))
    let s7 := if op = .cas && old ≠ f.cmp.toNat % 2 ^ (8 * f.width) then s6
      else (s6.setMem (Memory.setBytes s6.mem f.loc (leBytes f.width new))).l3Dirty f.loc (c + 1)
    s7.onGrp g fun x => (x.landLoad f old).landed f

/-- A fence, flush or invalidation performed (R218, R219): at PKG and SYS scope the cache actions of a release and of an
acquire. -/
def State.performFence (s : State) (g : Nat) (f : Flight) : State :=
  let k := cluOf (coreOf g)
  let rel := f.kind == .flush || f.ord == .release || f.ord == .acqRel || f.ord == .seq
  let acq := f.kind == .inval || (f.kind == .fence && (f.ord == .acquire || f.ord == .acqRel || f.ord == .seq))
  let s1 := if wideScope f.scope && rel && f.kind != .inval then s.writeBackAll k else s
  let s2 := if wideScope f.scope && acq && f.kind != .flush then (if f.kind = .fence then s1.acquireWide g else s1.invalidateAll k) else s1
  s2.onGrp g (·.landed f)

/-- A late result lands in registers whose stored words hold errors: a partial write's merge consumes the word, and the write encodes it anew
(R90 to R92). -/
def State.landsOn (s : State) (g : Nat) (dest : List RegId) (mask : Word) : State :=
  let x := s.grp g
  if x.regMarks.isEmpty then s
  else
    let s1 := (x.regMarks.filter fun m => dest.contains m.reg).foldl (fun st m =>
      let part := m.reg.isVec && mask &&& (st.grp g).live != (st.grp g).live
      match m.fault with
      | .correctable => if part then st.bump (coreOf g) x.ctx 12 1 else st
      | .located l => if part then st.kill g l 1 0 0 else st
      | .unlocated => if part then st.kill g (st.grp g).live 1 0 0 else st) s
    s1.onGrp g fun y => { y with regMarks := y.regMarks.filter fun m => !dest.contains m.reg }

/-- A spilled register reaches its attic location in the cluster's L2 (R86, R87): 64 bytes of a vector register, or 8 of a scalar one. -/
def State.performSpill (s : State) (g : Nat) (f : Flight) : State :=
  let b := if f.width = 64 then ((List.range 16).map fun i => leBytes 4 (vat f.value (f.lane + i) 0).toNat).flatten else leBytes 8 f.data.toNat
  ((s.grantLine g f.loc true).l2Write (cluOf (coreOf g)) f.loc b (s.grp g).ctx f.va.toNat f.hint (decide (f.width = 64))).onGrp g (·.landed f)

/-- A whole-register result lands: lanes, then flags (R86, R167, R490). -/
def State.performResult (s : State) (g : Nat) (f : Flight) : State :=
  (s.landsOn g f.dest f.mask).onGrp g fun x =>
    let x1 := match f.dest with
      | [.s n] => x.setSabs n f.data
      | [r] => x.setV r (mergeLanes x.live f.mask (x.getV r) f.value)
      | _ => x
    ({ x1 with fflags := x1.fflags ||| f.flags.zeroExtend 64 } : Group).landed f

/-- A flight of group g performed (R211, R219). -/
def State.perform (s : State) (g : Nat) (f : Flight) : State :=
  match f.kind with
  | .sfu => s.performResult g f
  | .fill => s.performResult g f
  | .spill => s.performSpill g f
  | .load => s.performLoad g f
  | .store => s.performStore g f
  | .atomic op => s.performAtomic g f op
  | .fence => s.performFence g f
  | .flush => s.performFence g f
  | .inval => s.performFence g f

/-- The flight refreshes the core's copy of the bound registers when it is performed (R465). -/
def Flight.widens (f : Flight) : Bool :=
  match f.kind with
  | .fence => f.ord == .acquire || f.ord == .acqRel || f.ord == .seq
  | .flush => false
  | .inval => false
  | _ => f.acquires

/-- The flight may be performed: every access ordered before it is, and a replay has reached its token (R215, R328). -/
def State.mayPerform (s : State) (g : Nat) (f : Flight) : Bool :=
  (s.grp g).performable f && (!(f.widens && wideScope f.scope) || s.tokenReady g 2 (boundLoc (s.grp g).ctx) none) &&
  (!((f.access || f.kind == .spill) && s.needsGrant g f.loc (f.kind == .store || f.kind == .spill)) || s.tokenReady g 2 (f.loc / 512) none) &&
  (!f.access || (s.tokenReady g 7 (f.loc / 512) none && ((s.loggedToken g 7 (f.loc / 512) none).isNone || s.tokenReady g 8 (s.grp g).ctx none))) && match f.kind with
    | .atomic _ => s.tokenReady g (atomTok f).1 (atomTok f).2 (atomLane f)
    | .load => !s.throughWindow g f.loc || s.tokenReady g 3 (f.loc - spadBase) none
    | .store => !s.throughWindow g f.loc || s.tokenReady g 3 (f.loc - spadBase) none
    | _ => true

/-- Perform a group's outstanding flights in order, n of them at most. -/
def State.drainN (s : State) (g : Nat) : Nat → State
  | 0 => s
  | n + 1 =>
    match (s.grp g).flights.find? (s.mayPerform g) with
    | none => s
    | some f => (s.perform g f).drainN g n

/-- Perform every outstanding flight of a group that may be. -/
def State.drain (s : State) (g : Nat) : State := s.drainN g (s.grp g).flights.length

/-- An access whose read the machine makes for an instruction before it completes, at the point of coherence (R221): the
outcome and the value. The cluster's own copy of the line goes, so that no later read of the cluster returns an older value (R212). -/
def State.readNow (s : State) (g loc n : Nat) (va : Dword) : SecOut × Nat × State :=
  let k := cluOf (coreOf g)
  let s1 := s.grantLine g loc false
  let s2 := if isSpad loc then s1 else (s1.writeBack k loc).setSector k loc Sector.empty
  match s2.readSector loc (s.grp g).ctx va.toNat (.group g) with
  | (o, s3) => (o, Memory.le s3.mem loc n, s3)

end Sys2Proof.Machine
end

