-- ==== Sys2Proof/Machine/Unit.lean ====
section
/-! DEFINITION. What a unit of the device does in a context on its own account: where its accesses go (R38, R257, R345), what they read and
write (R290, R294, R295, R297), mapping windows (R200, R202), and queue headers (R434). -/

namespace Sys2Proof.Machine

/-! ### Reads and writes -/

/-- Where a device unit's own access in a context goes: a walk at the homes, no TLB (R38, R257, R345). -/
def State.devSpot (s : State) (c : Nat) (va : Dword) (acc : Acc) : Spot × State :=
  if !canonical va || !(s.ctx c).used then (.bad, s)
  else
    let (r, s1) := s.walk 12 c va
    let s2 := s1.onCluster 12 fun q => { q with wcache := [] }
    match r with
    | .bad => (.bad, s2)
    | .poison => (.bad, s2.doom c 4)
    | .absent _ => (.park false, s2)
    | .leaf e =>
      match s2.leafCheck c acc e va with
      | .ok _ =>
        if acc ≠ .r && e.pte.getLsbD 8 && (s2.ctx c).exhausted then (.perm, s2)
        else (.loc (s2.pageByte (leafAddr e.pte) (va.toNat - e.base)) (pteHint e.pte) (e.pte.getLsbD 8), s2)
      | .park b => (.park b, s2)
      | .perm => (.perm, s2)
      | _ => (.bad, s2)

/-- Write bytes at a location on the device's account: at the home, with every cluster's copy of the line sent home first
and dropped (R37, R224). -/
def State.devWriteLoc (s : State) (loc : Nat) (b : List Byte) : State :=
  if isSpad loc then s.homeWrite loc b else
    let lines := (List.range (b.length / 512 + 2)).map (loc / 512 + ·)
    let s1 := (List.range 12).foldl (fun st k => if (st.cluster k).l2.isEmpty then st else
      lines.foldl (fun u n => if (u.cluster k).l2.any (·.1 / 8 == n) then u.dropLine k n else u) st) s
    s1.homeWrite loc b

/-- Bytes at a location as its home holds them. -/
def State.devReadLoc (s : State) (loc n : Nat) : List Byte := Memory.bytes s.mem loc n

/-- One step of CRC-16, polynomial 0x1021, high bit first (R289). -/
def crcBit (c : Nat) : Nat := if c.testBit 15 then Nat.xor (c * 2 % 2 ^ 16) 0x1021 else c * 2

/-- The CRC-16 of bytes, from initial value 0xFFFF (R289). -/
def crc16 (b : List Byte) : Nat := b.foldl (fun c x => (List.range 8).foldl (fun d _ => crcBit d) (Nat.xor c (x.toNat * 256))) 0xFFFF

/-- A raw byte of storage: where its line's format keeps check bytes, the code of their sector's data bytes, the low byte of a CRC first
(R289, log entry 11). -/
def State.rawByte (s : State) (loc : Nat) : Byte :=
  let line := loc / 512 * 512
  let o := loc % 512
  if !isLocal loc || o < lineData (s.fmtAt loc) then Memory.byte s.mem loc
  else match s.fmtAt loc with
    | .d =>
      let j := (o - 496) / 2
      BitVec.ofNat 8 (crc16 (s.devReadLoc (line + 64 * j) (if j = 7 then 48 else 64)) / 256 ^ (o % 2))
    | _ =>
      let j := (o - 448) / 8
      BitVec.ofNat 8 (Config.checkP j (leNat (s.devReadLoc (line + 64 * j) 64)) (o % 8))

/-- The location k data bytes after a location of the same page (R290). -/
def State.locPlus (s : State) (loc k : Nat) : Nat :=
  if isLocal loc then
    let f := loc / 2 ^ 21 * 2 ^ 21
    let c := s.fmtAt loc
    rawOf c f ((loc - f) / 512 * lineData c + (loc - f) % 512 + k)
  else loc + k

/-- Pieces, at most k, of n data bytes of a page from a location on, each without a gap: location and length (R290). -/
def State.runs (s : State) (loc n : Nat) : Nat → List (Nat × Nat)
  | 0 => []
  | k + 1 =>
    if n = 0 then []
    else
      let m := if isLocal loc then min n (lineData (s.fmtAt loc) - loc % 512) else n
      (loc, m) :: s.runs (s.locPlus loc m) (n - m) k

/-- Data bytes written in a page from a location on, on the device's account: a sector that they cover whole is written whole (R295). -/
def State.devWriteRow (s : State) (loc : Nat) (b : List Byte) : State :=
  ((s.runs loc b.length (b.length / 448 + 2)).foldl (fun (p : State × List Byte) r => (p.1.devWriteLoc r.1 (p.2.take r.2), p.2.drop r.2)) (s, b)).1

/-- What a read by a unit finds: the bytes, the offsets of the doublewords in poisoned sectors, and the detections (R294). -/
structure UnitRead where
  bytes : List Byte
  bad : List Nat
  seen : Nat
  deriving DecidableEq, Repr

/-- n doublewords of a page read from a location on by a unit for context c, as their homes read them (R294). -/
def State.unitBytes (s : State) (c va : Nat) (who : Asker) (loc : Nat) : Nat → UnitRead × State
  | 0 => ({ bytes := [], bad := [], seen := 0 }, s)
  | n + 1 =>
    let (r, s1) := s.unitBytes c va who loc n
    let l := s1.locPlus loc (8 * n)
    let (o, s2) := s1.readSector l c (va + 8 * n) who
    ({ bytes := r.bytes ++ leBytes 8 (Memory.le s2.mem l 8), bad := if o = .poison then r.bad ++ [8 * n] else r.bad
       seen := if o = .detected then r.seen + 1 else r.seen }, s2)

/-- The same, with each detection debited to the context (R299). -/
def State.unitData (s : State) (c va : Nat) (who : Asker) (loc n : Nat) : UnitRead × State :=
  let (r, s1) := s.unitBytes c va who loc n
  (r, (List.range r.seen).foldl (fun st _ => (st.debit c who).2) s1)

/-- A sector or row becomes poisoned. -/
def State.setPoison (s : State) (key : Nat) : State :=
  s.onHub fun h => { h with poison := if h.poison.contains key then h.poison else key :: h.poison }

/-- n data bytes moved by a unit for context c from one page or tile to another (R227, R294, R295): poison goes with them to a class-P page or a
scratchpad; to another class they go as zeros, and the budget is debited once (R297). -/
def State.moveData (s : State) (c va : Nat) (who : Asker) (src dst n : Nat) : State :=
  let (r, s1) := s.unitData c va who src (n / 8)
  let keeps := isSpad dst || decide (s1.fmtAt dst = .p)
  let b := if keeps || r.bad.isEmpty then r.bytes
    else (List.range (n / 8)).flatMap fun i => if r.bad.contains (8 * i) then List.replicate 8 0 else (r.bytes.drop (8 * i)).take 8
  let s2 := s1.devWriteRow dst b
  if keeps then r.bad.foldl (fun st i => st.setPoison (st.locPlus dst i / 64)) s2
  else if r.bad.isEmpty then s2 else (s2.debit c who).2

/-! ### Mapping windows -/

/-- The virtual address of byte i of a mapping window. -/
def winVa (e : Dword × Dword) (i : Nat) : Dword := ((BitVec.ofNat 64 (mapVa e + i)).truncate 56).signExtend 64

/-- The tiles of a mapping entry lie in one crew allocation of a context on its core (R200). -/
def State.mapTilesOk (s : State) (core c : Nat) (e : Dword × Dword) : Bool :=
  s.hub.crews.any fun w => w.2.away == 0 && w.2.core == core && w.2.ctx == c && decide (w.2.tile ≤ mapTile e) &&
    decide (mapTile e + mapLen e / 4096 ≤ w.2.tile + w.2.tiles)

/-- The window overlaps another valid entry of the context on any core (R200). -/
def State.mapOverlap (s : State) (core k c : Nat) (e : Dword × Dword) : Bool :=
  s.cores.any fun q => q.2.maps.any fun f => !(q.1 == core && f.1 == k) && mapV f.2 && mapCtx f.2 == c &&
    decide (mapVa f.2 < mapVa e + mapLen e) && decide (mapVa e < mapVa f.2 + mapLen f.2)

/-- Offsets of a window at which a page of 64 KiB starts in it. -/
def winPages (e : Dword × Dword) : List Nat :=
  (List.range (mapLen e / 4096)).map (4096 * ·) |>.filter fun i => i == 0 || (mapVa e + i) % 65536 == 0

/-- Bytes of a window that lie in one page of 64 KiB, from offset i on. -/
def winRun (e : Dword × Dword) (i : Nat) : Nat := min (mapLen e - i) (65536 - (mapVa e + i) % 65536)

/-- Lines of a window (R200). -/
def State.winLines (s : State) (c : Nat) (e : Dword × Dword) : List Nat :=
  ((winPages e).flatMap fun i => match (s.walk 12 c (winVa e i)).1 with
    | .leaf t =>
      let o := (winVa e i).toNat - t.base
      let lo := s.pageByte (leafAddr t.pte) o / 512
      (List.range (s.pageByte (leafAddr t.pte) (o + winRun e i - 1) / 512 + 1 - lo)).map (lo + ·)
    | _ => []).eraseDups

/-- Every page of a window is RESIDENT with the permission that its entry asks for (R200). -/
def State.winGood (s : State) (c : Nat) (e : Dword × Dword) : Bool :=
  (winPages e).all fun i => match (s.walk 12 c (winVa e i)).1 with
    | .leaf t => pteState t.pte == 0 && (match s.leafCheck c (if mapWr e then .w else .r) t (winVa e i) with
      | .ok _ => true
      | _ => false)
    | _ => false

/-- An entry k of a core is validated for context c: every cached copy of its window's lines goes home and is dropped, and the lines are
registered at their homes (R200). -/
def State.registerWindow (s : State) (core k : Nat) (e : Dword × Dword) (c : Nat) : State :=
  let ls := s.winLines c e
  (ls.foldl (fun st n => (List.range 12).foldl (fun st1 q => if (st1.cluster q).l2.isEmpty then st1 else st1.dropLine q n) st) s).onHub fun h =>
    { h with mapLines := ls.foldl (fun m n => SMap.ins m n (8 * core + k + 1)) h.mapLines }

/-- Mapping entry k of a core: its tiles' data written back to the backing pages (R202). -/
def State.mapWriteBack (s : State) (core k : Nat) : State :=
  let e := SMap.look (s.core core).maps k ((0, 0) : Dword × Dword)
  if !(mapV e) then s else
    (winPages e).foldl (fun st i =>
      match st.devSpot (mapCtx e) (winVa e i) (if mapWr e then .w else .r) with
      | (.loc l _ _, st1) => st1.moveData (mapCtx e) (winVa e i).toNat (.core core) (spadLoc core (mapTile e * 4096 + i)) l (winRun e i)
      | (_, st1) => st1) s

/-- The registration of an entry's window is dropped (R202). -/
def State.unregister (s : State) (core k : Nat) : State := s.onHub fun h => { h with mapLines := h.mapLines.filter (·.2 != 8 * core + k + 1) }

/-- A mapping entry cleared after its write-back (R202). -/
def State.mapClear (s : State) (core k : Nat) : State :=
  ((s.mapWriteBack core k).unregister core k).onCore core fun c => { c with maps := SMap.del c.maps k }

/-- A saved entry k comes back to a core with its context, validated anew; one that no longer passes a check of R200 stays away (R202, log
entry 79). -/
def State.mapAgain (s : State) (core c k : Nat) (e : Dword × Dword) : State :=
  if mapV (SMap.look (s.core core).maps k ((0, 0) : Dword × Dword)) || !s.mapTilesOk core c e || s.mapOverlap core k c e || !s.winGood c e then s
  else (s.registerWindow core k e c).onCore core fun y => { y with maps := SMap.ins y.maps k e }

/-! ### Queue headers -/

/-- A queue header as read at its home (R434). -/
structure QHdr where
  id : Nat
  loc : Nat
  logn : Nat
  e64 : Bool
  fabric : Bool
  peer : Nat
  ring : Dword
  head : Nat
  tail : Nat
  free : Nat
  inflight : Nat
  deriving DecidableEq, Repr

/-- Bytes of an entry. -/
def QHdr.size (h : QHdr) : Nat := if h.e64 then 64 else 8

/-- Filled slots. -/
def QHdr.filled (h : QHdr) : Nat := (h.tail + 2 ^ 64 - h.head) % 2 ^ 64

/-- The virtual address of the slot that a running count names. -/
def QHdr.slot (h : QHdr) (n : Nat) : Dword := h.ring + BitVec.ofNat 64 (n % 2 ^ h.logn * h.size)

/-- The context that a queue ID names, and the virtual address of its header (R434). -/
def queueCtx (id : Nat) : Nat := id / 2 ^ 26 % 64
def queueVa (id : Nat) : Dword := BitVec.ofNat 64 (id % 2 ^ 26 * 4096)

/-- The 64 bytes at a location as a header; none when MAGIC or a field breaks the table (R434). -/
def headerOf (id loc : Nat) (b : List Byte) : Option QHdr :=
  let h : QHdr := {
    id := id, loc := loc, logn := fieldAt b 4 1, e64 := bitN (fieldAt b 5 1) 0, fabric := bitN (fieldAt b 5 1) 1, peer := fieldAt b 6 1
    ring := BitVec.ofNat 64 (fieldAt b 8 8), head := fieldAt b 0x10 8, tail := fieldAt b 0x18 8, free := fieldAt b 0x20 4
    inflight := fieldAt b 0x24 4 }
  if fieldAt b 0 4 = 0x5A510001 && decide (1 ≤ h.logn) && decide (h.logn ≤ 16) && decide (fieldAt b 5 1 < 4) && decide (h.peer ≤ 15) &&
      fieldAt b 7 1 == 0 && h.ring.toNat % 64 == 0 && fieldAt b 0x28 24 == 0 && h.filled + h.free + h.inflight == 2 ^ h.logn then some h
  else none

/-- The header at a location of a class-P page (R434). -/
def State.headerAt (s : State) (id loc : Nat) : Option QHdr :=
  if isLocal loc && decide (s.fmtAt loc = .p) then headerOf id loc (s.devReadLoc loc 64) else none

/-- The wait operand of a group's image record; of a wait at a queue's home the address of its header (R286). -/
def State.waitOperand (s : State) (g : Nat) : Nat :=
  match s.hub.queueReqs.find? (·.gid == g) with
  | some r => (queueVa r.queue).toNat
  | none => (s.grp g).waitOperand

/-- HEAD, TAIL, FREE and INFLIGHT written at the home, where a queue operation always allocates its line (R180). -/
def State.setHeader (s : State) (h : QHdr) : State :=
  ((s.l3Touch h.loc 0 true).devWriteLoc (h.loc + 0x10) (leBytes 8 h.head ++ leBytes 8 h.tail ++ leBytes 4 h.free ++ leBytes 4 h.inflight)).l3Dirty h.loc
    (queueCtx h.id + 1)

/-- A queue as a device unit or a home finds it: no queue, a page that is parkable, or its header (R434). -/
inductive QFind where
  | none
  | park (cellar : Bool)
  | ok (h : QHdr)
  deriving DecidableEq, Repr

/-- A queue found by a unit of the device (R39, R434). -/
def State.findQueue (s : State) (id : Nat) : QFind × State :=
  match s.devSpot (queueCtx id) (queueVa id) .r with
  | (.loc l _ _, s1) =>
    match s1.readSector l (queueCtx id) (queueVa id).toNat .host with
    | (.poison, s2) => (.none, s2)
    | (_, s2) => match s2.headerAt id l with
      | some h => (.ok h, s2)
      | .none => (.none, s2)
  | (.park c, s1) => (.park c, s1)
  | (_, s1) => (.none, s1)

/-- A word of the device put into a queue in context c (R39): the slot at TAIL, which is free, takes an entry with it. The place of the slot
as found: done, or what stops the put. -/
def State.putWord (s : State) (h : QHdr) (c : Nat) (w : Dword) : Spot × State :=
  match s.devSpot c (h.slot h.tail) .w with
  | (.loc a hint enc, s1) =>
    let b := leBytes 8 w.toNat ++ if h.e64 then List.replicate 56 0 else []
    (.loc a hint enc, ((s1.tokenNow c 4 h.id .host none).devWriteRow a b).setHeader { h with free := h.free - 1, tail := (h.tail + 1) % 2 ^ 64 })
  | r => r

end Sys2Proof.Machine
end

