-- ==== Sys2Proof/Machine/Crew.lean ====
section
/-! DEFINITION. The ends of things: groups, crews, units and launches (R27, R33, R37, R38, R375, R398), contexts leaving and
joining cores (R43, R59, R198, R202, R337), device writes in a context, and termination (R288, R346). -/

namespace Sys2Proof.Machine

/-- Ring size of a sample or debug ring in bytes. -/
def SRing.size (r : SRing) : Nat := 2 ^ dbits r.slog2 5 0

/-- One record placed in a sample ring after any PAD it needs (R325, R335); the caller has checked that it fits. -/
def SRing.place (r : SRing) (m : Memory) (b : List Byte) : SRing × Memory :=
  let sz := r.size
  let base := r.sbase.toNat / 4096 * 4096
  let off := r.swr.toNat % sz
  let gap := if off + b.length > sz then sz - off else 0
  let m1 := if gap = 0 then m else Memory.setBytes m (hostLoc (base + off)) (leBytes gap (0x1F * 2048 + (gap / 8 - 1) * 64))
  let at0 := r.swr.toNat + gap
  ({ r with swr := BitVec.ofNat 64 (at0 + b.length) }, Memory.setBytes m1 (hostLoc (base + at0 % sz)) b)

/-- Bytes that a record and the PAD before it take. -/
def SRing.need (r : SRing) (at0 n : Nat) : Nat :=
  let off := at0 % r.size
  if off + n > r.size then r.size - off + n else n

/-- Append a record to a tenant's sample ring for context c: discarded without sampling, dropped and counted when the ring is
full, preceded by LOST when one fits again (R334 to R336). -/
def State.sample (s : State) (c : Nat) (b : List Byte) : State :=
  let t := (s.ctx c).tenant
  let tn := s.tenant t
  let r := tn.sampleRing
  if !(r.sen.getLsbD c) || ((s.ctx c).encl && !(s.ctx c).policy.getLsbD 1) then s
  else
    let room := fun (r : SRing) (n : Nat) => decide (r.swr.toNat + r.need r.swr.toNat n - r.srd.toNat ≤ r.size - 16)
    let lostRec := mkRec 0x02 16 0 [(64, 64, r.lost)]
    let (r1, m1) := if r.lost ≠ 0 && room r 16 then
        let (r', m') := r.place s.mem lostRec
        ({ r' with lost := 0 }, m')
      else (r, s.mem)
    if r1.lost = 0 && room r1 b.length then
      let (r2, m2) := r1.place m1 b
      (s.setTenant t { tn with sampleRing := r2 }).setMem m2
    else (s.setTenant t { tn with sampleRing := { r1 with lost := r1.lost + 1 } }).setMem m1

/-- Barrier object o of the cluster-wide index (R196): core and object. -/
def objCore (clu o : Nat) : Nat := 64 * clu + o / 64 % 64

/-- The state of a barrier object. -/
def State.obj (s : State) (core o : Nat) : BarObj := SMap.look (s.core core).bars (o % 64) BarObj.free

/-- One more arrival; at EXPECT the generation completes (R197). -/
def BarObj.arrive (x : BarObj) : BarObj :=
  if x.arrived + 1 = x.expect then { x with arrived := 0, gen := (x.gen + 1) % 65536 } else { x with arrived := x.arrived + 1 }

/-- The state with a barrier object replaced; a released one is restored to the context that waits for it, and arrivals held for
it are made (R198). -/
def State.setObj (s : State) (core o : Nat) (x : BarObj) : State :=
  s.onCore core fun c =>
    if x.held then { c with bars := SMap.put c.bars (o % 64) x BarObj.free }
    else match c.barsBack.find? (·.1 == o % 64) with
      | some (_, y) =>
        let z := (c.heldArr.filter fun a => a == (o % 64, y.ctx)).foldl (fun b _ => b.arrive) y
        { c with
          bars := SMap.put c.bars (o % 64) z BarObj.free, barsBack := c.barsBack.erase (o % 64, y)
          heldArr := c.heldArr.filter fun a => a != (o % 64, y.ctx) }
      | none => { c with bars := SMap.del c.bars (o % 64) }

/-- A bound group has ended (R375). -/
def BarObj.withdraw (x : BarObj) (gen : Nat) : BarObj :=
  let e := x.expect - 1
  let bump := { x with expect := e, arrived := 0, gen := (x.gen + 1) % 65536 }
  if gen = x.gen then
    if e = 0 then bump else { x with expect := e, arrived := x.arrived - 1 }
  else if e = 0 || decide (e ≤ x.arrived) then bump else { x with expect := e }

/-- A bound group has ended: the object, if its context still holds it, withdraws the group, where the object is saved or waits for its index
too (R27, R198, R375). -/
def State.withdraw (s : State) (core c o gen : Nat) : State :=
  let b := s.obj core o
  let w := fun (y : BarObj) => if y.ctx = c then y.withdraw gen else y
  if b.held && b.ctx == c then s.setObj core o (b.withdraw gen)
  else if (s.core core).barsBack.any fun e => e.1 == o % 64 && e.2.ctx == c then
    s.onCore core fun k => { k with barsBack := k.barsBack.map fun e => if e.1 = o % 64 then (e.1, w e.2) else e }
  else s.onCtx c fun x =>
    { x with barsAway := x.barsAway.map fun e => if e.1 = core && e.2.1 == o % 64 then (e.1, e.2.1, w e.2.2) else e }

/-- The bindings of a context's groups to an object that it releases go (R375). -/
def State.unbind (s : State) (core c o : Nat) : State :=
  (s.gidsCtx c).foldl (fun st g => st.onGrp g fun x => match x.binding with
    | some (n, _) => if n % 64 = o % 64 && decide (objCore (cluOf (coreOf g)) n = core) then { x with binding := none } else x
    | none => x) s

/-- Extent of level n of a launch. -/
def Launch.extent (l : Launch) (n : Nat) : Nat := (nth l.levels n { extent := 1, domain := 0, scope := 0, nofence := false }).extent

/-- Product of the extents of levels lo to hi. -/
def Launch.product (x : Launch) (lo hi : Nat) : Nat :=
  ((List.range (hi + 1)).filter (lo ≤ ·)).foldl (fun p n => p * x.extent n) 1

/-- Launch l of the hub, when it is listed. -/
def State.launch? (s : State) (l : Nat) : Option Launch := SMap.find? s.hub.launches l

/-- The state with launch l replaced. -/
def State.setLaunch (s : State) (l : Nat) (x : Launch) : State :=
  s.onHub fun h => { h with launches := SMap.ins h.launches l x }

/-- The vector that a launch's queue raises when the launch is finished, if its entry asks for one (R53, R55). -/
def State.notify (s : State) (x : Launch) : State :=
  match x.source with
  | some (t, q) =>
    let qc := (vat (s.tenant t).queues q SubQueue.reset).qctl
    if x.notify && qc.getLsbD 1 then s.irq t (dbits qc 18 8) else s
  | none => s

/-- The launch is finished (R55): completed, rejected or terminated, with only its completion word and its OUTQ put outstanding. -/
def Launch.finished (x : Launch) : Bool := x.stage == 4 || x.stage == 5

/-- Admitted, unfinished launches (R56). -/
def State.admitted (s : State) : Nat := (s.hub.launches.filter fun (e : Nat × Launch) => !e.2.finished && e.2.stage != 8).length

/-- The release of a unit has performed, or NOFENCE suppresses it: the unit counts at the next level; the top unit finishes the
launch (R33, R37, R55). At most n levels up. -/
def State.unitReleased (s : State) (l lv u : Nat) : Nat → State
  | 0 => s
  | n + 1 =>
    match s.launch? l with
    | none => s
    | some x =>
      let x1 := { x with releases := x.releases.filter (· != (lv, u)), retired := if lv = 1 then x.retired + 1 else x.retired }
      if x1.levels.length ≤ lv + 1 then (s.setLaunch l { x1 with stage := 4, status := 1 }).notify x1
      else
        let p := u / x1.extent (lv + 1)
        let key := (lv + 1) * 2 ^ 40 + p
        let c := SMap.look x1.ended key 0 + 1
        let x2 := { x1 with ended := SMap.put x1.ended key c 0 }
        if c < x1.extent (lv + 1) then s.setLaunch l x2
        else if (nth x2.levels (lv + 1) { extent := 1, domain := 0, scope := 0, nofence := false }).nofence then
          (s.setLaunch l x2).unitReleased l (lv + 1) p n
        else s.setLaunch l { x2 with releases := x2.releases ++ [(lv + 1, p)] }

/-- A command that the groups of unit u at level lv of a launch issued has not completed: the unit's release is still to cover what it writes
(R33). -/
def State.unitBusy (s : State) (l lv u : Nat) : Bool :=
  (s.launch? l).any fun x => s.cores.any fun (k : Nat × Core) => k.2.cmds.any fun q =>
    q.work.any fun w => w.1 == l && w.2 / x.product 2 lv == u

/-- A unit's last group has ended: its release is outstanding, or suppressed (R33). -/
def State.unitEnd (s : State) (l lv u : Nat) : State :=
  match s.launch? l with
  | none => s
  | some x =>
    if (nth x.levels lv { extent := 1, domain := 0, scope := 0, nofence := false }).nofence then s.unitReleased l lv u 9
    else s.setLaunch l { x with releases := x.releases ++ [(lv, u)] }

/-- A COUNTS record of a residency slot (R336, R337). -/
def State.countsRec (s : State) (core slot c : Nat) : List Byte :=
  leBytes 8 (0x03 * 2048 + 16 * 64 + core * 65536 + c * 2 ^ 37) ++
    ((List.range 16).map fun n => leBytes 8 (SMap.look (s.core core).counters (16 * slot + n) 0).toNat).flatten

/-- A core's deque that no one holds goes to the resident context, in slot order, that has contents saved there: they are restored, what was
saved first standing on top (R71, log entry 81). -/
def State.dequeTaken (s : State) (core : Nat) : State :=
  let k := s.core core
  if k.dqHolder.isSome then s
  else match (k.resident.toList.filterMap id).find? fun c => (s.ctx c).dequeBack.any (·.1 == core) with
    | none => s
    | some c =>
      (s.setCore core { k with dqHolder := some c, deque := ((s.ctx c).dequeBack.filter (·.1 == core)).flatMap (·.2) }).onCtx c fun x =>
        { x with dequeBack := x.dequeBack.filter (·.1 != core) }

/-- The context's last crew on a core has gone: residency, deque, barrier objects and mapping entries (R59, R71, R198, R202,
R337). -/
def State.leaveCore (s : State) (core c : Nat) : State :=
  let k := s.core core
  match (List.range 4).find? fun i => vat k.resident i none == some c with
  | none => s
  | some slot =>
    let s1 := s.sample c (s.countsRec core slot c)
    let mine := k.maps.filter fun e => mapV e.2 && mapCtx e.2 == c
    let s2 := mine.foldl (fun st e => (st.mapWriteBack core e.1).unregister core e.1) s1
    let objs := k.bars.filter fun e => e.2.held && e.2.ctx == c
    let late := (k.barsBack.filter fun e => e.2.ctx == c).map fun e =>
      (core, e.1, (k.heldArr.filter (· == (e.1, c))).foldl (fun (b : BarObj) _ => b.arrive) e.2)
    let held := k.dqHolder == some c
    let s3 := s2.onCtx c fun x =>
      { x with
        dequeBack := if held && !k.deque.isEmpty then x.dequeBack ++ [(core, k.deque)] else x.dequeBack
        barsAway := x.barsAway ++ (objs.map fun e => (core, e.1, e.2)) ++ late
        mapsBack := x.mapsBack ++ mine.map fun e => (core, e.1, e.2) }
    let s4 := s3.onCore core fun y =>
      { y with
        resident := vset y.resident slot none, sinceEvict := vset y.sinceEvict slot 0
        dqHolder := if held then none else y.dqHolder, deque := if held then [] else y.deque
        barsBack := y.barsBack.filter (fun e => e.2.ctx != c), heldArr := y.heldArr.filter (·.2 != c)
        maps := y.maps.filter fun e => !(mapV e.2 && mapCtx e.2 == c)
        bounds := SMap.del y.bounds c, counters := y.counters.filter fun e => e.1 / 16 != slot }
    (objs.foldl (fun st e => st.setObj core e.1 BarObj.free) s4).dequeTaken core

/-- A context takes a residency slot of a core, with what it left there (R59, R71, R76, R198, R337). The count of R49 starts with it (log entry
82). -/
def State.joinCore (s : State) (core c : Nat) : State :=
  let k := s.core core
  if (List.range 4).any fun i => vat k.resident i none == some c then s
  else match (List.range 4).find? fun i => vat k.resident i none == none with
    | none => s
    | some slot =>
      let x := s.ctx c
      let s1 := (s.onCore core fun y =>
        { y with resident := vset y.resident slot (some c), counters := y.counters.filter fun e => e.1 / 16 != slot }).dequeTaken core
      let s2 := (x.barsAway.filter (·.1 == core)).foldl (fun st e => st.onCore core fun y =>
        if (SMap.look y.bars e.2.1 BarObj.free).held then { y with barsBack := y.barsBack ++ [(e.2.1, e.2.2)] }
        else { y with bars := SMap.put y.bars e.2.1 e.2.2 BarObj.free }) s1
      (s2.refreshBounds core c none).onCtx c fun y => { y with barsAway := y.barsAway.filter (·.1 != core) }

/-- The mapping entries of a context that lie in n tiles from tile t of a core, which a crew has back, return (R202). -/
def State.mapsReturn (s : State) (core c t n : Nat) : State :=
  let mine := (s.ctx c).mapsBack.filter fun e => e.1 == core && decide (t ≤ mapTile e.2.2) && decide (mapTile e.2.2 < t + n)
  (mine.foldl (fun st e => st.mapAgain core c e.2.1 e.2.2) s).onCtx c fun x => { x with mapsBack := x.mapsBack.filter fun e => !mine.contains e }

/-- Crew w of the hub. -/
def State.crew? (s : State) (w : Nat) : Option Crew := SMap.find? s.hub.crews w

/-- The state with crew w replaced. -/
def State.setCrew (s : State) (w : Nat) (x : Crew) : State := s.onHub fun h => { h with crews := SMap.ins h.crews w x }

/-- A crew of context c is placed on a core (R59). -/
def State.residentCrew (s : State) (core c : Nat) : Bool := s.hub.crews.any fun e => e.2.away == 0 && e.2.core == core && e.2.ctx == c

/-- Some engine command not completed uses a tile of the run (R398). -/
def State.tilesBusy (s : State) (core t n : Nat) : Bool :=
  s.cores.any fun k => k.2.cmds.any fun q => q.tiles.any fun x => decide (core * 128 + t ≤ x) && decide (x < core * 128 + t + n)

/-- Free a crew's tiles, its mapping entries written back (R202, R398). -/
def State.freeTiles (s : State) (x : Crew) : State :=
  let s1 := (List.range 8).foldl (fun st i =>
    let e := SMap.look (st.core x.core).maps i ((0, 0) : Dword × Dword)
    if mapV e && decide (x.tile ≤ mapTile e) && decide (mapTile e < x.tile + x.tiles) then st.mapClear x.core i else st) s
  s1.onCore x.core fun k => { k with tiles := k.tiles.filter fun e => !(decide (x.tile ≤ e.1) && decide (e.1 < x.tile + x.tiles)) }

/-- A crew without groups retires once no engine command names its tiles (R27, R398). -/
def State.tryRetire (s : State) (w : Nat) : State :=
  match s.crew? w with
  | none => s
  | some x =>
    if !x.gids.isEmpty || x.away != 0 || s.tilesBusy x.core x.tile x.tiles then s
    else
      let s1 := (s.freeTiles x).onHub fun h => { h with crews := SMap.del h.crews w }
      let s2 := if s1.residentCrew x.core x.ctx then s1 else s1.leaveCore x.core x.ctx
      match x.launch with
      | none => s2
      | some l => s2.unitEnd l 1 x.scrw

/-- Every crew that can retire does (R398). -/
def State.retireCrews (s : State) : State := s.hub.crews.foldl (fun st e => st.tryRetire e.1) s

/-- Every engine command of the device replaced. -/
def State.mapCmds (s : State) (f : Cmd → Cmd) : State :=
  { s with cores := SMap.mapAll (fun (k : Core) => { k with cmds := k.cmds.map f }) Core.idle s.cores }

/-- The error record of a batch status that no instruction reported (R243, R542). -/
def State.unreported (s : State) (c core ordinal num status : Nat) : State :=
  s.err (some c) { addr := num + status * 65536, va := 0, ctx := c, kind := 0x0B, cls := 3, unit := 0x5000 + core, detail := ordinal, lanes := 0 }

/-- The group in slot g ends (R27, R375, R397, R398). -/
def State.groupEnd (s : State) (g : Nat) : State :=
  let s0 := s.endChunk g 13
  let x := s0.grp g
  if !x.used then s else
    let core := coreOf g
    let s1 := match x.binding with
      | none => s0
      | some (o, gen) => s0.withdraw (objCore (cluOf core) o) x.ctx o gen
    let told := x.batches.filter fun b => (b.retired || b.left == 0) && !b.reported && b.status != 0
    let s2 := told.foldl (fun st b => st.unreported x.ctx core x.ordinal b.num b.status) s1
    let kept := (x.batches.filter fun b => !b.retired && b.left != 0).map fun b => { b with closed := true }
    let key := 2 ^ 20 + (s2.core core).nextCmd
    let s3 := if kept.isEmpty then s2 else
      s2.onCore core fun k =>
        { k with
          nextCmd := k.nextCmd + 1
          orphans := k.orphans ++ kept.map fun b => (key, x.ctx, x.ordinal, b) }
    let s4 := s3.mapCmds fun q => if q.gid = g then { q with gid := key } else q
    let s5 := (s4.setGrp g Group.idle).onCore core fun k => { k with dqReqs := k.dqReqs.filter (·.gid != g) }
    let s6 := s5.onHub fun h =>
      { h with
        queueReqs := h.queueReqs.filter (·.gid != g)
        faults := h.faults.map fun (f : Nat × FaultRec) => (f.1, { f.2 with gids := f.2.gids.filter (· != g) }) }
    match s6.crew? x.crew with
    | none => s6
    | some w => (s6.setCrew x.crew { w with gids := w.gids.filter (· != g) }).tryRetire x.crew

/-- The completion word of a launch (R37). -/
def Launch.word (x : Launch) : Dword :=
  BitVec.ofNat 64 (x.status + (if x.status = 2 then x.reason else 0) * 256 + x.retired % 2 ^ 32 * 2 ^ 32)

/-- The release of a unit at its level's scope: beyond the cluster, every cluster's written bytes go home (R33, R219). -/
def State.releaseAt (s : State) (scope : Nat) : State :=
  if wideScope (scopeNat scope) then (List.range 12).foldl (fun st k => if (st.cluster k).l2.isEmpty then st else st.writeBackAll k) s else s

/-- Write a launch's completion word, a store with release at SYS scope; true when its page holds the write (R37, R38, R220). -/
def State.doneWord (s : State) (x : Launch) : Bool × State :=
  if x.donep = 0 || (x.status == 2 && !(canonical x.donep && x.donep.toNat % 8 == 0)) then (false, s)
  else match s.devSpot x.ctx x.donep .w with
    | (.loc l _ _, s1) => (false, ((s1.releaseAt 4).devWriteLoc l (leBytes 8 x.word.toNat)).devout x.ctx l x.word)
    | (.park _, s1) => (true, s1)
    | (_, s1) => (false, s1.err (some x.ctx) (ErrRec.mk4 0x0D x.ctx x.word.toNat x.donep.toNat))

/-- A finished launch with nothing outstanding is forgotten by the dispatcher. -/
def State.finishLaunch (s : State) (l : Nat) (x : Launch) : State := (s.onHub fun h => { h with launches := SMap.del h.launches l }).unmet x.ctx

/-- The rows of a context's tiles on a core are read: an error takes effect (R294, R298, R312). -/
def State.readTiles (s : State) (core c : Nat) : State :=
  ((s.core core).tiles.filter fun (e : Nat × Tile) => e.2.ctx == c).foldl (fun st e => (st.unitData c 0 (.core core) (spadLoc core (e.1 * 4096)) 512).2) s

/-- The notes of a core dump (R346), as type and contents (log entry 19). -/
def State.dumpNotes (s : State) (c reason : Nat) : List (Nat × List Byte) :=
  let x := s.ctx c
  let ls := s.hub.launches.filter (·.2.ctx == c)
  let process := (0x4701, leBytes 2 c ++ leBytes 1 x.tenant ++ leBytes 1 reason ++
    (ls.map fun e => leBytes 8 e.2.record.toNat ++ leBytes 4 0 ++ leBytes 4 e.2.next).flatten)
  let elog := (0x4709, (ErrRec.mk4 0x0C c reason 0).bytes 0)
  if x.encl && !x.policy.getLsbD 2 then [process]
  else
    let gs := (s.gidsCtx c).map fun g => s.grp g
    let cores := (s.cores.filter fun k => s.residentCrew k.1 c).map (·.1)
    process :: ((s.gidsCtx c).map fun g => (0x4702, groupRecord (s.grp g) 0 0 (s.waitOperand g))) ++ (gs.map fun g => (0x4703, vregBytes g ++ fileBytes g)) ++
    (gs.map fun g => (0x4704, sregBytes g)) ++
    (cores.map fun k => (0x4705, leBytes 2 k ++ leBytes 1 (clsCode (s.core k).format) ++
      packBits 64 (fun i => (s.tile k (i / 4)).owner.testBit (i % 4)) ++
      (((s.core k).tiles.filter fun e => e.2.ctx == c).map fun e => Memory.bytes s.mem (spadLoc k (e.1 * 4096)) 4096).flatten)) ++
    (cores.map fun k => (0x4706, leBytes 2 k ++ ((List.range 64).map fun o =>
      let b := s.obj k o
      leBytes 8 (b.expect + b.arrived * 2 ^ 16 + b.gen * 2 ^ 32 + b.ctx * 2 ^ 48 + (if b.held then 2 ^ 54 else 0))).flatten)) ++
    (cores.map fun k => (0x4707, (((s.core k).cmds.filter (·.ctx == c)).map fun q =>
      leBytes 8 q.a.toNat ++ leBytes 8 q.b.toNat ++ leBytes 8 q.e.toNat ++ leBytes 2 q.batch).flatten)) ++
    (cores.map fun k => (0x4708, leBytes 2 k ++ ((List.range 8).map fun i =>
      let e := SMap.look (s.core k).maps i ((0, 0) : Dword × Dword)
      leBytes 8 e.1.toNat ++ leBytes 8 e.2.toNat).flatten)) ++ [elog] ++
    gs.map fun g => (2 ^ 32 + x.attb.toNat + g.ordinal * 2 ^ x.atts,
      ((List.range g.vlow).map fun i => laneBytes g.live (g.vabs i)).flatten)

/-- The error records of the statuses of a group's batches that no instruction reported, as its context is terminated (R243, R288). -/
def State.batchesLost (s : State) (g : Nat) : State :=
  let x := s.grp g
  (x.batches.filter fun b => !b.reported && b.status != 0).foldl (fun st b => st.unreported x.ctx (coreOf g) x.ordinal b.num b.status) s

/-- The same for the batches of ended groups of the context. -/
def State.orphansLost (s : State) (c : Nat) : State :=
  (s.cores.flatMap fun (k : Nat × Core) => (k.2.orphans.filter fun o => o.2.1 == c && o.2.2.2.status != 0).map fun o => (k.1, o)).foldl
    (fun st o => st.unreported c o.1 o.2.2.2.1 o.2.2.2.2.num o.2.2.2.2.status) s

/-- A launch of a context that is terminated (R37, R39, R288): unless it was finished before, it is finished now with status 3; its completion
word is written or given up, and its OUTQ entry is put where the queue has a free slot (log entry 28). -/
def State.launchLost (s : State) (c l : Nat) (x : Launch) : State :=
  let y : Launch := if x.finished then x else { x with status := 3 }
  let s1 := if x.finished then s else s.notify x
  let s2 := if x.stage = 5 then s1 else match s1.doneWord y with
    | (true, u) => u.err (some c) (ErrRec.mk4 0x0D c y.word.toNat y.donep.toNat)
    | (false, u) => u
  let lost := fun (u : State) => u.err (some c) (ErrRec.mk4 0x10 c 0 (queueVa y.outq.toNat).toNat)
  let s3 := if y.outq = 0xFFFFFFFF || queueCtx y.outq.toNat != c then s2
    else match s2.findQueue y.outq.toNat with
      | (.ok h, u) => if h.free = 0 then lost u else match u.putWord h c y.word with
        | (.loc _ _ _, v) => v
        | (_, v) => lost v
      | (_, u) => lost u
  s3.finishLaunch l y

/-- A context is terminated (R288, R271, R37, R346, R535): its groups end, its engine commands stop, its faults are answered,
its launches write status 3, its core dump is taken, its resources are freed, and the error log has the reason. Whether an earlier image
of the tenant has by now been copied to the host is left open, and free (log entry 19). -/
def State.terminate (s : State) (c reason : Nat) : State :=
  let x := s.ctx c
  if !x.used then s else
    let sr := (s.cores.filter fun k => s.residentCrew k.1 c).foldl (fun st k => st.readTiles k.1 c) s
    let notes := sr.dumpNotes c reason
    let s1 := ((sr.gidsCtx c).foldl (fun st g => ((st.drain g).endChunk g 13).batchesLost g) sr).orphansLost c
    let s2 : State :=
      { s1 with
        groups := s1.groups.filter fun e => e.2.ctx != c
        checkpoints := s1.checkpoints.filter fun e => e.2.ctx != c
        cores := SMap.mapAll (fun (k : Core) =>
          { k with
            cmds := k.cmds.filter (·.ctx != c), matrixBusy := k.matrixBusy && !(k.cmds.any fun q => q.ctx == c && q.op.matrix && q.ended)
            orphans := k.orphans.filter (·.2.1 != c)
            tiles := k.tiles.filter (·.2.ctx != c)
            barsBack := k.barsBack.filter (fun e => e.2.ctx != c), heldArr := k.heldArr.filter (·.2 != c), maps := k.maps.filter (fun e => mapCtx e.2 != c)
            bins := k.bins.filter (·.ctx != c), buffer := k.buffer.filter (·.ctx != c), binCfg := k.binCfg.filter (·.1 != c)
            deque := if k.dqHolder = some c then [] else k.deque, dqHolder := if k.dqHolder = some c then none else k.dqHolder
            dqReqs := k.dqReqs.filter (fun r => (s1.grp r.gid).ctx != c)
            resident := k.resident.map (fun o => if o = some c then none else o), bounds := SMap.del k.bounds c
            l1tlb := k.l1tlb.filter (·.ctx != c) }) Core.idle s1.cores
        clusters := SMap.mapAll (fun (k : Cluster) =>
          { k with
            l2tlb := k.l2tlb.filter (·.ctx != c), wcache := k.wcache.filter (·.ctx != c), walks := k.walks.filter (·.ctx != c) })
          Cluster.empty s1.clusters }
    let objs := s2.cores.flatMap fun (k : Nat × Core) =>
      (k.2.bars.filter fun (e : Nat × BarObj) => e.2.held && e.2.ctx == c).map fun (e : Nat × BarObj) => (k.1, e.1)
    let s3 := (objs.foldl (fun st o => st.setObj o.1 o.2 BarObj.free) s2).onHub fun h =>
      { h with
        mapLines := h.mapLines.filter fun e =>
          let m := SMap.look (s1.core ((e.2 - 1) / 8)).maps ((e.2 - 1) % 8) ((0, 0) : Dword × Dword)
          !(mapV m && mapCtx m == c)
        crews := h.crews.filter (·.2.ctx != c), faults := h.faults.filter (·.2.ctx != c)
        queueReqs := h.queueReqs.filter (fun r => r.queue / 2 ^ 26 % 64 != c)
        peerReplies := h.peerReplies ++
          (h.queueReqs.filter fun r => r.queue / 2 ^ 26 % 64 == c && decide (2 ^ 20 ≤ r.gid) && decide (r.gid < 2 ^ 20 + 4096)).map fun r =>
            (r.gid - 2 ^ 20, 0x16, BitVec.ofNat 64 r.queue)
        migrations := h.migrations.filter (·.ctx != c) }
    let ls := s3.hub.launches.filter (·.2.ctx == c)
    let s4 := ls.foldl (fun st e => st.launchLost c e.1 e.2) s3
    let (v, s4b) := s4.draw
    let tn := s4b.tenant x.tenant
    let copied := tn.dump.isEmpty || v.getLsbD 0
    let busy := !copied
    let s5 := (s4b.setTenant x.tenant { tn with dump := if copied then notes else tn.dump }).onHub fun h =>
      if copied && !tn.dump.isEmpty then { h with dumped := h.dumped ++ [(x.tenant, tn.dump)] } else h
    let s6 := s5.err (some c) { ErrRec.mk4 0x0C c reason 0 with detail := if busy then 1 else 0 }
    let s7 := (s6.encFresh c).onHub fun h => { h with encPages := h.encPages.filter (·.2 != c + 1) }
    { s7 with ctxs := SMap.del s7.ctxs c }

/-- Terminate every context marked for it (R288, R309). -/
def State.reap (s : State) : State :=
  if s.hub.doomed.isEmpty then s else s.hub.doomed.foldl (fun st d => st.terminate d.1 d.2) (s.onHub fun h => { h with doomed := [] })

end Sys2Proof.Machine
end

