-- ==== Sys2Proof/Machine/Halt.lean ====
section
/-! DEFINITION. Page faults filed with the fault service unit (R265, R269), debug events and replies (R344, R345, R540), halts
(R342), breakpoints and watchpoints (R338 to R341), and the end of run-ahead (R206). -/

namespace Sys2Proof.Machine

/-- A faulting page holds an address (R269). -/
def FaultRec.covers (f : FaultRec) (va : Dword) : Bool := decide (f.page.toNat ≤ va.toNat) && decide (va.toNat < f.page.toNat + f.size)

/-- File a page fault; requests for one page of a context merge (R269). -/
def State.fileFault (s : State) (c : Nat) (va : Dword) (kind : Nat) (gids : List Nat) : State :=
  let sp := s.pageSpan c va
  let p : Dword := BitVec.ofNat 64 sp.1
  match List.find? (fun (f : Nat × FaultRec) => f.2.ctx == c && f.2.page == p) s.hub.faults with
  | some (k, f) =>
    s.onHub fun h => { h with faults := SMap.ins h.faults k { f with gids := f.gids ++ gids.filter fun g => !f.gids.contains g } }
  | none =>
    let f : FaultRec := { ctx := c, page := p, size := sp.2, kind := kind, pte := 0, why := 0, stage := 0, tag := 0, dst := 0, gids := gids }
    s.onHub fun h => { h with faults := SMap.ins h.faults h.nextFault f, nextFault := h.nextFault + 1 }

/-- One 64-byte message as bytes. -/
def msgBytes (m : List Dword) : List Byte := ((List.range 8).map fun i => leBytes 8 (m.getD i 0).toNat).flatten

/-- Room for n more messages in the debug ring (R540). -/
def SRing.fits64 (r : SRing) (n : Nat) : Bool := decide (r.swr.toNat + 64 * n - r.srd.toNat ≤ r.size)

/-- One message in the debug ring (R540). -/
def SRing.push64 (r : SRing) (m : Memory) (b : List Byte) : SRing × Memory :=
  ({ r with swr := r.swr + 64 }, Memory.setBytes m (hostLoc (r.sbase.toNat / 4096 * 4096 + r.swr.toNat % r.size)) b)

/-- A message to a tenant's debug ring (R540): none when it is full; the LOST message goes first when events were missed. -/
def State.debugMsg (s : State) (t : Nat) (b : List Byte) : Option State :=
  let tn := s.tenant t
  let r := tn.debugRing
  if !r.sen.getLsbD 0 then some s
  else if r.fits64 (if r.lost = 0 then 1 else 2) then
    let (r1, m1) := if r.lost = 0 then (r, s.mem) else
      let (r', m') := r.push64 s.mem (msgBytes [0x84, BitVec.ofNat 64 r.lost])
      ({ r' with lost := 0 }, m')
    let (r2, m2) := r1.push64 m1 b
    some ((s.setTenant t { tn with debugRing := r2 }).setMem m2)
  else none

/-- The record of a reply or event that was not written (R345, R542). -/
def State.replyLost (s : State) (t what core ctx addr : Nat) (host : Bool) : State :=
  s.errTo t { addr := if host then addr else 0, va := if host then 0 else addr, ctx := ctx, kind := 0x11, cls := 3, unit := core,
              detail := what, lanes := 0 }

/-- A reply or event written at a host I/O address of a tenant, or at a virtual address of a context (R344, R345). -/
def State.devMsg (s : State) (host : Bool) (t c : Nat) (addr : Dword) (b : List Byte) (what core : Nat) : State :=
  if host then
    if s.hub.linkUp then (s.setMem (Memory.setBytes s.mem (hostLoc addr.toNat) b)).inputNow c (hostLoc addr.toNat) .host b
    else s.replyLost t what core c addr.toNat true
  else match s.devSpot c addr .w with
    | (.loc l _ _, s1) => (s1.devWriteRow l b).inputNow c l .host b
    | (.park _, s1) =>
      (s1.fileFault c addr 1 []).onHub fun h =>
        { h with heldWrites := h.heldWrites ++ [{ what := what, core := core, ctx := c, addr := addr, data := b }] }
    | (_, s1) => s1.replyLost t what core c addr.toNat false

/-- The event of a halt (R345, R524). -/
def haltMsg (core : Nat) (x : Group) (reason : Nat) (hit idx : Nat) (pend : Bool) (addr : Dword) : List Byte :=
  msgBytes [BitVec.ofNat 64 (0x81 + reason * 256 + core * 65536 + x.ctx * 2 ^ 26 + x.ordinal % 2 ^ 15 * 2 ^ 32), x.pc,
    BitVec.ofNat 64 (x.em.toNat + x.live.toNat * 2 ^ 32),
    if reason = 1 then BitVec.ofNat 64 ((if pend then 2 ^ 40 else hit) + idx * 2 ^ 32) else 0, if reason = 2 then addr else 0]

/-- A group in run-ahead restores its checkpoint (R206). -/
def State.unrun (s : State) (g : Nat) : State :=
  match (s.grp g).runAhead with
  | none => s
  | some _ =>
    let c := SMap.look s.checkpoints g Group.idle
    { s.setGrp g { c with runAhead := none } with checkpoints := SMap.del s.checkpoints g }

/-- The core of a group: the one of its slot, or, while it is away, the one its crew left. -/
def State.homeCore (s : State) (g : Nat) : Nat := if g < 18432 then coreOf g else ((s.crew? (s.grp g).crew).map (·.core)).getD 0

/-- One group halts and writes its event (R342, R345); a halt between repeats keeps the repeat (R116). A group that is away stands at a boundary
and halts there, with no chunk to end (log entry 72). In replay a halt that the log does not have ends no chunk (log entry 41). -/
def State.haltOne (s : State) (g reason hit idx : Nat) (pend : Bool) (addr : Dword) : State :=
  let s0 := s.unrun g
  let x := s0.grp g
  let core := s0.homeCore g
  if x.halted || !x.used then s0 else
    let s1 := if decide (18432 ≤ g) || ((s0.replaying? x.ctx).isSome && (s0.traptDue g (· == 4)).isNone) then s0 else (s0.trapt g 4 0 0).endChunk g 14
    let s2 := s1.onGrp g fun y => { y with halted := true, step := none, noCheck := y.noCheck || reason == 1 || reason == 2 }
    let b := haltMsg core (s2.grp g) reason hit idx pend addr
    let s3 := match (s2.core core).setev with
      | none => s2
      | some e => if (s2.ctx x.ctx).tenant = e.tenant then s2.devMsg e.host e.tenant (if e.host then x.ctx else e.ctx) e.addr b 0x81 core else s2
    let t := (s3.ctx x.ctx).tenant
    match s3.debugMsg t b with
    | some s4 => s4
    | none => s3.onTenant t fun y => { y with debugRing := { y.debugRing with lost := y.debugRing.lost + 1 } }

/-- The groups that halt with g, also those that are away: 0 itself, 1 its crew, 2 its core, 3 its context (R342). -/
def State.haltGroups (s : State) (g gran : Nat) : List Nat :=
  let x := s.grp g
  (s.gidsCtx x.ctx).filter fun h => h != g && (match gran with
    | 1 => (s.grp h).crew == x.crew
    | 2 => coreOf h == coreOf g
    | 3 => true
    | _ => false)

/-- A group halts, and its set with it (R342). -/
def State.haltSet (s : State) (g gran reason hit idx : Nat) (pend : Bool) (addr : Dword) : State :=
  (s.haltGroups g gran).foldl (fun st h => st.haltOne h 5 0 0 false 0) (s.haltOne g reason hit idx pend addr)

/-- A comparison of a breakpoint (R339): 0 EQ, 1 NE, 2 LT, 3 GE; 0 signed, 1 unsigned, 2 F32. -/
def breakCmp (cmp typ w x imm : Nat) : Bool :=
  match typ with
  | 2 =>
    let a := fF32.dec (x % 2 ^ 32)
    let b := fF32.dec imm
    if a.isNan || b.isNan then cmp == 1 else
      match cmp with
      | 0 => a.eqv b
      | 1 => !a.eqv b
      | 2 => a.lt b
      | _ => !a.lt b
  | t =>
    let a : Int := if t = 0 then sInt w x else x
    let b : Int := if t = 0 then sInt 32 imm else imm
    match cmp with
    | 0 => a == b
    | 1 => a != b
    | 2 => decide (a < b)
    | _ => decide (b ≤ a)

/-- What a breakpoint does at group g's next bundle: the lanes that met the condition and whether the register is pending;
none when it does not fire (R339). -/
def State.breakFires (s : State) (g : Nat) (b : BreakReg) : Option (Word × Bool) :=
  let x := s.grp g
  let act := x.act
  let bits := fun hi lo => dbits b.bpc hi lo
  if !(b.bpc.getLsbD 0 && bits 15 10 == x.ctx && dbits b.bpa 55 2 == dbits x.pc 55 2) then none
  else if act = 0 && !b.bpc.getLsbD 17 then none
  else if !b.bpc.getLsbD 18 || act = 0 then some (act, false)
  else
    let f := bits 31 25
    let imm := bits 63 32
    if b.bpc.getLsbD 24 then
      if f < x.ws then
        if x.pending (.s (x.sb + f)) then some (0, true)
        else if breakCmp (bits 23 22) (bits 21 20) 64 (x.sabs (x.sb + f)).toNat imm then some (act, false) else none
      else none
    else
      let r : Option RegId := if f < x.wv then some (.v (x.vb + f)) else if f < 96 then none else if f < 112 then some (.o (f - 96))
        else if f < 120 then some (.h (f - 112)) else some (.s (x.sb + (f - 120)))
      match r with
      | none => none
      | some q =>
        if x.pending q then some (0, true)
        else
          let v := fun i => match q with
            | .s n => (x.sabs n).toNat % 2 ^ 32
            | _ => (vat (x.getV q) i 0).toNat
          let m := maskOf fun i => lane? act i && breakCmp (bits 23 22) (bits 21 20) 32 (v i) imm
          if (if b.bpc.getLsbD 19 then m = act else m ≠ 0) then some (m, false) else none

/-- The lowest breakpoint that fires at group g's next bundle (R339, R340). -/
def State.breakAt (s : State) (g : Nat) : Option (Nat × BreakReg × Word × Bool) :=
  let x := s.grp g
  if x.noCheck || x.runAhead.isSome then none
  else (s.core (coreOf g)).breaks.findSome? fun e => (s.breakFires g e.2).map fun (m, p) => (e.1, e.2, m, p)

/-- The watchpoint fires on accesses of n bytes (R341): the lowest touching lane's first byte in the range. -/
def watchHit (w : WatchReg) (c : Nat) (spad : Bool) (rd wr : Bool) (n : Nat) (addrs : List Dword) : Option Dword :=
  if !(w.wpc.getLsbD 0 && dbits w.wpc 15 10 == c && w.wpc.getLsbD 6 == spad && ((rd && w.wpc.getLsbD 5) || (wr && w.wpc.getLsbD 4))) then none
  else addrs.findSome? fun a =>
    if a.toNat < w.wpl.toNat && decide (w.wpa.toNat < a.toNat + n) then some (if a.toNat < w.wpa.toNat then w.wpa else a) else none

/-- The lowest watchpoint that an access of group g fires (R340, R341): the register, its index and the address. -/
def State.watchAt (s : State) (g : Nat) (spad rd wr : Bool) (n : Nat) (addrs : List Dword) : Option (Nat × WatchReg × Dword) :=
  let x := s.grp g
  if x.noCheck || x.runAhead.isSome then none
  else (s.core (coreOf g)).watches.findSome? fun e => (watchHit e.2 x.ctx spad rd wr n addrs).map fun a => (e.1, e.2, a)

end Sys2Proof.Machine
end

