-- ==== Sys2Proof/Machine/Ops.lean ====
section
/-! DEFINITION. What every bundle shares: taking a trap (R280 to R282) and returning from one (R283), parking (R80, R126),
passing a marker (R119), completing a repeat or a bundle (R101, R115, R317, R343), and run-ahead (R203 to R206). -/

namespace Sys2Proof.Machine

/-- How the execution of a bundle or repeat goes on. -/
inductive Eff where
  /-- performed; the next repeat or bundle follows -/
  | next (s : State)
  /-- performed; the bundle at `pc` follows -/
  | jump (pc : Dword) (s : State)
  /-- an exception is raised exactly; `s` holds what stays performed -/
  | trap (cause : Nat) (tval : Dword) (s : State)
  /-- the group parks with a stall reason; the bundle issues again when the condition holds -/
  | park (code : Nat) (c : Cond) (s : State)
  /-- the group has ended, is terminated or is halted where it stands -/
  | gone (s : State)
  deriving DecidableEq, Repr

/-- Repeats of a bundle (R113). -/
def repsOf (x : Pre) : Nat :=
  match x.px.rep with
  | none => 1
  | some r => r.count.toNat + 1

/-- Words of a bundle (R101). -/
def bundleWords (x : Pre) : Nat :=
  1 + (if x.px.imm.isSome then 1 else 0) + (if x.px.ord.isSome then 1 else 0) + (if x.px.rep.isSome then 1 else 0) +
    (if x.px.lane.isSome then 1 else 0)

/-- The address after the instruction word of the bundle (R101, R126). -/
def afterBundle (x : Pre) (pc : Dword) : Dword := pc + BitVec.ofNat 64 (4 * bundleWords x)

/-- The repeat at which the bundle at pc starts or stands (R115, R116). -/
def Group.atRep (x : Group) : Nat := if x.resume ≠ 0 then x.resume else x.rep

/-- Taking a trap on the current group's bundle (R115, R280, R282, R317): a double trap, or one without a handler, terminates
the context with reason 0x01. -/
def State.raise (s : State) (cause : Nat) (tval : Dword) (inRep : Bool) : State :=
  let x := s.me
  let tvec := (s.ctx x.ctx).tvec
  if x.intrap || tvec == 0 then s.doom x.ctx 1
  else
    let s1 := if (s.replaying? x.ctx).isSome && (match s.nextChunk s.cur with
        | some (_, _, _, why) => why != 8 && x.chunk.count != 0
        | none => true) then s.diverge x.ctx 0x04 else s
    let s2 := s1.endChunk s.cur 8
    let s3 := if cause = 2 then s2.bump (coreOf s.cur) x.ctx 11 1 else s2
    s3.onMe fun y =>
      { y with
        tcause := BitVec.ofNat 64 (cause + if inRep then 256 else 0), tpc := y.pc, tval := tval, intrap := true, pc := tvec
        rpidx := if inRep then BitVec.ofNat 64 y.atRep else y.rpidx
        kept := if y.unfin ≠ 0 ∧ y.unfinPc = y.pc then
            some { pc := y.pc, unfin := y.unfin, load := y.partLoad, clamped := y.clamped } else none
        unfin := 0, partLoad := none, clamped := false
        rep := 0, resume := 0, wait := Wait.none, walked := [], givenUp := [], noCheck := false, queued := 0 }

/-- The return from a trap handler (R116, R267, R283, R340), for a group in a handler: the unfinished lanes of the trapping bundle
are taken up when the return goes to it, and discarded otherwise. -/
def Group.returnFromTrap (x : Group) : Group :=
  let k := x.kept.filter fun k => k.pc == x.tpc
  Group.recount {
    x with
    intrap := false, pc := x.tpc, resume := dbits x.rpidx 5 0, rpidx := 0, rep := 0
    kept := none, unfin := (k.map (·.unfin)).getD 0, unfinPc := x.tpc, partLoad := k.bind (·.load)
    clamped := (k.map (·.clamped)).getD false
    noCheck := dbits x.tcause 7 0 == 0x0C || dbits x.tcause 7 0 == 0x0D }

/-- The current group parks (R80, R126). -/
def State.parkMe (s : State) (code : Nat) (c : Cond) : State := s.onMe fun x => { x with wait := { code := code, cond := c } }

/-- A wait for request slots (R188). -/
def Cond.forSlots : Cond → Bool
  | .slots _ => true
  | .caps _ _ => true
  | _ => false

/-- A group that parks for request slots takes its place behind the core's groups that already wait for them, and keeps it until its bundle
is performed (R188). -/
def State.lineUp (s : State) (c : Cond) : State :=
  if c.forSlots && s.me.queued == 0 then
    let n := (s.core (coreOf s.cur)).parks + 1
    (s.onCore (coreOf s.cur) fun k => { k with parks := n }).onMe fun x => { x with queued := n }
  else s

/-- A result that a marker waits for (the first four rows of R119, and R86's spills). -/
def Flight.markerResult (f : Flight) : Bool := (!f.dest.isEmpty && f.ctr.isNone) || f.kind == .spill

/-- The stall reason of a marker's oldest pending result (R80). -/
def Group.markerCode (x : Group) : Nat :=
  match x.flights.find? Flight.markerResult with
  | none => 1
  | some f => match f.kind with
    | .fill => 3
    | .spill => 3
    | .sfu => 6
    | .atomic _ => 1
    | _ => match f.dest with
      | [.s _] => 4
      | _ => 5

/-- The group passes a switch marker: marker results are no longer pending (R119, R480). -/
def Group.passMarker (x : Group) : Group :=
  { x with
    pend := x.pend.filter (·.2 != .marker)
    due := x.due ++ (x.owed.filter (·.1 == .marker)).map (·.2), owed := x.owed.filter (·.1 != .marker), wait := Wait.none }

/-- A single-stepped group at the boundary after its bundle or repeat: it halts, or STEP is raised (R281, R343). -/
def State.stepBoundary (s : State) (g : Nat) : State :=
  match (s.grp g).step with
  | none => s
  | some true =>
    let s1 := { s.onGrp g fun x => { x with step := none } with cur := g }
    s1.raise 0x0E (s.grp g).stepPc (decide ((s.grp g).rep ≠ 0))
  | some false => s.haltOne g 3 0 0 false 0

/-- Groups of a core in run-ahead (R203). -/
def State.runners (s : State) (core : Nat) : Nat := ((s.gidsOn core).filter fun g => (s.grp g).runAhead.isSome).length

/-- The launch of a group enables run-ahead (R203). -/
def State.mayRun (s : State) (g : Nat) : Bool :=
  match s.crew? (s.grp g).crew with
  | some w => w.runahead
  | none => false

/-- An outstanding load that misses in its cluster's L2 (R203). -/
def State.missing (s : State) (g : Nat) (f : Flight) : Bool :=
  f.kind == .load && !isSpad f.loc &&
    decide ((s.sector (cluOf (coreOf g)) f.loc).valid &&& byteMask (f.loc % 64) f.width ≠ byteMask (f.loc % 64) f.width)

/-- Instead of staying parked on a load that misses in L2, the group checkpoints and runs ahead (R203). The group's next bundle
is at `pc`. -/
def State.enterRunAhead (s : State) (g : Nat) (pc : Dword) (p : Flight → Bool) : State :=
  let x := s.grp g
  match x.flights.find? fun f => p f && s.missing g f with
  | none => s
  | some f =>
    if s.mayRun g && x.runAhead.isNone && decide (s.runners (coreOf g) < 4) then
      let ra : RunAhead := { bundles := 0, bad := [], badPreds := [], stopped := false, badEm := false, awaited := f.seq }
      (({ s with checkpoints := SMap.put s.checkpoints g x Group.idle }).setGrp g
        { x with wait := Wait.none, pc := pc, rep := 0, runAhead := some ra }).bump (coreOf g) x.ctx 5 1
    else s

/-- The repeat or bundle of the current group is performed: it counts in its chunk, the next repeat or bundle stands next, a
marker parks the group behind its results, and a step ends (R101, R115, R119, R317, R343). -/
def State.complete (s : State) (x : Pre) (code : Option Nat) (dest : Option Dword) : State :=
  let g := s.cur
  let c := s.me.ctx
  let s1 := (if (s.session? c).isSome then (s.drain g).countInstr g code else s).bump (coreOf g) c 0 1
  let y := s1.me
  let more := dest.isNone && decide (y.rep + 1 < repsOf x)
  let y1 : Group :=
    if more then { y with rep := y.rep + 1, unfin := 0, clamped := false, walked := [], givenUp := [], noCheck := false, partLoad := none, queued := 0 }
    else { y with pc := dest.getD (afterBundle x y.pc), rep := 0, unfin := 0, clamped := false, walked := [], givenUp := [], noCheck := false,
                  partLoad := none, queued := 0 }
  let y2 : Group := if !more && x.z then
      if y1.flights.any Flight.markerResult then { y1 with wait := { code := y1.markerCode, cond := .marker } } else y1.passMarker
    else y1
  let s2 := s1.setGrp g y2
  if y2.wait.cond = .marker then s2.enterRunAhead g y2.pc (fun f => f.dest matches [.s _]) else s2.stepBoundary g

/-- The effect of a bundle as an outcome of the machine. -/
def finish (x : Pre) (code : Option Nat) (e : Eff) : Host.Outcome State Fault Refusal :=
  match e with
  | .next s => .next (s.complete x code none).reap
  | .jump pc s => .next (s.complete x code (some pc)).reap
  | .trap cause tval s => .next (s.raise cause tval x.px.rep.isSome).reap
  | .park n c s => .next (((s.lineUp c).parkMe n c).opened s.cur c).reap
  | .gone s => .next s.reap

/-- The run-ahead group stops issuing and waits for the awaited load (R206). -/
def State.runStop (s : State) : State :=
  s.onMe fun x => { x with runAhead := x.runAhead.map fun r => { r with stopped := true }, wait := { code := 22, cond := .quiet } }

/-- A bundle performed in run-ahead: the registers it wrote get or lose an invalid mark; at 512 bundles it ends (R204, R206). -/
def State.runNext (s : State) (x : Pre) (dest : Option Dword) (bad good : List RegId) (badP goodP : List Nat) : State :=
  let y := s.me
  match y.runAhead with
  | none => s
  | some r =>
    let more := dest.isNone && decide (y.rep + 1 < repsOf x)
    let r1 := { r with bundles := if more then r.bundles else r.bundles + 1, bad := bad ++ r.bad.filter fun q => !good.contains q,
                       badPreds := badP ++ r.badPreds.filter fun q => !goodP.contains q }
    let y1 : Group := if more then { y with rep := y.rep + 1, walked := [], runAhead := some r1 }
      else { y with pc := dest.getD (afterBundle x y.pc), rep := 0, walked := [], runAhead := some r1 }
    if 512 ≤ r1.bundles then s.unrun s.cur
    else
      let s1 := s.setGrp s.cur y1
      if !more && x.z then s1.runStop else s1

/-- A flight of group g performed; in run-ahead it lands in the checkpoint, and the awaited load ends the run-ahead (R206). -/
def State.performG (s : State) (g : Nat) (f : Flight) : State :=
  match (s.grp g).runAhead with
  | none => s.perform g f
  | some r =>
    let ahead := s.grp g
    let s1 := (s.unrun g).perform g f
    if f.seq = r.awaited && !((s1.grp g).flights.any (·.seq == r.awaited)) then s1
    else
      let c := s1.grp g
      ({ s1 with checkpoints := SMap.put s1.checkpoints g c Group.idle }).setGrp g { ahead with flights := c.flights }

end Sys2Proof.Machine
end

