-- ==== Sys2Proof/Machine/Operands.lean ====
section
/-! DEFINITION. Register fields: their classes (R104 to R107, R132), the steps of REP (R113, R114), pending registers (R120,
R122), reading and writing operands (R83, R91, R105 to R109, R117, R118), and the common issue of a bundle (R124). -/

namespace Sys2Proof.Machine

/-- The position of a register field (R103). -/
inductive Pos where
  | d
  | a
  | b
  | e
  deriving DecidableEq, Repr

/-- Field classes (R104), Q (R132) and t, an even scalar register with its odd partner (R132, R390, R435). -/
inductive FCls where
  | v
  | w
  | s
  | p
  | c
  | bd
  | q
  | t
  deriving DecidableEq, Repr

/-- How an instruction uses a field. -/
inductive FUse where
  | rd
  | wr
  | rw
  deriving DecidableEq, Repr

/-- One register field of an instruction. -/
structure Fld where
  pos : Pos
  cls : FCls
  use : FUse
  val : Reg
  deriving DecidableEq, Repr

/-- What an instruction is in run-ahead (R204 to R206): computed on registers, a load, a branch, or a reason to stop. -/
inductive Kind where
  | calc
  | load
  | branch
  | stop
  deriving DecidableEq, Repr

/-- An instruction as its issue sees it: its word, its fields, whether it raises PRIV, and the reason for which it ends its
chunk (R317). -/
structure Op where
  word : Word
  flds : List Fld
  kind : Kind
  priv : Bool
  code : Option Nat
  deriving DecidableEq, Repr

/-- Field values of the current repeat. -/
structure Flds where
  d : Reg
  a : Reg
  b : Reg
  e : Reg
  deriving DecidableEq, Repr

/-- The destination may be written: o and window registers only (R82, R105 to R107). -/
def FUse.writes : FUse → Bool
  | .rd => false
  | _ => true

/-- The ILLEGAL reason of a field value, when its class does not take it (R104 to R107, R132). -/
def fieldReason (g : Group) (c : FCls) (u : FUse) (n : Nat) : Option Nat :=
  match c with
  | .v => if n < g.wv then none else if n < 96 then some 3 else if n < 112 then none else if u.writes then some 4 else none
  | .w =>
    if n < 120 && n % 2 == 1 then some 0x0B
    else if n + 1 < g.wv then none
    else if n < 96 then some 3
    else if n < 112 then none
    else if u.writes then some 4 else none
  | .s => if n < g.ws then none else if n < 96 then some 3 else if 112 ≤ n then some 3 else if u.writes then some 4 else none
  | .p => if n < 8 then none else some 3
  | .c => if n < 16 then none else some 3
  | .bd => if n < 16 then none else some 3
  | .q => if n % 4 = 0 && (decide (n + 4 ≤ g.wv) || (decide (96 ≤ n) && decide (n < 112))) then none else some 3
  | .t => if n % 2 = 1 || decide (95 ≤ n) then some 0x0B else if n < g.ws then none else some 3

/-- The row of a field's decode table (R114): the window, o0 to o15, h0 to h7, the s0 to s7 broadcast, the special scalars. -/
def fieldRow (c : FCls) (n : Nat) : Nat :=
  if n < 96 then 0
  else match c with
    | .s => if n < 112 then 1 else 9
    | _ => if n < 112 then 1 else if n < 120 then 2 else if n < 128 then 3 else 9

/-- REP steps this position (R113). -/
def RepPfxSteps (r : RepPfx) : Pos → Bool
  | .d => r.d
  | .a => r.a
  | .b => r.b
  | .e => false

/-- Registers per step (R113). -/
def repStride (r : RepPfx) : Nat := 2 ^ r.stride.toNat

/-- The value of a field in repeat k (R113). -/
def fieldAtRep (x : Pre) (p : Pos) (n k : Nat) : Nat :=
  match x.px.rep with
  | none => n
  | some r => if RepPfxSteps r p then n + k * repStride r else n

/-- The position that IMM makes immediate in formats with a register there (R108). -/
def immPos (fs : List Fld) : Pos := if fs.any (·.pos == .e) then .e else .b

/-- The register fields that remain under the bundle's prefixes. -/
def liveFlds (x : Pre) (fs : List Fld) : List Fld := if x.px.imm.isSome then fs.filter fun f => f.pos != immPos fs else fs

/-- TVAL of ILLEGAL (R125): the word, the reason and the repeat. -/
def illegalVal (w : Word) (reason k : Nat) : Dword := BitVec.ofNat 64 (w.toNat + reason * 2 ^ 32 + k * 2 ^ 40)

/-- The first field whose value its class does not take (R124 step 4, log entry 13). -/
def fieldErr (g : Group) (w : Word) (fs : List Fld) : Option Dword :=
  fs.findSome? fun f => (fieldReason g f.cls f.use f.val.toNat).map fun r => illegalVal w r 0

/-- A field that REP steps out of its row in repeat k, or to a value its class does not take there (R114). -/
def leavesRow (g : Group) (x : Pre) (f : Fld) (k : Nat) : Bool :=
  let n := fieldAtRep x f.pos f.val.toNat k
  fieldRow f.cls n != fieldRow f.cls f.val.toNat || (fieldReason g f.cls f.use n).isSome

/-- The REP limits of R114, of R132 and of R362 for a CAS pair: reason and repeat. -/
def repErr (g : Group) (x : Pre) (fs : List Fld) : Option (Nat × Nat) :=
  match x.px.rep with
  | none => none
  | some r =>
    let ps := [Pos.d, Pos.a, Pos.b].filter (RepPfxSteps r)
    let bad := ps.any fun p => match (liveFlds x fs).find? (·.pos == p) with
      | none => true
      | some f => f.cls == .p || f.cls == .c || f.cls == .bd || f.cls == .q || (f.cls == .w && repStride r == 1)
    if bad then some (8, 0)
    else if ps.any fun p => (liveFlds x fs).any fun f => f.pos == p && f.cls == .t && repStride r % 2 == 1 && decide (1 < repsOf x) then some (0x0B, 0)
    else ((List.range (repsOf x)).find? fun k => (liveFlds x fs).any fun f => RepPfxSteps r f.pos && leavesRow g x f k).map fun k => (8, k)

/-- The REP word of a bundle, for TVAL (R125). -/
def repWordOf (x : Pre) : Word :=
  match x.px.rep with
  | none => 0
  | some r => repWord r

/-- The repeat at which a bundle starts or goes on (R115, R116). -/
def startRep (x : Pre) (g : Group) : Nat :=
  if x.px.rep.isNone then 0 else if g.resume ≠ 0 then g.resume else g.rep

/-- R124 step 4: fields, REP limits, resume index; the TVAL of ILLEGAL (R116, R125). -/
def decodeErr (x : Pre) (o : Op) (g : Group) : Option Dword :=
  match fieldErr g o.word (liveFlds x o.flds) with
  | some v => some v
  | none =>
    match repErr g x o.flds with
    | some (0x0B, _) => some (illegalVal o.word 0x0B 0)
    | some (r, k) => some (illegalVal (repWordOf x) r k)
    | none => if repsOf x ≤ startRep x g then some (illegalVal (repWordOf x) 0x0A 0) else none

/-- The registers that a field value names (R105 to R107, R132). -/
def fieldRegs (g : Group) (c : FCls) (n : Nat) : List RegId :=
  let v1 := fun n => if n < 96 then RegId.v (g.vb + n) else if n < 112 then .o (n - 96) else if n < 120 then .h (n - 112) else .s (g.sb + (n - 120))
  match c with
  | .v => [v1 n]
  | .w => if n < 112 then [v1 n, v1 (n + 1)] else if n < 120 then [.h (n - 111), .h (n - 112)] else [v1 n]
  | .q => [v1 n, v1 (n + 1), v1 (n + 2), v1 (n + 3)]
  | .s => if n < 96 then [.s (g.sb + n)] else []
  | .t => [.s (g.sb + n), .s (g.sb + n + 1)]
  | _ => []

/-- The group goes on with a bundle of which some lanes have performed (R226). -/
def Group.resumes (g : Group) : Bool := g.unfin != 0 && g.unfinPc == g.pc

/-- The first pending field: TVAL of MARKV (R120, R122); a field that is read and written counts as a write (log entry 78). -/
def pendErr (x : Pre) (fs : List Fld) (g : Group) (k : Nat) : Option Dword :=
  (liveFlds x fs).findSome? fun f =>
    let n := fieldAtRep x f.pos f.val.toNat k
    if (fieldRegs g f.cls n).any g.pending then
      let cl := if f.cls == .s || f.cls == .t then 128 else 0
      some (BitVec.ofNat 64 (n + cl + if f.use.writes then 512 else 0))
    else none

/-- The first pending field of a bundle, beside the destinations of a partly performed one that goes on, which its own earlier lanes made
pending (R120, R226). -/
def pendNow (x : Pre) (fs : List Fld) (g : Group) (k : Nat) : Option Dword :=
  if g.resumes then
    let own := ((liveFlds x fs).filter fun f => f.use.writes).flatMap fun f => fieldRegs g f.cls (fieldAtRep x f.pos f.val.toNat k)
    pendErr x fs { g with pend := g.pend.filter fun p => !own.contains p.1 } k
  else pendErr x fs g k

/-- The value of the field at a position in repeat k; zero where the instruction has none. -/
def fieldVal (x : Pre) (fs : List Fld) (p : Pos) (k : Nat) : Reg :=
  match fs.find? (·.pos == p) with
  | none => 0
  | some f => BitVec.ofNat 7 (fieldAtRep x p f.val.toNat k)

/-- The field values of repeat k. -/
def fldsAt (x : Pre) (fs : List Fld) (k : Nat) : Flds :=
  { d := fieldVal x fs .d k, a := fieldVal x fs .a k, b := fieldVal x fs .b k, e := fieldVal x fs .e k }

/-- Registers read by a bundle's fields in repeat k. -/
def readRegs (x : Pre) (fs : List Fld) (g : Group) (k : Nat) : List RegId :=
  ((liveFlds x fs).filter fun f => f.use != .wr).flatMap fun f => fieldRegs g f.cls (fieldAtRep x f.pos f.val.toNat k)

/-- Registers written by a bundle's fields in repeat k. -/
def writeRegs (x : Pre) (fs : List Fld) (g : Group) (k : Nat) : List RegId :=
  ((liveFlds x fs).filter fun f => f.use.writes).flatMap fun f => fieldRegs g f.cls (fieldAtRep x f.pos f.val.toNat k)

/-- Predicates named by fields of a use. -/
def predRegs (fs : List Fld) (w : Bool) : List Nat :=
  (fs.filter fun f => f.cls == .p && (if w then f.use.writes else f.use != .wr)).map (·.val.toNat)

/-- A source of the bundle carries an invalid mark, or is pending, in run-ahead (R123, R204). -/
def badSource (x : Pre) (o : Op) (g : Group) (k : Nat) : Bool :=
  match g.runAhead with
  | none => false
  | some r => (readRegs x o.flds g k).any (fun q => r.bad.contains q || g.pending q) || (predRegs o.flds false).any r.badPreds.contains

/-- The state as the body of a bundle sees it: the repeat is the one about to execute, and the resume index is used up (R116). -/
def State.enter (s : State) (k : Nat) : State := s.onMe fun g => { g with rep := k, resume := 0 }

/-- Last-result registers that writes of these registers can have shifted in (R83). -/
def shifted (ws : List RegId) : List RegId :=
  (List.range (ws.filter fun r => match r with
    | .v _ => true
    | .o _ => true
    | _ => false).length).map RegId.h

/-! ### Register errors (R90 to R92, R539) -/

/-- One register word is consumed, as a source or by the merge of a partial write (R90 to R92, R539): a correctable error is counted; located
failing lanes are killed; an error not located kills ACT at a source and LIVE at a merge; a scalar's kills LIVE. -/
def State.consume (s : State) (merge : Bool) (m : RegMark) : State :=
  let g := s.me
  match m.fault with
  | .correctable => s.bump (coreOf s.cur) g.ctx 12 1
  | .located l => s.kill s.cur (if m.reg.isVec then l &&& g.live else g.live) 1 0 0
  | .unlocated => s.kill s.cur (if merge || !m.reg.isVec then g.live else g.act) 1 0 0

/-- The words that a bundle reads, and those whose lanes its partial writes keep, are checked (R90 to R92): errors in registers that
it does not consume stay. -/
def State.checkWords (s : State) (rd wr : List RegId) : State :=
  s.me.regMarks.foldl (fun st m =>
    let merge := m.reg.isVec && wr.contains m.reg && st.me.act != st.me.live
    if rd.contains m.reg then st.consume false m else if merge then st.consume true m else st) s

/-- A bundle that performed has encoded the registers that it wrote anew, and shifted the last-result file; registers outside the
stacks' spans hold nothing (R83, R86, R90, R91). -/
def Group.rewritten (g : Group) (wr : List RegId) : Group :=
  let n := (wr.filter fun r => match r with
    | .v _ => true
    | .o _ => true
    | _ => false).length
  { g with
    regMarks := g.regMarks.filterMap fun m =>
      if wr.contains m.reg then none
      else match m.reg with
        | .h i => if i + n < 8 then some { m with reg := .h (i + n) } else none
        | .v a => if g.vlow ≤ a && decide (a < g.vb + g.wv) then some m else none
        | .s a => if g.slow ≤ a && decide (a < g.sb + g.ws) then some m else none
        | .o _ => some m }

/-- The outcome of a bundle that wrote these registers. -/
def Eff.written (wr : List RegId) : Eff → Eff
  | .next s => .next (s.onMe fun g => g.rewritten wr)
  | .jump pc s => .jump pc (s.onMe fun g => g.rewritten wr)
  | e => e

/-- A bundle in run-ahead (R203 to R206): nothing architectural happens, and what R205 forbids stops it. -/
def runIssue (x : Pre) (o : Op) (body : Flds → State → Eff) (s : State) : Host.Outcome State Fault Refusal :=
  let g := s.me
  let k := startRep x g
  let bad := badSource x o g k
  if (decodeErr x o g).isSome || o.priv then .next s.runStop
  else
    let s1 := s.enter k
    let ws := writeRegs x o.flds g k
    let pw := predRegs o.flds true
    match o.kind with
    | .stop => .next s.runStop
    | .branch =>
      if bad then .next (s.unrun s.cur)
      else match body (fldsAt x o.flds k) s1 with
        | .next s2 => .next (s2.runNext x none [] [] [] [])
        | .jump pc s2 => .next (s2.runNext x (some pc) [] [] [] [])
        | _ => .next s.runStop
    | .calc =>
      match body (fldsAt x o.flds k) s1 with
      | .next s2 => .next (if bad then s2.runNext x none (ws ++ shifted ws) [] pw [] else s2.runNext x none [] ws [] pw)
      | _ => .next s.runStop
    | .load =>
      if bad then .next (s1.runNext x none ws [] [] [])
      else match body (fldsAt x o.flds k) s1 with
        | .next s2 => .next (s2.runNext x none [] [] [] [])
        | _ => .next s.runStop

/-- The common issue of a bundle or of its next repeat (R115, R116, R124): field decode, PRIV, MARKV, an EXHAUST now due, the
words that it consumes (R92), then the instruction's own body. -/
def issue (x : Pre) (o : Op) (body : Flds → State → Eff) (s : State) : Host.Outcome State Fault Refusal :=
  let g := s.me
  if g.runAhead.isSome then runIssue x o body s
  else match decodeErr x o g with
    | some v => .next ((s.enter 0).raise 1 v false).reap
    | none =>
      let k := startRep x g
      let s1 := s.enter k
      if o.priv then .next (s1.raise 3 (o.word.zeroExtend 64) x.px.rep.isSome).reap
      else match pendNow x o.flds g k with
        | some v => .next (s1.raise 2 v x.px.rep.isSome).reap
        | none =>
          match g.due with
          | a :: r => .next ((s1.onMe fun y => { y with due := r }).raise 0x0A a x.px.rep.isSome).reap
          | [] =>
            if g.regMarks.isEmpty then finish x o.code (body (fldsAt x o.flds k) s1)
            else
              let rd := readRegs x o.flds g k
              let wr := writeRegs x o.flds g k
              let s2 := s1.checkWords rd wr
              if s2.me.live = 0 || s2.me.used = false then .next s2.reap
              else finish x o.code ((body (fldsAt x o.flds k) s2).written wr)

/-- The bundle or repeat passes every check before its own body (R124 steps 4 to 6). -/
def Issues (x : Pre) (o : Op) (s : State) : Prop :=
  s.me.runAhead = none ∧ decodeErr x o s.me = none ∧ o.priv = false ∧ pendNow x o.flds s.me (startRep x s.me) = none ∧ s.me.due = [] ∧
    s.me.regMarks = []

/-- Special scalar registers (R40, R106). -/
def State.special (s : State) (n : Nat) : Dword :=
  let g := s.me
  match n with
  | 97 => BitVec.ofNat 64 g.index
  | 98 => g.scrw.zeroExtend 64
  | 99 => BitVec.ofNat 64 (coreOf s.cur)
  | 100 => BitVec.ofNat 64 (cluOf (coreOf s.cur))
  | 101 => s.hub.device.zeroExtend 64
  | 102 => g.arg
  | 103 => g.spad
  | n => if 104 ≤ n && decide (n < 112) then vat g.sx (n - 104) 0 else 0

/-- ReadS (R106, R126). -/
def State.readS (s : State) (r : Reg) : Dword :=
  if r.toNat < 96 then s.me.sabs (s.me.sb + r.toNat) else s.special r.toNat

/-- WriteS: decode has rejected every field that is not in the window (R126). -/
def State.writeS (s : State) (r : Reg) (v : Dword) : State := s.onMe fun g => g.setSabs (g.sb + r.toNat) v

/-- The 32-bit immediate of an IMM prefix before format RRR, M or X (R108). -/
def immBits (p : BitVec 25) (f : Reg) : Word := p ++ f

/-- A scalar operand in the position of bits [6:0]: the register, or the sign-extended immediate (R108). -/
def State.srcS (s : State) (x : Pre) (r : Reg) : Dword :=
  match x.px.imm with
  | some p => (immBits p r).signExtend 64
  | none => s.readS r

/-- The 32 lanes that a V-class field reads (R105). -/
def State.readReg (s : State) (r : Reg) : Lanes :=
  let g := s.me
  let n := r.toNat
  if n < 96 then g.vabs (g.vb + n)
  else if n < 112 then vat g.ofile (n - 96) Lanes.zero
  else if n < 120 then vat g.hfile (n - 112) Lanes.zero
  else lanesFn fun _ => (g.sabs (g.sb + (n - 120))).truncate 32

/-- One lane of a W-class field (R107). -/
def State.readPair (s : State) (r : Reg) (i : Nat) : Dword :=
  let n := r.toNat
  if 120 ≤ n then s.me.sabs (s.me.sb + (n - 120))
  else if 112 ≤ n then
    vat (vat s.me.hfile (n - 112) Lanes.zero) i 0 ++ vat (vat s.me.hfile (n - 111) Lanes.zero) i 0
  else vat (s.readReg (r + 1)) i 0 ++ vat (s.readReg r) i 0

/-- The source lane of a LANE pattern (R117). -/
def laneSrc (p : LanePat) (i : Nat) : Nat :=
  match p with
  | .none => i
  | .rot n => (i + n.toNat) % 32
  | .rev => 31 - i
  | .xor n => Nat.xor i n.toNat
  | .bcast n => n.toNat

/-- The LANE pattern of a position. -/
def lanePatAt (x : Pre) (p : Pos) : LanePat :=
  match x.px.lane, p with
  | some l, .a => l.a
  | some l, .b => l.b
  | _, _ => .none

/-- A lane remapped under LANE: dead source lanes give 0 (R118). -/
def remap {n : Nat} (live : Word) (p : LanePat) (f : Nat → BitVec n) (i : Nat) : BitVec n :=
  match p with
  | .none => f i
  | q => if lane? live (laneSrc q i) then f (laneSrc q i) else 0

/-- ReadV of operand a, after the LANE remap (R105, R117, R126). -/
def State.srcVA (s : State) (x : Pre) (r : Reg) (i : Nat) : Word :=
  remap s.me.live (lanePatAt x .a) (fun j => vat (s.readReg r) j 0) i

/-- ReadV of operand b: the register after the LANE remap, or the immediate (R105, R108, R117). -/
def State.srcVB (s : State) (x : Pre) (r : Reg) (i : Nat) : Word :=
  match x.px.imm with
  | some p => immBits p r
  | none => remap s.me.live (lanePatAt x .b) (fun j => vat (s.readReg r) j 0) i

/-- ReadV64 of operand a (R107, R117). -/
def State.srcWA (s : State) (x : Pre) (r : Reg) (i : Nat) : Dword :=
  remap s.me.live (lanePatAt x .a) (s.readPair r) i

/-- ReadV64 of operand b: the pair, or the sign-extended immediate (R107, R108, R117). -/
def State.srcWB (s : State) (x : Pre) (r : Reg) (i : Nat) : Dword :=
  match x.px.imm with
  | some p => (immBits p r).signExtend 64
  | none => remap s.me.live (lanePatAt x .b) (s.readPair r) i

/-- ReadV of operand d, which LANE does not remap. -/
def State.srcVD (s : State) (r : Reg) (i : Nat) : Word := vat (s.readReg r) i 0

/-- A LANE pattern on a side makes some lane of ACT read a dead lane (R118). -/
def deadRead (act live : Word) (p : LanePat) : Bool :=
  match p with
  | .none => false
  | q => (lanesOf act).any fun i => !lane? live (laneSrc q i)

/-- The register that a vector destination names. -/
def destV (g : Group) (r : Reg) : RegId := if r.toNat < 96 then .v (g.vb + r.toNat) else .o (r.toNat - 96)

/-- The last-result file with one register shifted in; pending and invalid marks travel with their values (R83, R119, R204). -/
def Group.shiftH (g : Group) (v : Lanes) : Group :=
  { g with
    hfile := Vector.ofFn fun i => if i.val = 0 then v else vat g.hfile (i.val - 1) Lanes.zero
    pend := g.pend.filterMap fun p => match p.1 with
      | .h n => if n < 7 then some (.h (n + 1), p.2) else none
      | _ => some p
    runAhead := g.runAhead.map fun r =>
      { r with bad := r.bad.filterMap fun q => match q with
          | .h n => if n < 7 then some (.h (n + 1)) else none
          | _ => some q } }

/-- One vector register written at issue: the lanes of ACT, dead lanes zero, and the shift into h0 (R83, R91). -/
def Group.writeReg (g : Group) (r : RegId) (f : Nat → Word) : Group :=
  let m := mergeLanes g.live g.act (g.getV r) (lanesFn f)
  (g.setV r m).shiftH m

/-- The register-port cycle of a write under a partial ACT (R79, R337). -/
def State.partialWrite (s : State) : State :=
  let g := s.me
  if g.act = g.live then s else
    (s.onCore (coreOf s.cur) fun k =>
      { k with busy := vset k.busy (slotOf s.cur / 12) (k.cycles + 2), rmw := vset k.rmw (slotOf s.cur / 12) (k.cycles + 2) }).bump (coreOf s.cur) g.ctx 14 1

/-- WriteV of all lanes of ACT (R91, R126). -/
def State.writeV (s : State) (r : Reg) (f : Nat → Word) : State :=
  (s.onMe fun g => g.writeReg (destV g r) f).partialWrite

/-- WriteV of a pair: the even register first, so h1 holds the even half (R83, R107). -/
def State.writeW (s : State) (r : Reg) (f : Nat → Dword) : State :=
  (s.onMe fun g => (g.writeReg (destV g r) fun i => (f i).truncate 32).writeReg (destV g (r + 1)) fun i => (f i >>> 32).truncate 32).partialWrite

/-- P[n] (R126). -/
def State.readP (s : State) (r : Reg) : Word := if r.toNat = 0 then 0xFFFFFFFF else vat s.me.preds r.toNat 0

/-- A predicate written; p0 discards the write (R81, R430). -/
def State.writeP (s : State) (r : Reg) (v : Word) : State :=
  if r.toNat = 0 then s else s.onMe fun g => { g with preds := vset g.preds r.toNat v }

end Sys2Proof.Machine
end

