-- ==== Sys2Proof/Machine/Flags.lean ====
section
/-! DEFINITION. FFLAGS and FCTL (R94, R150, R167, R168): setting flags, the rounding mode, flushing, and the drain of earlier
flag setters. -/

namespace Sys2Proof.Machine

/-- Set flags of the current group; ECCZ included (R94). -/
def State.flag (s : State) (m : Word) : State := s.onMe fun g => { g with fflags := g.fflags ||| m.zeroExtend 64 }

/-- The rounding mode of FCTL.RM (R94). -/
def Group.rm (g : Group) : Rm := Rm.of (dbits g.fctl 1 0)

/-- FCTL.FTZ (R94). -/
def Group.ftz (g : Group) : Bool := g.fctl.getLsbD 2

/-- The lanes' flags of ACT together (R150). -/
def flagsOf (act : Word) (f : Nat → Word) : Word := (lanesOf act).foldl (fun m i => m ||| f i) 0

/-- DEADREAD of a bundle's LANE prefix (R118). -/
def State.laneFlags (s : State) (x : Pre) : State :=
  let g := s.me
  if deadRead g.act g.live (lanePatAt x .a) || (x.px.imm.isNone && deadRead g.act g.live (lanePatAt x .b)) then s.flag flDEAD else s

/-- Every earlier instruction of the group that can set a flag has set it (R168). -/
def Group.flagsQuiet (g : Group) : Bool := !(g.flights.any fun f => f.kind == .sfu || f.access)

end Sys2Proof.Machine
end

