-- ==== Sys2Proof/Machine/Wake.lean ====
section
/-! DEFINITION. Waits: when each ends (R80, R119, R121, R187, R188, R197, R232, R242, R244, R264, R266, R366), what waking does,
which groups are ready, and their stall reasons (R80, R334). -/

namespace Sys2Proof.Machine

/-- The engine class of a command (R229). -/
def CmdOp.eng : CmdOp → Eng
  | .g2s => .copy
  | .s2g => .copy
  | .s2s => .copy
  | .x => .copy
  | .gthr => .gather
  | .coll => .collective
  | .fsend => .fabric
  | .mma _ => .matrix
  | .mmab _ => .matrix

/-- Commands of a class in a core's queue (R232). -/
def Core.queued (k : Core) (e : Eng) : Nat :=
  (k.cmds.filter fun c => decide (c.op.eng = e) && !(decide (e = .matrix) && c.ended)).length

/-- Commands that fill a core's queue of a class (R232). -/
def queueCap : Eng → Nat
  | .matrix => 16
  | _ => 32

/-- Closed batches that have not retired (R242, R244). -/
def Group.openBatches (x : Group) : Nat := (x.batches.filter fun b => b.closed && !b.retired).length

/-- A batch closed at least as many closings ago as batch n (R244). -/
def Group.covers (x : Group) (n : Nat) (b : Batch) : Bool :=
  b.closed && decide ((x.batchNum + 65536 - n % 65536) % 65536 ≤ (x.batchNum + 65536 - b.num) % 65536)

/-- Request slots that a group holds: one for each sector of each instruction with an access to memory outstanding (R187). -/
def Group.slots (x : Group) : List (Nat × Nat) :=
  x.flights.foldl (fun l f => if f.access && !isSpad f.loc && !l.contains (f.seq, f.loc / 64) then (f.seq, f.loc / 64) :: l else l) []

/-- Request slots in use on a core (R187). -/
def State.slotsUsed (s : State) (core : Nat) : Nat := (s.gidsOn core).foldl (fun n g => n + (s.grp g).slots.length) 0

/-- The L3 slices that slots for these sectors aim at: only local memory has a home slice (R176, R188). -/
def aims (sectors : List Nat) : List Nat := (sectors.filter fun k => isLocal (k * 64)).map fun k => sliceOf (k * 64)

/-- Request slots of a core that aim at a slice (R188). -/
def State.slotsAt (s : State) (core slice : Nat) : Nat :=
  (s.gidsOn core).foldl (fun n g => n + (aims ((s.grp g).slots.map (·.2))).count slice) 0

/-- Group g may take n slots, of which some aim at these slices: at most 96 slots of one group, at most 128 of a core at one slice
(R188). -/
def State.belowCaps (s : State) (g n : Nat) (l : List Nat) : Bool :=
  decide ((s.grp g).slots.length + n ≤ 96) && l.all fun h => decide (s.slotsAt (coreOf g) h + l.count h ≤ 128)

/-- A group h that parked for request slots before g keeps its place: it is served before g takes slots that h waits for (R188). -/
def State.slotsFirst (s : State) (h : Nat) (c : Cond) : Bool :=
  match (s.grp h).wait.cond, c with
  | .slots _, _ => true
  | .caps n l, .caps _ m => s.belowCaps h n l || l.any m.contains
  | .caps n l, _ => s.belowCaps h n l
  | _, _ => false

/-- No group of the core that parked for request slots before g comes before it (R188). -/
def State.firstParked (s : State) (g : Nat) : Bool :=
  !((s.gidsOn (coreOf g)).any fun h =>
    (s.grp h).queued != 0 && decide ((s.grp h).queued < (s.grp g).queued) && s.slotsFirst h (s.grp g).wait.cond)

/-- Every group of a crew has arrived at the crew barrier with its earlier accesses performed, or has ended (R366, R367). -/
def State.barDone (s : State) (w : Nat) : Bool :=
  match s.crew? w with
  | none => true
  | some c => c.gids.all fun h => decide ((s.grp h).live = 0) || (decide ((s.grp h).wait.cond = .bar) && (s.grp h).flights.isEmpty)

/-- In replay, where the log has group g's resume at its position (R271, R529). -/
def State.resumeAt (s : State) (g : Nat) : Option Nat :=
  (s.replaying? (s.grp g).ctx).bind fun (t, k) => if (s.traptDue g (· == 2)).isSome then (s.sess t k).log.findIdx? (s.traptIs g 2) else none

/-- No parked group of the context comes before g in the logged order of resumes (R271, R328 step 7, R529). -/
def State.resumeTurn (s : State) (g : Nat) : Bool :=
  match s.resumeAt g with
  | none => true
  | some n => (s.gidsCtx (s.grp g).ctx).all fun h => decide ((s.grp h).wait.cond ≠ .fault) || ((s.resumeAt h).all fun m => decide (n ≤ m))

/-- The wait's condition holds for group g. -/
def State.holds (s : State) (g : Nat) (c : Cond) : Bool :=
  let x := s.grp g
  match c with
  | .ready => true
  | .marker => !(x.flights.any Flight.markerResult)
  | .counter k n => decide (x.uncounted k ≤ n)
  | .bar => s.barDone x.crew
  | .barrier o gen =>
    let b := s.obj (objCore (cluOf (coreOf g)) o) o
    b.held && b.ctx == x.ctx && b.gen != gen || !b.held
  | .barrierFree o =>
    !((s.core (objCore (cluOf (coreOf g)) o)).barsBack.any fun e => e.1 == o % 64 && e.2.ctx == x.ctx)
  | .sync loc gen => Memory.le s.mem loc 2 != gen
  | .word loc v _ => Memory.le s.mem loc 8 != v.toNat
  | .queue => false
  | .deque => false
  | .batches n => x.batches.all fun b => !x.covers n b || b.retired
  | .batchRoom => decide (x.openBatches < 8)
  | .tiles core t n => !s.tilesBusy core t n
  | .engineRoom e => decide ((s.core (coreOf g)).queued e < queueCap e)
  | .walk => !((s.cluster (cluOf (coreOf g))).walks.any fun w => w.gids.contains g)
  | .fault => x.missing.isEmpty && s.resumeTurn g
  | .slots n => decide (s.slotsUsed (coreOf g) + n ≤ 768) && s.firstParked g
  | .caps n l => s.belowCaps g n l && s.firstParked g
  | .order => !(x.orderWait)
  | .drain => x.flagsQuiet
  | .quiet => x.flights.isEmpty
  | .fetch => false
  | .launches => decide (s.admitted < 256)
  | .buffer => decide ((s.core (coreOf g)).buffer.length < 4)
  | .flush _ => !((s.core (coreOf g)).bins.any fun b => b.ctx == x.ctx && b.closing == 3)
  | .debugRing =>
    let r := (s.tenant (s.ctx x.ctx).tenant).debugRing
    r.fits64 (if r.lost = 0 then 1 else 2)
  | .replay => !s.replayHolds g
  | .handed _ _ => true

/-- Group g leaves its wait: behind a marker it passes it; after a page fault it translates again; at the crew barrier every
group of the crew leaves (R119, R266, R366). -/
def State.wake (s : State) (g : Nat) : State :=
  let x := s.grp g
  match x.wait.cond with
  | .ready => s
  | .handed _ _ => s
  | .flush _ => s
  | .marker => (s.onGrp g Group.passMarker).stepBoundary g
  | .bar =>
    match s.crew? x.crew with
    | none => s.onGrp g fun y => { y with wait := { code := 8, cond := .handed 0 0 } }
    | some w => w.gids.foldl (fun st h => st.onGrp h fun y => if y.wait.cond = .bar then { y with wait := { code := 8, cond := .handed 0 0 } } else y) s
  | .fault => (s.trapt g 2 (if x.resumes then x.unfin else 1) 0).onGrp g fun y => { y with wait := Wait.none }
  | .tiles _ _ _ => s.onGrp g fun y => { y with wait := { code := 15, cond := .handed 1 0 } }
  | _ => s.onGrp g fun y => { y with wait := Wait.none }

/-- The group can issue or leave its wait (R80): it is in a slot, not halted, has a live lane (R24), nothing holds it, it is not
stopped at a chunk end (R326), and a replay is not waiting for other chunks. A group in run-ahead is ready until it has stopped (R206). -/
def State.ready (s : State) (g : Nat) : Bool :=
  let x := s.grp g
  x.used && !x.halted && !x.leaving && decide (x.live ≠ 0) && (match x.runAhead with
    | some r => !r.stopped && s.holds g x.wait.cond
    | none => s.holds g x.wait.cond && !s.replayHolds g && !s.chunkStops g)

/-- Context that holds a core's turn (R76). -/
def Core.turnCtx (k : Core) : Option Nat := vat k.resident k.turn none

/-- The turn's context has a ready group on the core (R77). -/
def State.readyIn (s : State) (core : Nat) (c : Nat) : Bool := (s.gidsOn core).any fun g => (s.grp g).ctx == c && s.ready g

/-- The largest WEIGHT among a context's launches with crews on a core (R76). -/
def State.weightOn (s : State) (core c : Nat) : Nat :=
  s.hub.crews.foldl (fun (n : Nat) (e : Nat × Crew) => if e.2.away == 0 && e.2.core == core && e.2.ctx == c then max n e.2.weight else n) 1

/-- The turn ends, its unused remainder forfeited: the next residency slot, in rising order with wrap, that has a ready group takes it; with
none ready no turn runs until one is (R77). -/
def State.endTurn (s : State) (core : Nat) : State :=
  let k := s.core core
  match ([k.turn + 1, k.turn + 2, k.turn + 3, k.turn + 4].map (· % 4)).find? fun i =>
      match vat k.resident i none with
      | some c => s.readyIn core c
      | none => false with
  | none => s.setCore core { k with turnLeft := 0 }
  | some i => s.setCore core { k with turn := i, turnLeft := 256 * s.weightOn core ((vat k.resident i none).getD 0) }

/-- The running turn is over: its count is reached, or its context has no ready group (R77). -/
def State.turnOver (s : State) (core : Nat) : Bool :=
  let k := s.core core
  decide (k.turnLeft = 0) || !(k.turnCtx.any (s.readyIn core))

/-- The turn of a core as this cycle finds it (R77). -/
def State.settleTurn (s : State) (core : Nat) : State := if s.turnOver core then s.endTurn core else s

/-- A scheduler of a core has issued in this cycle. -/
def Core.issuedNow (k : Core) (n : Nat) : Bool := decide (k.cycles < vat k.busy n 0) && vat k.rmw n 0 != k.cycles + 1

/-- The turn of this cycle: between issues of one cycle it does not change (R77). -/
def State.thisTurn (s : State) (core : Nat) : State :=
  if (s.core core).issuedNow 0 || (s.core core).issuedNow 1 then s else s.settleTurn core

/-- Group h waits longer than group g since its last issue or since it became ready; ties go to the slot nearest after the one that the
scheduler picked last (R78). -/
def State.waitsLonger (s : State) (picked h g : Nat) : Bool :=
  let r := fun x => (slotOf x % 12 + 11 - picked) % 12
  decide ((s.grp h).age < (s.grp g).age) || (decide ((s.grp h).age = (s.grp g).age) && decide (r h < r g))

/-- The group that a core's scheduler n issues in this cycle: of the ready groups of the turn's context in its 12 slots, the one that
has waited longest (R78), unless the scheduler has issued in this cycle or a partial write takes it (R79). -/
def State.choice (s : State) (core n : Nat) : Option Nat :=
  let k := s.core core
  if k.cycles < vat k.busy n 0 || decide (k.turnLeft = 0) then none
  else
    ((s.gidsOn core).filter fun g =>
      slotOf g / 12 == n && k.turnCtx == some (s.grp g).ctx && decide ((s.grp g).skip ≤ k.cycles) && s.ready g).foldl (fun o g => match o with
        | none => some g
        | some h => if s.waitsLonger (vat k.picked n 11) g h then some g else o) none

/-- A scheduler of the core has a group to issue in this cycle. -/
def State.mustIssue (s : State) (core : Nat) : Bool := (s.choice core 0).isSome || (s.choice core 1).isSome

/-- n cycles pass on a core: the turn runs down, the issue cycles of the turn's context count against its groups that stay parked (R49) and in
its counter (R337), and a group that is not ready has not begun to wait for an issue (R78). -/
def State.cyclesPass (s : State) (core n : Nat) : State :=
  let k := s.core core
  let s1 := s.setCore core (match k.turnCtx with
    | none => { k with cycles := k.cycles + n, turnLeft := k.turnLeft - n }
    | some _ => { k with cycles := k.cycles + n, turnLeft := k.turnLeft - n, sinceEvict := vset k.sinceEvict k.turn (vat k.sinceEvict k.turn 0 + n) })
  let s2 := (s.gidsOn core).foldl (fun st g =>
    let r := s.ready g
    st.onGrp g fun x => { x with age := if r then x.age else k.cycles + n,
                                 parked := if s.holds g x.wait.cond then 0 else if k.turnCtx = some x.ctx then x.parked + n else x.parked }) s1
  match k.turnCtx with
  | none => s2
  | some c => s2.bump core c 1 n

/-- The next cycle of a core begins, with the turn that it finds (R77). -/
def State.nextCycle (s : State) (core : Nat) : State := (s.cyclesPass core 1).settleTurn core

/-- The core's clock as far as group g's next issue: cycles in which no scheduler has a group to issue pass, at most n, and the turn
is the one of that cycle (R77 to R79, R519). -/
def State.toIssue (s : State) (g : Nat) : Nat → State
  | 0 => s
  | n + 1 =>
    let s1 := s.thisTurn (coreOf g)
    if !s.ready g || s1.mustIssue (coreOf g) then s1 else (s1.nextCycle (coreOf g)).toIssue g n

/-- Group g is switched out on missing pages, each filed with the fault service unit (R265, R269). A page is paired with whether
it is in the cellar. -/
def State.pageFault (s : State) (g : Nat) (pages : List (Dword × Bool)) (kind : Nat) : State :=
  let ps := pages.foldl (fun (l : List (Dword × Bool)) p =>
    let a : Dword := BitVec.ofNat 64 (s.pageSpan (s.grp g).ctx p.1).1
    if l.any (·.1 == a) then l else l ++ [(a, p.2)]) []
  (ps.foldl (fun st p => st.fileFault (s.grp g).ctx p.1 kind [g]) s).onGrp g fun x =>
    { x with missing := ps, walked := [] }

/-- The stall reason of a group's own wait (R16, R80): a page fault's by its pages, a marker's by the oldest result still pending, and 28
for matrix issue behind an operation that runs narrowed (log entry 74). -/
def State.waitCode (s : State) (g : Nat) : Nat :=
  let x := s.grp g
  match x.wait.cond with
  | .fault => if x.missing.all (·.2) then 18 else 17
  | .marker => x.markerCode
  | .engineRoom .matrix => if (s.core (coreOf g)).matrixBusy && (s.core (coreOf g)).matrixNarrow then 28 else 16
  | _ => if x.wait.code = 0 then 31 else x.wait.code

/-- The stall reason of a group in a cycle in which it does not issue (R80, R334): the highest of the table that holds. -/
def State.stallOf (s : State) (g : Nat) : Nat :=
  let x := s.grp g
  if x.halted then 27
  else if x.leaving then 30
  else if x.runAhead.isSome then 22
  else if s.replayHolds g then 24
  else if s.chunkStops g then 25
  else if !s.holds g x.wait.cond then
    s.waitCode g
  else if (s.core (coreOf g)).turnCtx != some x.ctx then 26
  else if (s.core (coreOf g)).cycles < x.skip then 31
  else if vat (s.core (coreOf g)).rmw (slotOf g / 12) 0 = (s.core (coreOf g)).cycles + 1 then 7
  else 0

end Sys2Proof.Machine
end

