-- ==== Sys2Proof/Machine/Scalar.lean ====
section
/-! DEFINITION. Scalar arithmetic, compare, immediate and move instructions (R444 to R447), and their arithmetic (R143, R155). -/

namespace Sys2Proof.Machine

/-- A register-register scalar instruction: d, a and b of class S (R444). -/
def opRRR (x : Pre) (M m : Nat) (d a b : Reg) : Op :=
  { word := wordR x M m d a b, flds := [⟨.d, .s, .wr, d⟩, ⟨.a, .s, .rd, a⟩, ⟨.b, .s, .rd, b⟩], kind := .calc, priv := false, code := none }

/-- One with b of class Z (R445). -/
def opRRZ (x : Pre) (M m : Nat) (d a : Reg) : Op :=
  { word := wordR x M m d a 0, flds := [⟨.d, .s, .wr, d⟩, ⟨.a, .s, .rd, a⟩], kind := .calc, priv := false, code := none }

/-- An immediate scalar instruction of format RI (R446). -/
def opRI (x : Pre) (M : Nat) (d a : Reg) (i : BitVec 11) : Op :=
  { word := wordRI x M d a i, flds := [⟨.d, .s, .wr, d⟩, ⟨.a, .s, .rd, a⟩], kind := .calc, priv := false, code := none }

/-- An immediate scalar instruction of format LI (R446). -/
def opLI (x : Pre) (M : Nat) (d : Reg) (i : BitVec 18) : Op :=
  { word := wordLI x M d i, flds := [⟨.d, .s, .wr, d⟩], kind := .calc, priv := false, code := none }

/-- s[d] receives f of s[a] and b (R445). -/
def runRRR (x : Pre) (M m : Nat) (d a b : Reg) (f : Dword → Dword → Dword) (s : State) : Host.Outcome State Fault Refusal :=
  issue x (opRRR x M m d a b) (fun r t => .next (t.writeS r.d (f (t.readS r.a) (t.srcS x r.b)))) s

/-- s[d] receives f of s[a] (R445). -/
def runRRZ (x : Pre) (M m : Nat) (d a : Reg) (f : Dword → Dword) (s : State) : Host.Outcome State Fault Refusal :=
  issue x (opRRZ x M m d a) (fun r t => .next (t.writeS r.d (f (t.readS r.a)))) s

/-- s[d] receives f of s[a] and the immediate n (R446). -/
def runRI (x : Pre) (M : Nat) (d a : Reg) (i : BitVec 11) (f : Dword → Dword → Dword) (n : Dword) (s : State) :
    Host.Outcome State Fault Refusal :=
  issue x (opRI x M d a i) (fun r t => .next (t.writeS r.d (f (t.readS r.a) n))) s

/-- s[d] receives n (R446). -/
def runLI (x : Pre) (M : Nat) (d : Reg) (i : BitVec 18) (n : Dword) (s : State) : Host.Outcome State Fault Refusal :=
  issue x (opLI x M d i) (fun r t => .next (t.writeS r.d n)) s

/-- An immediate field of k bits, extended by IMM and then by its sign (R108, R446). -/
def immExt (x : Pre) {k : Nat} (i : BitVec k) : Dword :=
  match x.px.imm with
  | none => i.signExtend 64
  | some p => (p ++ i).signExtend 64

/-- 1 for true, 0 for false. -/
def flagD (b : Bool) : Dword := if b then 1 else 0

/-- Bits [127:64] of the signed product (R445). -/
def mulHigh (a b : Dword) : Dword := ((a.signExtend 128 * b.signExtend 128) >>> 64).truncate 64

/-- A shift count: bits [5:0] (R445). -/
def count6 (b : Dword) : Nat := dbits b 5 0

/-- The quotient and the remainder of R155, signed. -/
def quot (a b : Dword) : Dword := if b = 0 then 0 else a.sdiv b
def rema (a b : Dword) : Dword := if b = 0 then a else a.srem b

/-- The quotient and the remainder of R155, unsigned. -/
def quotN (a b : Dword) : Dword := if b = 0 then 0 else a / b
def remaN (a b : Dword) : Dword := if b = 0 then a else a % b

/-- Leading zero bits of an n-bit value. -/
def leadZeros (n v : Nat) : Nat := n - bitLen v

/-- Set bits of a value. -/
def popCount {n : Nat} (v : BitVec n) : Nat := ((List.range n).filter v.getLsbD).length

/-- sext(bits(a, n, 0)) (R445). -/
def sextFrom (a : Dword) (n : Nat) : Dword := (a <<< (63 - n)).sshiftRight (63 - n)

/-- The field of SBFX (R445): lo = b[5:0], width b[13:8] + 1. -/
def bitField (a b : Dword) : Dword := BitVec.ofNat 64 (a.toNat / 2 ^ (count6 b) % 2 ^ (dbits b 13 8 + 1))

/-- A division: s[d] receives f, and a zero divisor sets FFLAGS.IDZ (R155, R445). -/
def runDiv (x : Pre) (m : Nat) (d a b : Reg) (f : Dword → Dword → Dword) (s : State) : Host.Outcome State Fault Refusal :=
  issue x (opRRR x 0x03 m d a b) (fun r t =>
    let t1 := t.writeS r.d (f (t.readS r.a) (t.srcS x r.b))
    .next (if t.srcS x r.b = 0 then t1.flag flIDZ else t1)) s

/-- SADD (R445): s[d] = a + b. -/
def execSadd (x : Pre) (d a b : Reg) (s : State) : Host.Outcome State Fault Refusal :=
  runRRR x 0x02 0 d a b (fun a b => a + b) s

/-- SSUB (R445): s[d] = a - b. -/
def execSsub (x : Pre) (d a b : Reg) (s : State) : Host.Outcome State Fault Refusal :=
  runRRR x 0x02 1 d a b (fun a b => a - b) s

/-- SMUL (R445): low half of a × b. -/
def execSmul (x : Pre) (d a b : Reg) (s : State) : Host.Outcome State Fault Refusal :=
  runRRR x 0x02 2 d a b (fun a b => a * b) s

/-- SMULH (R445): high half of the signed product. -/
def execSmulh (x : Pre) (d a b : Reg) (s : State) : Host.Outcome State Fault Refusal :=
  runRRR x 0x02 3 d a b (fun a b => mulHigh a b) s

/-- SAND (R445): a and b. -/
def execSand (x : Pre) (d a b : Reg) (s : State) : Host.Outcome State Fault Refusal :=
  runRRR x 0x02 4 d a b (fun a b => a &&& b) s

/-- SOR (R445): a or b. -/
def execSor (x : Pre) (d a b : Reg) (s : State) : Host.Outcome State Fault Refusal :=
  runRRR x 0x02 5 d a b (fun a b => a ||| b) s

/-- SXOR (R445): a xor b. -/
def execSxor (x : Pre) (d a b : Reg) (s : State) : Host.Outcome State Fault Refusal :=
  runRRR x 0x02 6 d a b (fun a b => a ^^^ b) s

/-- SSHL (R445): a shifted left by b[5:0]. -/
def execSshl (x : Pre) (d a b : Reg) (s : State) : Host.Outcome State Fault Refusal :=
  runRRR x 0x02 7 d a b (fun a b => a <<< count6 b) s

/-- SSHR (R445): a shifted right by b[5:0], zeros in. -/
def execSshr (x : Pre) (d a b : Reg) (s : State) : Host.Outcome State Fault Refusal :=
  runRRR x 0x02 8 d a b (fun a b => a >>> count6 b) s

/-- SSRA (R445): a shifted right by b[5:0], sign in. -/
def execSsra (x : Pre) (d a b : Reg) (s : State) : Host.Outcome State Fault Refusal :=
  runRRR x 0x02 9 d a b (fun a b => a.sshiftRight (count6 b)) s

/-- SMIN (R445): signed smaller. -/
def execSmin (x : Pre) (d a b : Reg) (s : State) : Host.Outcome State Fault Refusal :=
  runRRR x 0x02 10 d a b (fun a b => if a.slt b then a else b) s

/-- SMAX (R445): signed larger. -/
def execSmax (x : Pre) (d a b : Reg) (s : State) : Host.Outcome State Fault Refusal :=
  runRRR x 0x02 11 d a b (fun a b => if a.slt b then b else a) s

/-- SMINN (R445): unsigned smaller. -/
def execSminn (x : Pre) (d a b : Reg) (s : State) : Host.Outcome State Fault Refusal :=
  runRRR x 0x02 12 d a b (fun a b => if a.ult b then a else b) s

/-- SMAXN (R445): unsigned larger. -/
def execSmaxn (x : Pre) (d a b : Reg) (s : State) : Host.Outcome State Fault Refusal :=
  runRRR x 0x02 13 d a b (fun a b => if a.ult b then b else a) s

/-- SSEL (R445): a when the old s[d] is not 0, else b; the old s[d] is a source (R447). -/
def execSsel (x : Pre) (d a b : Reg) (s : State) : Host.Outcome State Fault Refusal :=
  issue x { opRRR x 0x02 14 d a b with flds := [⟨.d, .s, .rw, d⟩, ⟨.a, .s, .rd, a⟩, ⟨.b, .s, .rd, b⟩] }
    (fun r t => .next (t.writeS r.d (if t.readS r.d ≠ 0 then t.readS r.a else t.srcS x r.b))) s

/-- SMOV (R445): s[d] = b; a is class Z. -/
def execSmov (x : Pre) (d b : Reg) (s : State) : Host.Outcome State Fault Refusal :=
  issue x { opRRR x 0x02 15 d 0 b with flds := [⟨.d, .s, .wr, d⟩, ⟨.b, .s, .rd, b⟩] }
    (fun r t => .next (t.writeS r.d (t.srcS x r.b))) s

/-- SDIV (R445): signed quotient. -/
def execSdiv (x : Pre) (d a b : Reg) (s : State) : Host.Outcome State Fault Refusal :=
  runDiv x 0 d a b quot s

/-- SDIVN (R445): unsigned quotient. -/
def execSdivn (x : Pre) (d a b : Reg) (s : State) : Host.Outcome State Fault Refusal :=
  runDiv x 1 d a b quotN s

/-- SREM (R445): signed remainder. -/
def execSrem (x : Pre) (d a b : Reg) (s : State) : Host.Outcome State Fault Refusal :=
  runDiv x 2 d a b rema s

/-- SREMN (R445): unsigned remainder. -/
def execSremn (x : Pre) (d a b : Reg) (s : State) : Host.Outcome State Fault Refusal :=
  runDiv x 3 d a b remaN s

/-- SCLZ (R445): leading zero bits of a. -/
def execSclz (x : Pre) (d a : Reg) (s : State) : Host.Outcome State Fault Refusal :=
  runRRZ x 0x03 4 d a (fun a => BitVec.ofNat 64 (leadZeros 64 a.toNat)) s

/-- SPOP (R445): set bits of a. -/
def execSpop (x : Pre) (d a : Reg) (s : State) : Host.Outcome State Fault Refusal :=
  runRRZ x 0x03 5 d a (fun a => BitVec.ofNat 64 (popCount a)) s

/-- SSEXT (R445): the low b[5:0] + 1 bits of a, sign-extended. -/
def execSsext (x : Pre) (d a b : Reg) (s : State) : Host.Outcome State Fault Refusal :=
  runRRR x 0x03 6 d a b (fun a b => sextFrom a (count6 b)) s

/-- SBFX (R445): the bit field of a that b describes, zero-extended. -/
def execSbfx (x : Pre) (d a b : Reg) (s : State) : Host.Outcome State Fault Refusal :=
  runRRR x 0x03 7 d a b bitField s

/-- SCMP.EQ (R445): 1 when the comparison holds, else 0. -/
def execScmpEq (x : Pre) (d a b : Reg) (s : State) : Host.Outcome State Fault Refusal :=
  runRRR x 0x03 8 d a b (fun a b => flagD (a == b)) s

/-- SCMP.NE (R445): 1 when the comparison holds, else 0. -/
def execScmpNe (x : Pre) (d a b : Reg) (s : State) : Host.Outcome State Fault Refusal :=
  runRRR x 0x03 9 d a b (fun a b => flagD (a != b)) s

/-- SCMP.LT (R445): 1 when the comparison holds, else 0. -/
def execScmpLt (x : Pre) (d a b : Reg) (s : State) : Host.Outcome State Fault Refusal :=
  runRRR x 0x03 10 d a b (fun a b => flagD (a.slt b)) s

/-- SCMP.LTN (R445): 1 when the comparison holds, else 0. -/
def execScmpLtn (x : Pre) (d a b : Reg) (s : State) : Host.Outcome State Fault Refusal :=
  runRRR x 0x03 11 d a b (fun a b => flagD (a.ult b)) s

/-- SCMP.LE (R445): 1 when the comparison holds, else 0. -/
def execScmpLe (x : Pre) (d a b : Reg) (s : State) : Host.Outcome State Fault Refusal :=
  runRRR x 0x03 12 d a b (fun a b => flagD (a.sle b)) s

/-- SCMP.LEN (R445): 1 when the comparison holds, else 0. -/
def execScmpLen (x : Pre) (d a b : Reg) (s : State) : Host.Outcome State Fault Refusal :=
  runRRR x 0x03 13 d a b (fun a b => flagD (a.ule b)) s

/-- SADDI (R446): the operation on s[a] and the sign-extended immediate. -/
def execSaddi (x : Pre) (d a : Reg) (im : BitVec 11) (s : State) : Host.Outcome State Fault Refusal :=
  runRI x 0x04 d a im (fun a b => a + b) (immExt x im) s

/-- SANDI (R446): the operation on s[a] and the sign-extended immediate. -/
def execSandi (x : Pre) (d a : Reg) (im : BitVec 11) (s : State) : Host.Outcome State Fault Refusal :=
  runRI x 0x05 d a im (fun a b => a &&& b) (immExt x im) s

/-- SORI (R446): the operation on s[a] and the sign-extended immediate. -/
def execSori (x : Pre) (d a : Reg) (im : BitVec 11) (s : State) : Host.Outcome State Fault Refusal :=
  runRI x 0x06 d a im (fun a b => a ||| b) (immExt x im) s

/-- SXORI (R446): the operation on s[a] and the sign-extended immediate. -/
def execSxori (x : Pre) (d a : Reg) (im : BitVec 11) (s : State) : Host.Outcome State Fault Refusal :=
  runRI x 0x07 d a im (fun a b => a ^^^ b) (immExt x im) s

/-- SSHI.SHL (R446, R133): the shift of s[a] by the immediate. -/
def execSshiShl (x : Pre) (d a : Reg) (im : BitVec 6) (s : State) : Host.Outcome State Fault Refusal :=
  runRI x 0x08 d a (0#2 ++ 0#3 ++ im) (fun a b => a <<< b.toNat) (im.zeroExtend 64) s

/-- SSHI.SHR (R446, R133): the shift of s[a] by the immediate. -/
def execSshiShr (x : Pre) (d a : Reg) (im : BitVec 6) (s : State) : Host.Outcome State Fault Refusal :=
  runRI x 0x08 d a (1#2 ++ 0#3 ++ im) (fun a b => a >>> b.toNat) (im.zeroExtend 64) s

/-- SSHI.SRA (R446, R133): the shift of s[a] by the immediate. -/
def execSshiSra (x : Pre) (d a : Reg) (im : BitVec 6) (s : State) : Host.Outcome State Fault Refusal :=
  runRI x 0x08 d a (2#2 ++ 0#3 ++ im) (fun a b => a.sshiftRight b.toNat) (im.zeroExtend 64) s

/-- SCMPI.EQ (R446, R133): 1 when the comparison with the sign-extended immediate holds, else 0. -/
def execScmpiEq (x : Pre) (d a : Reg) (im : BitVec 9) (s : State) : Host.Outcome State Fault Refusal :=
  runRI x 0x09 d a (0#2 ++ im) (fun a b => flagD (a == b)) (immExt x im) s

/-- SCMPI.LT (R446, R133): 1 when the comparison with the sign-extended immediate holds, else 0. -/
def execScmpiLt (x : Pre) (d a : Reg) (im : BitVec 9) (s : State) : Host.Outcome State Fault Refusal :=
  runRI x 0x09 d a (1#2 ++ im) (fun a b => flagD (a.slt b)) (immExt x im) s

/-- SCMPI.LTN (R446, R133): 1 when the comparison with the sign-extended immediate holds, else 0. -/
def execScmpiLtn (x : Pre) (d a : Reg) (im : BitVec 9) (s : State) : Host.Outcome State Fault Refusal :=
  runRI x 0x09 d a (2#2 ++ im) (fun a b => flagD (a.ult b)) (immExt x im) s

/-- SCMPI.NE (R446, R133): 1 when the comparison with the sign-extended immediate holds, else 0. -/
def execScmpiNe (x : Pre) (d a : Reg) (im : BitVec 9) (s : State) : Host.Outcome State Fault Refusal :=
  runRI x 0x09 d a (3#2 ++ im) (fun a b => flagD (a != b)) (immExt x im) s

/-- SLUI (R446): the immediate, zero-extended, 14 bits up. -/
def execSlui (x : Pre) (d : Reg) (im : BitVec 18) (s : State) : Host.Outcome State Fault Refusal :=
  runLI x 0x0A d im ((im.zeroExtend 64 : Dword) <<< 14) s

/-- SMOVI (R446): the sign-extended immediate. -/
def execSmovi (x : Pre) (d : Reg) (im : BitVec 18) (s : State) : Host.Outcome State Fault Refusal :=
  runLI x 0x0B d im (immExt x im) s

end Sys2Proof.Machine
end

