-- ==== Sys2Proof/Machine/Vector.lean ====
section
/-! DEFINITION. Vector integer instructions (R475 to R477, R497, R506), selects, moves and counts (R482, R496, R498, R501, R505),
and vector compares (R483, R484). -/

namespace Sys2Proof.Machine

/-- A vector instruction of two sources: classes of d, a and b, and how d is used (R475, R488). -/
def opVVV (x : Pre) (M m : Nat) (cd ca cb : FCls) (u : FUse) (d a b : Reg) : Op :=
  { word := wordR x M m d a b, flds := [⟨.d, cd, u, d⟩, ⟨.a, ca, .rd, a⟩, ⟨.b, cb, .rd, b⟩], kind := .calc, priv := false, code := none }

/-- A vector instruction of one source a; b is class Z. -/
def opVVZ (x : Pre) (M m : Nat) (cd ca : FCls) (d a : Reg) : Op :=
  { word := wordR x M m d a 0, flds := [⟨.d, cd, .wr, d⟩, ⟨.a, ca, .rd, a⟩], kind := .calc, priv := false, code := none }

/-- A vector body: with ACT empty it does nothing (R25); else a dead lane read under LANE sets DEADREAD (R118). -/
def vecBody (x : Pre) (f : Flds → State → State) (r : Flds) (t : State) : Eff :=
  if t.me.act = 0 then .next t else .next (f r (t.laneFlags x))

/-- Integer operations on elements (R475, R476, R497, R506). -/
inductive VOp where
  | add | sub | mul | mulh | mad | and | or | xor | shl | shr | sra | min | max | minn | maxn | abs
  deriving DecidableEq, Repr

/-- Their minors (R475). -/
def VOp.minor : VOp → Nat
  | .add => 0 | .sub => 1 | .mul => 2 | .mulh => 3 | .mad => 4 | .and => 5 | .or => 6 | .xor => 7
  | .shl => 8 | .shr => 9 | .sra => 10 | .min => 11 | .max => 12 | .minn => 13 | .maxn => 14 | .abs => 15

/-- The element result on elements x of a, y of b and z of the old d (R476, R497, R506). -/
def VOp.eval {w : Nat} (o : VOp) (x y z : BitVec w) : BitVec w :=
  match o with
  | .add => x + y
  | .sub => x - y
  | .mul => x * y
  | .mulh => ((x.signExtend (2 * w) * y.signExtend (2 * w)) >>> w).truncate w
  | .mad => x * y + z
  | .and => x &&& y
  | .or => x ||| y
  | .xor => x ^^^ y
  | .shl => x <<< (y.toNat % w)
  | .shr => x >>> (y.toNat % w)
  | .sra => x.sshiftRight (y.toNat % w)
  | .min => if x.slt y then x else y
  | .max => if x.slt y then y else x
  | .minn => if x.ult y then x else y
  | .maxn => if x.ult y then y else x
  | .abs => if x.msb then -x else x

/-- The halves of a lane, each handled independently (R141, R475). -/
def halves (f : Half → Half → Half → Half) (x y z : Word) : Word :=
  f (x.extractLsb' 16 16) (y.extractLsb' 16 16) (z.extractLsb' 16 16) ++ f (x.truncate 16) (y.truncate 16) (z.truncate 16)

/-- How VMAD uses d. -/
def VOp.use (o : VOp) : FUse := if o = .mad then .rw else .wr

/-- The op of a vector integer instruction; VABS has b of class Z (R475). -/
def opVInt (x : Pre) (M : Nat) (c : FCls) (o : VOp) (d a b : Reg) : Op :=
  if o = .abs then opVVZ x M 15 c c d a else opVVV x M o.minor c c c o.use d a b

/-- A vector integer instruction on one element per lane: f of lanes of a, b and the old d. -/
def runV32 (x : Pre) (M : Nat) (o : VOp) (d a b : Reg) (f : Word → Word → Word → Word) (s : State) :
    Host.Outcome State Fault Refusal :=
  issue x (opVInt x M .v o d a b) (vecBody x fun r t => t.writeV r.d fun i => f (t.srcVA x r.a i) (t.srcVB x r.b i) (t.srcVD r.d i)) s

/-- A vector integer instruction on 32-bit elements (R475). -/
def runI32 (x : Pre) (o : VOp) (d a b : Reg) (s : State) : Host.Outcome State Fault Refusal := runV32 x 0x11 o d a b o.eval s

/-- A vector integer instruction on 16-bit elements (R475). -/
def runI16 (x : Pre) (o : VOp) (d a b : Reg) (s : State) : Host.Outcome State Fault Refusal :=
  runV32 x 0x12 o d a b (halves o.eval) s

/-- A vector integer instruction on 64-bit elements in pairs (R475). -/
def runI64 (x : Pre) (o : VOp) (d a b : Reg) (s : State) : Host.Outcome State Fault Refusal :=
  issue x (opVInt x 0x13 .w o d a b)
    (vecBody x fun r t => t.writeW r.d fun i => o.eval (t.srcWA x r.a i) (t.srcWB x r.b i) (t.readPair r.d i)) s

/-- One vector register from each lane of a; major 0x14 (R482, R501). -/
def runLane (x : Pre) (m : Nat) (d a : Reg) (f : Word → Word) (s : State) : Host.Outcome State Fault Refusal :=
  issue x (opVVZ x 0x14 m .v .v d a) (vecBody x fun r t => t.writeV r.d fun i => f (t.srcVA x r.a i)) s

/-- The outcome of a compare in one lane: its bit and its flags. -/
structure CmpRes where
  bit : Bool
  fl : Word
  deriving DecidableEq, Repr

/-- Conditions of VCMP (R484). -/
inductive VCond where
  | eq | ne | lt | le | un
  deriving DecidableEq, Repr

/-- An integer compare (R484). -/
def cmpInt (c : VCond) (signed : Bool) (a b : Word) : CmpRes :=
  ⟨match c with
    | .eq => a == b
    | .ne => a != b
    | .lt => if signed then a.slt b else a.ult b
    | .le => if signed then a.sle b else a.ule b
    | .un => false, 0⟩

/-- A floating-point compare (R484): NaNs make every condition but UN false; LT and LE set NV on any NaN, the others on a
signalling one. -/
def cmpFlt (f : Fmt) (c : VCond) (ftz : Bool) (x y : Nat) : CmpRes :=
  let a := f.rd ftz x
  let b := f.rd ftz y
  let nan := a.isNan || b.isNan
  let loud := decide (c = .lt) || decide (c = .le)
  ⟨match c with
    | .eq => a.eqv b
    | .ne => !a.eqv b
    | .lt => a.lt b
    | .le => !nan && !b.lt a
    | .un => nan, if nan && loud then flNV else a.snan ||| b.snan⟩

/-- p[d] takes the lanes' bits; lanes outside ACT keep theirs (R484). -/
def State.writeCmp (t : State) (d : Reg) (f : Nat → CmpRes) : State :=
  let act := t.me.act
  let old := t.readP d
  (t.writeP d (maskOf fun i => if lane? act i then (f i).bit else lane? old i)).flag (flagsOf act fun i => (f i).fl)

/-- A compare of 32-bit lanes (R483, R484). -/
def runCmp (x : Pre) (m : Nat) (d a b : Reg) (f : Bool → Word → Word → CmpRes) (s : State) : Host.Outcome State Fault Refusal :=
  issue x (opVVV x 0x15 m .p .v .v .wr d a b)
    (vecBody x fun r t => t.writeCmp r.d fun i => f t.me.ftz (t.srcVA x r.a i) (t.srcVB x r.b i)) s

/-- A compare of 64-bit pairs (R483, R484). -/
def runCmp64 (x : Pre) (m : Nat) (c : VCond) (d a b : Reg) (s : State) : Host.Outcome State Fault Refusal :=
  issue x (opVVV x 0x15 m .p .w .w .wr d a b)
    (vecBody x fun r t => t.writeCmp r.d fun i => cmpFlt fF64 c t.me.ftz (t.srcWA x r.a i).toNat (t.srcWB x r.b i).toNat) s

/-- VADD.I32 (R476). -/
def execVaddI32 (x : Pre) (d a b : Reg) (s : State) : Host.Outcome State Fault Refusal := runI32 x .add d a b s

/-- VSUB.I32 (R497). -/
def execVsubI32 (x : Pre) (d a b : Reg) (s : State) : Host.Outcome State Fault Refusal := runI32 x .sub d a b s

/-- VMUL.I32 (R497). -/
def execVmulI32 (x : Pre) (d a b : Reg) (s : State) : Host.Outcome State Fault Refusal := runI32 x .mul d a b s

/-- VMULH.I32 (R497). -/
def execVmulhI32 (x : Pre) (d a b : Reg) (s : State) : Host.Outcome State Fault Refusal := runI32 x .mulh d a b s

/-- VMAD.I32 (R497). -/
def execVmadI32 (x : Pre) (d a b : Reg) (s : State) : Host.Outcome State Fault Refusal := runI32 x .mad d a b s

/-- VAND.I32 (R476). -/
def execVandI32 (x : Pre) (d a b : Reg) (s : State) : Host.Outcome State Fault Refusal := runI32 x .and d a b s

/-- VOR.I32 (R497). -/
def execVorI32 (x : Pre) (d a b : Reg) (s : State) : Host.Outcome State Fault Refusal := runI32 x .or d a b s

/-- VXOR.I32 (R497). -/
def execVxorI32 (x : Pre) (d a b : Reg) (s : State) : Host.Outcome State Fault Refusal := runI32 x .xor d a b s

/-- VSHL.I32 (R506). -/
def execVshlI32 (x : Pre) (d a b : Reg) (s : State) : Host.Outcome State Fault Refusal := runI32 x .shl d a b s

/-- VSHR.I32 (R506). -/
def execVshrI32 (x : Pre) (d a b : Reg) (s : State) : Host.Outcome State Fault Refusal := runI32 x .shr d a b s

/-- VSRA.I32 (R506). -/
def execVsraI32 (x : Pre) (d a b : Reg) (s : State) : Host.Outcome State Fault Refusal := runI32 x .sra d a b s

/-- VMIN.I32 (R497). -/
def execVminI32 (x : Pre) (d a b : Reg) (s : State) : Host.Outcome State Fault Refusal := runI32 x .min d a b s

/-- VMAX.I32 (R497). -/
def execVmaxI32 (x : Pre) (d a b : Reg) (s : State) : Host.Outcome State Fault Refusal := runI32 x .max d a b s

/-- VMINN.I32 (R497). -/
def execVminnI32 (x : Pre) (d a b : Reg) (s : State) : Host.Outcome State Fault Refusal := runI32 x .minn d a b s

/-- VMAXN.I32 (R497). -/
def execVmaxnI32 (x : Pre) (d a b : Reg) (s : State) : Host.Outcome State Fault Refusal := runI32 x .maxn d a b s

/-- VABS.I32 (R476): the most negative value maps to itself. -/
def execVabsI32 (x : Pre) (d a : Reg) (s : State) : Host.Outcome State Fault Refusal := runI32 x .abs d a 0 s

/-- VADD.I16 (R476). -/
def execVaddI16 (x : Pre) (d a b : Reg) (s : State) : Host.Outcome State Fault Refusal := runI16 x .add d a b s

/-- VSUB.I16 (R497). -/
def execVsubI16 (x : Pre) (d a b : Reg) (s : State) : Host.Outcome State Fault Refusal := runI16 x .sub d a b s

/-- VMUL.I16 (R497). -/
def execVmulI16 (x : Pre) (d a b : Reg) (s : State) : Host.Outcome State Fault Refusal := runI16 x .mul d a b s

/-- VMULH.I16 (R497). -/
def execVmulhI16 (x : Pre) (d a b : Reg) (s : State) : Host.Outcome State Fault Refusal := runI16 x .mulh d a b s

/-- VMAD.I16 (R497). -/
def execVmadI16 (x : Pre) (d a b : Reg) (s : State) : Host.Outcome State Fault Refusal := runI16 x .mad d a b s

/-- VAND.I16 (R476). -/
def execVandI16 (x : Pre) (d a b : Reg) (s : State) : Host.Outcome State Fault Refusal := runI16 x .and d a b s

/-- VOR.I16 (R497). -/
def execVorI16 (x : Pre) (d a b : Reg) (s : State) : Host.Outcome State Fault Refusal := runI16 x .or d a b s

/-- VXOR.I16 (R497). -/
def execVxorI16 (x : Pre) (d a b : Reg) (s : State) : Host.Outcome State Fault Refusal := runI16 x .xor d a b s

/-- VSHL.I16 (R506). -/
def execVshlI16 (x : Pre) (d a b : Reg) (s : State) : Host.Outcome State Fault Refusal := runI16 x .shl d a b s

/-- VSHR.I16 (R506). -/
def execVshrI16 (x : Pre) (d a b : Reg) (s : State) : Host.Outcome State Fault Refusal := runI16 x .shr d a b s

/-- VSRA.I16 (R506). -/
def execVsraI16 (x : Pre) (d a b : Reg) (s : State) : Host.Outcome State Fault Refusal := runI16 x .sra d a b s

/-- VMIN.I16 (R497). -/
def execVminI16 (x : Pre) (d a b : Reg) (s : State) : Host.Outcome State Fault Refusal := runI16 x .min d a b s

/-- VMAX.I16 (R497). -/
def execVmaxI16 (x : Pre) (d a b : Reg) (s : State) : Host.Outcome State Fault Refusal := runI16 x .max d a b s

/-- VMINN.I16 (R497). -/
def execVminnI16 (x : Pre) (d a b : Reg) (s : State) : Host.Outcome State Fault Refusal := runI16 x .minn d a b s

/-- VMAXN.I16 (R497). -/
def execVmaxnI16 (x : Pre) (d a b : Reg) (s : State) : Host.Outcome State Fault Refusal := runI16 x .maxn d a b s

/-- VABS.I16 (R476): the most negative value maps to itself. -/
def execVabsI16 (x : Pre) (d a : Reg) (s : State) : Host.Outcome State Fault Refusal := runI16 x .abs d a 0 s

/-- VADD.I64 (R476). -/
def execVaddI64 (x : Pre) (d a b : Reg) (s : State) : Host.Outcome State Fault Refusal := runI64 x .add d a b s

/-- VSUB.I64 (R497). -/
def execVsubI64 (x : Pre) (d a b : Reg) (s : State) : Host.Outcome State Fault Refusal := runI64 x .sub d a b s

/-- VMUL.I64 (R497). -/
def execVmulI64 (x : Pre) (d a b : Reg) (s : State) : Host.Outcome State Fault Refusal := runI64 x .mul d a b s

/-- VMULH.I64 (R497). -/
def execVmulhI64 (x : Pre) (d a b : Reg) (s : State) : Host.Outcome State Fault Refusal := runI64 x .mulh d a b s

/-- VMAD.I64 (R497). -/
def execVmadI64 (x : Pre) (d a b : Reg) (s : State) : Host.Outcome State Fault Refusal := runI64 x .mad d a b s

/-- VAND.I64 (R476). -/
def execVandI64 (x : Pre) (d a b : Reg) (s : State) : Host.Outcome State Fault Refusal := runI64 x .and d a b s

/-- VOR.I64 (R497). -/
def execVorI64 (x : Pre) (d a b : Reg) (s : State) : Host.Outcome State Fault Refusal := runI64 x .or d a b s

/-- VXOR.I64 (R497). -/
def execVxorI64 (x : Pre) (d a b : Reg) (s : State) : Host.Outcome State Fault Refusal := runI64 x .xor d a b s

/-- VSHL.I64 (R506). -/
def execVshlI64 (x : Pre) (d a b : Reg) (s : State) : Host.Outcome State Fault Refusal := runI64 x .shl d a b s

/-- VSHR.I64 (R506). -/
def execVshrI64 (x : Pre) (d a b : Reg) (s : State) : Host.Outcome State Fault Refusal := runI64 x .shr d a b s

/-- VSRA.I64 (R506). -/
def execVsraI64 (x : Pre) (d a b : Reg) (s : State) : Host.Outcome State Fault Refusal := runI64 x .sra d a b s

/-- VMIN.I64 (R497). -/
def execVminI64 (x : Pre) (d a b : Reg) (s : State) : Host.Outcome State Fault Refusal := runI64 x .min d a b s

/-- VMAX.I64 (R497). -/
def execVmaxI64 (x : Pre) (d a b : Reg) (s : State) : Host.Outcome State Fault Refusal := runI64 x .max d a b s

/-- VMINN.I64 (R497). -/
def execVminnI64 (x : Pre) (d a b : Reg) (s : State) : Host.Outcome State Fault Refusal := runI64 x .minn d a b s

/-- VMAXN.I64 (R497). -/
def execVmaxnI64 (x : Pre) (d a b : Reg) (s : State) : Host.Outcome State Fault Refusal := runI64 x .maxn d a b s

/-- VABS.I64 (R476): the most negative value maps to itself. -/
def execVabsI64 (x : Pre) (d a : Reg) (s : State) : Host.Outcome State Fault Refusal := runI64 x .abs d a 0 s

/-- VSEL (R505): a where p[k] has the lane's bit, else b. -/
def execVsel (x : Pre) (k : BitVec 3) (d a b : Reg) (s : State) : Host.Outcome State Fault Refusal :=
  issue x (opVVV x 0x14 k.toNat .v .v .v .wr d a b)
    (vecBody x fun r t => t.writeV r.d fun i =>
      if lane? (t.readP (k.zeroExtend 7)) i then t.srcVA x r.a i else t.srcVB x r.b i) s

/-- VMOV (R498): the 32 bits of b. -/
def execVmov (x : Pre) (d b : Reg) (s : State) : Host.Outcome State Fault Refusal :=
  issue x { opVVZ x 0x14 8 .v .v d 0 with word := wordR x 0x14 8 d 0 b, flds := [⟨.d, .v, .wr, d⟩, ⟨.b, .v, .rd, b⟩] }
    (vecBody x fun r t => t.writeV r.d fun i => t.srcVB x r.b i) s

/-- VCLZ (R482): leading zero bits. -/
def execVclz (x : Pre) (d a : Reg) (s : State) : Host.Outcome State Fault Refusal :=
  runLane x 9 d a (fun w => BitVec.ofNat 32 (leadZeros 32 w.toNat)) s

/-- VPOP (R501): set bits. -/
def execVpop (x : Pre) (d a : Reg) (s : State) : Host.Outcome State Fault Refusal :=
  runLane x 10 d a (fun w => BitVec.ofNat 32 (popCount w)) s

/-- VLID (R496): the lane number. -/
def execVlid (x : Pre) (d : Reg) (s : State) : Host.Outcome State Fault Refusal :=
  issue x { opVVZ x 0x14 11 .v .v d 0 with flds := [⟨.d, .v, .wr, d⟩] } (vecBody x fun r t => t.writeV r.d fun i => BitVec.ofNat 32 i) s

/-- VCMP.EQ.I32 (R484). -/
def execVcmpEqI32 (x : Pre) (d a b : Reg) (s : State) : Host.Outcome State Fault Refusal :=
  runCmp x 0 d a b (fun _ => cmpInt .eq true) s

/-- VCMP.NE.I32 (R484). -/
def execVcmpNeI32 (x : Pre) (d a b : Reg) (s : State) : Host.Outcome State Fault Refusal :=
  runCmp x 1 d a b (fun _ => cmpInt .ne true) s

/-- VCMP.LT.I32 (R484). -/
def execVcmpLtI32 (x : Pre) (d a b : Reg) (s : State) : Host.Outcome State Fault Refusal :=
  runCmp x 2 d a b (fun _ => cmpInt .lt true) s

/-- VCMP.LE.I32 (R484). -/
def execVcmpLeI32 (x : Pre) (d a b : Reg) (s : State) : Host.Outcome State Fault Refusal :=
  runCmp x 3 d a b (fun _ => cmpInt .le true) s

/-- VCMP.LT.N32 (R484). -/
def execVcmpLtN32 (x : Pre) (d a b : Reg) (s : State) : Host.Outcome State Fault Refusal :=
  runCmp x 4 d a b (fun _ => cmpInt .lt false) s

/-- VCMP.LE.N32 (R484). -/
def execVcmpLeN32 (x : Pre) (d a b : Reg) (s : State) : Host.Outcome State Fault Refusal :=
  runCmp x 5 d a b (fun _ => cmpInt .le false) s

/-- VCMP.EQ.F32 (R484). -/
def execVcmpEqF32 (x : Pre) (d a b : Reg) (s : State) : Host.Outcome State Fault Refusal :=
  runCmp x 6 d a b (fun ftz a b => cmpFlt fF32 .eq ftz a.toNat b.toNat) s

/-- VCMP.LT.F32 (R484). -/
def execVcmpLtF32 (x : Pre) (d a b : Reg) (s : State) : Host.Outcome State Fault Refusal :=
  runCmp x 7 d a b (fun ftz a b => cmpFlt fF32 .lt ftz a.toNat b.toNat) s

/-- VCMP.LE.F32 (R484). -/
def execVcmpLeF32 (x : Pre) (d a b : Reg) (s : State) : Host.Outcome State Fault Refusal :=
  runCmp x 8 d a b (fun ftz a b => cmpFlt fF32 .le ftz a.toNat b.toNat) s

/-- VCMP.UN.F32 (R484). -/
def execVcmpUnF32 (x : Pre) (d a b : Reg) (s : State) : Host.Outcome State Fault Refusal :=
  runCmp x 9 d a b (fun ftz a b => cmpFlt fF32 .un ftz a.toNat b.toNat) s

/-- VCMP.EQ.F64 (R484). -/
def execVcmpEqF64 (x : Pre) (d a b : Reg) (s : State) : Host.Outcome State Fault Refusal := runCmp64 x 10 .eq d a b s

/-- VCMP.LT.F64 (R484). -/
def execVcmpLtF64 (x : Pre) (d a b : Reg) (s : State) : Host.Outcome State Fault Refusal := runCmp64 x 11 .lt d a b s

/-- VCMP.LE.F64 (R484). -/
def execVcmpLeF64 (x : Pre) (d a b : Reg) (s : State) : Host.Outcome State Fault Refusal := runCmp64 x 12 .le d a b s

/-- VCMP.UN.F64 (R484). -/
def execVcmpUnF64 (x : Pre) (d a b : Reg) (s : State) : Host.Outcome State Fault Refusal := runCmp64 x 13 .un d a b s

end Sys2Proof.Machine
end

