-- ==== Sys2Proof/Machine/VFloat.lean ====
section
/-! DEFINITION. Vector floating point (R488, R489), the special-function unit (R490), conversions (R485, R486), packing (R499,
R500), scaled accumulation (R504) and lane operations (R487, R502, R503, R507, R511). -/

namespace Sys2Proof.Machine

/-- Floating-point operations on elements (R489). -/
inductive FOp where
  | add | sub | mul | fma | fnma | min | max | abs | neg
  deriving DecidableEq, Repr

/-- How VFMA and VFNMA use d. -/
def FOp.use (o : FOp) : FUse := if o = .fma || o = .fnma then .rw else .wr

/-- The element result on x of a, y of b and z of the old d (R146 to R150, R489). -/
def FOp.eval (o : FOp) (f : Fmt) (rm : Rm) (ftz : Bool) (x y z : Nat) : FRes :=
  match o with
  | .add => f.add rm ftz x y
  | .sub => f.sub rm ftz x y
  | .mul => f.mul rm ftz x y
  | .fma => f.fma rm ftz x y z
  | .fnma => f.fnma rm ftz x y z
  | .min => f.minmax ftz false x y
  | .max => f.minmax ftz true x y
  | .abs => f.abs ftz x
  | .neg => f.negate ftz x

/-- Two elements per lane, each rounded on its own, their flags together (R141). -/
def halvesF (f : Nat → Nat → Nat → FRes) (x y z : Nat) : FRes :=
  let l := f (x % 65536) (y % 65536) (z % 65536)
  let h := f (x / 65536) (y / 65536) (z / 65536)
  ⟨l.bits + h.bits * 65536, l.fl ||| h.fl⟩

/-- A vector register written with results, their flags in FFLAGS (R91, R150). -/
def State.writeF (t : State) (r : Reg) (f : Nat → FRes) : State :=
  let act := t.me.act
  (t.writeV r fun i => BitVec.ofNat 32 (f i).bits).flag (flagsOf act fun i => (f i).fl)

/-- A pair written with results. -/
def State.writeF64 (t : State) (r : Reg) (f : Nat → FRes) : State :=
  let act := t.me.act
  (t.writeW r fun i => BitVec.ofNat 64 (f i).bits).flag (flagsOf act fun i => (f i).fl)

/-- The op of a floating-point instruction; VFABS and VFNEG have b of class Z (R488). -/
def opFlt (x : Pre) (M m : Nat) (c : FCls) (o : FOp) (d a b : Reg) : Op :=
  if o = .abs || o = .neg then opVVZ x M m c c d a else opVVV x M m c c c o.use d a b

/-- An instruction of majors 0x16 and 0x17 (R489). -/
def runF32 (x : Pre) (M m : Nat) (o : FOp) (d a b : Reg) (e : Rm → Bool → Nat → Nat → Nat → FRes) (s : State) :
    Host.Outcome State Fault Refusal :=
  issue x (opFlt x M m .v o d a b)
    (vecBody x fun r t => t.writeF r.d fun i =>
      e t.me.rm t.me.ftz (t.srcVA x r.a i).toNat (t.srcVB x r.b i).toNat (t.srcVD r.d i).toNat) s

/-- An instruction of major 0x18 (R489). -/
def runF64 (x : Pre) (m : Nat) (o : FOp) (d a b : Reg) (s : State) : Host.Outcome State Fault Refusal :=
  issue x (opFlt x 0x18 m .w o d a b)
    (vecBody x fun r t => t.writeF64 r.d fun i =>
      o.eval fF64 t.me.rm t.me.ftz (t.srcWA x r.a i).toNat (t.srcWB x r.b i).toNat (t.readPair r.d i).toNat) s

/-- Late results: flights that land the lanes and flags of each register in `rs`, which is pending until a marker, as is the
last-result entry it shifts in (R83, R119, R490). The first flight carries the flags. -/
def Group.late (g : Group) (act : Word) : List (RegId × Lanes) → Word → Group
  | [], _ => { g with nextSeq := g.nextSeq + 1 }
  | (r, v) :: rs, fl =>
    let f : Flight := {
      id := g.nextFlight, seq := g.nextSeq, kind := .sfu, lane := 0, va := 0, loc := 0, width := 0, ord := .relaxed, scope := .grp,
      data := 0, cmp := 0, dest := [r], sext := false, ctr := none, value := v, mask := act, flags := fl, cover := false, hint := 0 }
    let g1 := g.shiftH (mergeLanes g.live act (g.getV r) v)
    let g2 : Group := {
      g1 with
      flights := g1.flights ++ [f], nextFlight := g1.nextFlight + 1, pend := g1.pend ++ [(r, .marker), (.h 0, .marker)] }
    g2.late act rs 0

/-- The registers of a late result in run-ahead: no unit is used, each gets an invalid mark (R491). -/
def Group.lateBad (g : Group) (rs : List RegId) : Group :=
  let g1 := rs.foldl (fun (x : Group) r => x.shiftH (x.getV r)) g
  { g1 with runAhead := g1.runAhead.map fun q => { q with bad := rs ++ shifted rs ++ q.bad } }

/-- The op of a special-function instruction (R488). -/
def opSfu (x : Pre) (m : Nat) (c : FCls) (two : Bool) (d a b : Reg) : Op :=
  if two then { opVVV x 0x19 m c c c .wr d a b with kind := .load } else { opVVZ x 0x19 m c c d a with kind := .load }

/-- A special-function instruction in F32 (R490). -/
def runSfu (x : Pre) (m : Nat) (two : Bool) (d a b : Reg) (e : Rm → Bool → Nat → Nat → FRes) (s : State) :
    Host.Outcome State Fault Refusal :=
  issue x (opSfu x m .v two d a b) (fun r t =>
    let g := t.me
    if g.act = 0 then .next t
    else if g.runAhead.isSome then .next (t.onMe fun y => y.lateBad [destV y r.d])
    else
      let f := fun i => e g.rm g.ftz (t.srcVA x r.a i).toNat (t.srcVB x r.b i).toNat
      .next (t.onMe fun y =>
        y.late y.act [(destV y r.d, lanesFn fun i => BitVec.ofNat 32 (f i).bits)] (flagsOf y.act fun i => (f i).fl)).partialWrite) s

/-- A special-function instruction in F64 (R490). -/
def runSfu64 (x : Pre) (m : Nat) (d a : Reg) (e : Bool → Nat → FRes) (s : State) : Host.Outcome State Fault Refusal :=
  issue x (opSfu x m .w false d a 0) (fun r t =>
    let g := t.me
    if g.act = 0 then .next t
    else if g.runAhead.isSome then .next (t.onMe fun y => y.lateBad [destV y r.d, destV y (r.d + 1)])
    else
      let f := fun i => e g.ftz (t.srcWA x r.a i).toNat
      .next (t.onMe fun y =>
        y.late y.act [(destV y r.d, lanesFn fun i => BitVec.ofNat 32 (f i).bits), (destV y (r.d + 1), lanesFn fun i => BitVec.ofNat 32 ((f i).bits / 2 ^ 32))]
          (flagsOf y.act fun i => (f i).fl)).partialWrite) s

/-- VFCLASS (R489): the class mask; no flag. -/
def runClass (x : Pre) (M : Nat) (c : FCls) (f : Fmt) (d a : Reg) (s : State) : Host.Outcome State Fault Refusal :=
  issue x (opVVZ x M 9 .v c d a)
    (vecBody x fun r t => t.writeV r.d fun i =>
      BitVec.ofNat 32 (f.classify (if c = .w then (t.srcWA x r.a i).toNat else (t.srcVA x r.a i).toNat))) s

/-- Classes of a and d of a conversion code (R134). -/
def convWideA (code : Nat) : Bool := [0x01, 0x0A, 0x0B, 0x0C].contains code
def convWideD (code : Nat) : Bool := [0x00, 0x0A, 0x0B, 0x0D].contains code

/-- The op of a conversion: bits [6:0] are the code (R134). -/
def opCvt (x : Pre) (m : Nat) (cd ca : FCls) (d a : Reg) (c : BitVec 7) : Op :=
  { opVVZ x 0x1A m cd ca d a with word := wordR x 0x1A m d a c }

/-- The op of VCVT in its forms. -/
def opVcvt (x : Pre) (m : Nat) (d a : Reg) (c : BitVec 7) : Op :=
  opCvt x m (if convWideD c.toNat then .w else .v) (if convWideA c.toNat then .w else .v) d a c

/-- VCVT in its forms (R486): dir gives the direction in a lane. -/
def runCvt (x : Pre) (m : Nat) (d a : Reg) (c : BitVec 7) (dir : State → Nat → Dir) (after : State → State) (s : State) :
    Host.Outcome State Fault Refusal :=
  issue x (opVcvt x m d a c)
    (vecBody x fun r t =>
      let src := fun i => if convWideA c.toNat then (t.srcWA x r.a i).toNat else (t.srcVA x r.a i).toNat
      let f := fun i => convert c.toNat (dir t i) t.me.ftz (src i)
      after (if convWideD c.toNat then t.writeF64 r.d f else t.writeF r.d f)) s

/-- The draw of a lane (R154). -/
def State.drawDir (t : State) (i : Nat) : Dir :=
  let g := t.me
  .sr (drawWord (BitVec.ofNat 64 (dbits g.fctl 63 32)) (g.scrw.zeroExtend 64) (BitVec.ofNat 64 g.index)
    (BitVec.ofNat 64 (coreOf t.cur)) (BitVec.ofNat 64 i) ((vat g.draws i 0).zeroExtend 64))

/-- The draw counters of ACT advance (R154). -/
def Group.drawn (g : Group) : Group :=
  { g with draws := Vector.ofFn fun i => if lane? g.act i.val then vat g.draws i.val 0 + 1 else vat g.draws i.val 0 }

/-- Registers r, r + 1, … written in turn, each shifting the last-result file (R500). -/
def State.writeRun (t : State) (r : Reg) (f : Nat → Nat → Word) : Nat → State
  | 0 => t
  | n + 1 => (t.writeRun r f n).onMe fun g => g.writeReg (destV g (r + BitVec.ofNat 7 n)) (f n)

/-- VRED (R166, R502, R503): lanes outside ACT enter as the identity, and every lane of ACT gets the common value. -/
def runRed (x : Pre) (m : Nat) (ident : Nat) (op : Rm → Bool → Nat → Nat → FRes) (d a : Reg) (s : State) :
    Host.Outcome State Fault Refusal :=
  issue x (opVVZ x 0x1C m .v .v d a)
    (vecBody x fun r t =>
      let g := t.me
      let v : Vector Nat 32 := Vector.ofFn fun i => if lane? g.act i.val then (vat (t.readReg r.a) i.val 0).toNat else ident
      let (y, fl) := butterfly (op g.rm g.ftz) [1, 2, 4, 8, 16] v 0
      (t.writeV r.d fun i => BitVec.ofNat 32 (vat y i 0)).flag fl) s

/-- VFADD.F32 (R489). -/
def execVfaddF32 (x : Pre) (d a b : Reg) (s : State) : Host.Outcome State Fault Refusal :=
  runF32 x 0x16 0 .add d a b (fun rm z p q r => FOp.eval .add fF32 rm z p q r) s

/-- VFADD.F64 (R489). -/
def execVfaddF64 (x : Pre) (d a b : Reg) (s : State) : Host.Outcome State Fault Refusal :=
  runF64 x 0 .add d a b s

/-- VFADD.F16 (R489). -/
def execVfaddF16 (x : Pre) (d a b : Reg) (s : State) : Host.Outcome State Fault Refusal :=
  runF32 x 0x17 0 .add d a b (fun rm z p q r => halvesF (FOp.eval .add fF16 rm z) p q r) s

/-- VFADD.BF16 (R489). -/
def execVfaddBf16 (x : Pre) (d a b : Reg) (s : State) : Host.Outcome State Fault Refusal :=
  runF32 x 0x17 8 .add d a b (fun rm z p q r => halvesF (FOp.eval .add fBF16 rm z) p q r) s

/-- VFSUB.F32 (R489). -/
def execVfsubF32 (x : Pre) (d a b : Reg) (s : State) : Host.Outcome State Fault Refusal :=
  runF32 x 0x16 1 .sub d a b (fun rm z p q r => FOp.eval .sub fF32 rm z p q r) s

/-- VFSUB.F64 (R489). -/
def execVfsubF64 (x : Pre) (d a b : Reg) (s : State) : Host.Outcome State Fault Refusal :=
  runF64 x 1 .sub d a b s

/-- VFSUB.F16 (R489). -/
def execVfsubF16 (x : Pre) (d a b : Reg) (s : State) : Host.Outcome State Fault Refusal :=
  runF32 x 0x17 1 .sub d a b (fun rm z p q r => halvesF (FOp.eval .sub fF16 rm z) p q r) s

/-- VFSUB.BF16 (R489). -/
def execVfsubBf16 (x : Pre) (d a b : Reg) (s : State) : Host.Outcome State Fault Refusal :=
  runF32 x 0x17 9 .sub d a b (fun rm z p q r => halvesF (FOp.eval .sub fBF16 rm z) p q r) s

/-- VFMUL.F32 (R489). -/
def execVfmulF32 (x : Pre) (d a b : Reg) (s : State) : Host.Outcome State Fault Refusal :=
  runF32 x 0x16 2 .mul d a b (fun rm z p q r => FOp.eval .mul fF32 rm z p q r) s

/-- VFMUL.F64 (R489). -/
def execVfmulF64 (x : Pre) (d a b : Reg) (s : State) : Host.Outcome State Fault Refusal :=
  runF64 x 2 .mul d a b s

/-- VFMUL.F16 (R489). -/
def execVfmulF16 (x : Pre) (d a b : Reg) (s : State) : Host.Outcome State Fault Refusal :=
  runF32 x 0x17 2 .mul d a b (fun rm z p q r => halvesF (FOp.eval .mul fF16 rm z) p q r) s

/-- VFMUL.BF16 (R489). -/
def execVfmulBf16 (x : Pre) (d a b : Reg) (s : State) : Host.Outcome State Fault Refusal :=
  runF32 x 0x17 10 .mul d a b (fun rm z p q r => halvesF (FOp.eval .mul fBF16 rm z) p q r) s

/-- VFMA.F32 (R489). -/
def execVfmaF32 (x : Pre) (d a b : Reg) (s : State) : Host.Outcome State Fault Refusal :=
  runF32 x 0x16 3 .fma d a b (fun rm z p q r => FOp.eval .fma fF32 rm z p q r) s

/-- VFMA.F64 (R489). -/
def execVfmaF64 (x : Pre) (d a b : Reg) (s : State) : Host.Outcome State Fault Refusal :=
  runF64 x 3 .fma d a b s

/-- VFMA.F16 (R489). -/
def execVfmaF16 (x : Pre) (d a b : Reg) (s : State) : Host.Outcome State Fault Refusal :=
  runF32 x 0x17 3 .fma d a b (fun rm z p q r => halvesF (FOp.eval .fma fF16 rm z) p q r) s

/-- VFMA.BF16 (R489). -/
def execVfmaBf16 (x : Pre) (d a b : Reg) (s : State) : Host.Outcome State Fault Refusal :=
  runF32 x 0x17 11 .fma d a b (fun rm z p q r => halvesF (FOp.eval .fma fBF16 rm z) p q r) s

/-- VFNMA.F32 (R489). -/
def execVfnmaF32 (x : Pre) (d a b : Reg) (s : State) : Host.Outcome State Fault Refusal :=
  runF32 x 0x16 4 .fnma d a b (fun rm z p q r => FOp.eval .fnma fF32 rm z p q r) s

/-- VFNMA.F64 (R489). -/
def execVfnmaF64 (x : Pre) (d a b : Reg) (s : State) : Host.Outcome State Fault Refusal :=
  runF64 x 4 .fnma d a b s

/-- VFNMA.F16 (R489). -/
def execVfnmaF16 (x : Pre) (d a b : Reg) (s : State) : Host.Outcome State Fault Refusal :=
  runF32 x 0x17 4 .fnma d a b (fun rm z p q r => halvesF (FOp.eval .fnma fF16 rm z) p q r) s

/-- VFNMA.BF16 (R489). -/
def execVfnmaBf16 (x : Pre) (d a b : Reg) (s : State) : Host.Outcome State Fault Refusal :=
  runF32 x 0x17 12 .fnma d a b (fun rm z p q r => halvesF (FOp.eval .fnma fBF16 rm z) p q r) s

/-- VFMIN.F32 (R489). -/
def execVfminF32 (x : Pre) (d a b : Reg) (s : State) : Host.Outcome State Fault Refusal :=
  runF32 x 0x16 5 .min d a b (fun rm z p q r => FOp.eval .min fF32 rm z p q r) s

/-- VFMIN.F64 (R489). -/
def execVfminF64 (x : Pre) (d a b : Reg) (s : State) : Host.Outcome State Fault Refusal :=
  runF64 x 5 .min d a b s

/-- VFMIN.F16 (R489). -/
def execVfminF16 (x : Pre) (d a b : Reg) (s : State) : Host.Outcome State Fault Refusal :=
  runF32 x 0x17 5 .min d a b (fun rm z p q r => halvesF (FOp.eval .min fF16 rm z) p q r) s

/-- VFMIN.BF16 (R489). -/
def execVfminBf16 (x : Pre) (d a b : Reg) (s : State) : Host.Outcome State Fault Refusal :=
  runF32 x 0x17 13 .min d a b (fun rm z p q r => halvesF (FOp.eval .min fBF16 rm z) p q r) s

/-- VFMAX.F32 (R489). -/
def execVfmaxF32 (x : Pre) (d a b : Reg) (s : State) : Host.Outcome State Fault Refusal :=
  runF32 x 0x16 6 .max d a b (fun rm z p q r => FOp.eval .max fF32 rm z p q r) s

/-- VFMAX.F64 (R489). -/
def execVfmaxF64 (x : Pre) (d a b : Reg) (s : State) : Host.Outcome State Fault Refusal :=
  runF64 x 6 .max d a b s

/-- VFMAX.F16 (R489). -/
def execVfmaxF16 (x : Pre) (d a b : Reg) (s : State) : Host.Outcome State Fault Refusal :=
  runF32 x 0x17 6 .max d a b (fun rm z p q r => halvesF (FOp.eval .max fF16 rm z) p q r) s

/-- VFMAX.BF16 (R489). -/
def execVfmaxBf16 (x : Pre) (d a b : Reg) (s : State) : Host.Outcome State Fault Refusal :=
  runF32 x 0x17 14 .max d a b (fun rm z p q r => halvesF (FOp.eval .max fBF16 rm z) p q r) s

/-- VFABS.F32 (R489). -/
def execVfabsF32 (x : Pre) (d a : Reg) (s : State) : Host.Outcome State Fault Refusal :=
  runF32 x 0x16 7 .abs d a 0 (fun rm z p q r => FOp.eval .abs fF32 rm z p q r) s

/-- VFABS.F64 (R489). -/
def execVfabsF64 (x : Pre) (d a : Reg) (s : State) : Host.Outcome State Fault Refusal :=
  runF64 x 7 .abs d a 0 s

/-- VFNEG.F32 (R489). -/
def execVfnegF32 (x : Pre) (d a : Reg) (s : State) : Host.Outcome State Fault Refusal :=
  runF32 x 0x16 8 .neg d a 0 (fun rm z p q r => FOp.eval .neg fF32 rm z p q r) s

/-- VFNEG.F64 (R489). -/
def execVfnegF64 (x : Pre) (d a : Reg) (s : State) : Host.Outcome State Fault Refusal :=
  runF64 x 8 .neg d a 0 s

/-- VFNEG.F16 (R489). -/
def execVfnegF16 (x : Pre) (d a : Reg) (s : State) : Host.Outcome State Fault Refusal :=
  runF32 x 0x17 7 .neg d a 0 (fun rm z p q r => halvesF (FOp.eval .neg fF16 rm z) p q r) s

/-- VFNEG.BF16 (R489). -/
def execVfnegBf16 (x : Pre) (d a : Reg) (s : State) : Host.Outcome State Fault Refusal :=
  runF32 x 0x17 15 .neg d a 0 (fun rm z p q r => halvesF (FOp.eval .neg fBF16 rm z) p q r) s

/-- VFCLASS.F32 (R489). -/
def execVfclassF32 (x : Pre) (d a : Reg) (s : State) : Host.Outcome State Fault Refusal := runClass x 0x16 .v fF32 d a s

/-- VFCLASS.F64 (R489). -/
def execVfclassF64 (x : Pre) (d a : Reg) (s : State) : Host.Outcome State Fault Refusal := runClass x 0x18 .w fF64 d a s

/-- VFRCP (R156, R490). -/
def execVfrcp (x : Pre) (d a : Reg) (s : State) : Host.Outcome State Fault Refusal :=
  runSfu x 0 false d a 0 (fun _ z p _ => sfu32 .rcp z p) s

/-- VFRSQ (R156, R490). -/
def execVfrsq (x : Pre) (d a : Reg) (s : State) : Host.Outcome State Fault Refusal :=
  runSfu x 1 false d a 0 (fun _ z p _ => sfu32 .rsq z p) s

/-- VFSQRT (R156, R490). -/
def execVfsqrt (x : Pre) (d a : Reg) (s : State) : Host.Outcome State Fault Refusal :=
  runSfu x 2 false d a 0 (fun rm z p _ => fF32.sqrt rm z p) s

/-- VFEXP2 (R156, R490). -/
def execVfexp2 (x : Pre) (d a : Reg) (s : State) : Host.Outcome State Fault Refusal :=
  runSfu x 4 false d a 0 (fun _ z p _ => sfu32 .exp2 z p) s

/-- VFLOG2 (R156, R490). -/
def execVflog2 (x : Pre) (d a : Reg) (s : State) : Host.Outcome State Fault Refusal :=
  runSfu x 5 false d a 0 (fun _ z p _ => sfu32 .log2 z p) s

/-- VFSIN (R156, R490). -/
def execVfsin (x : Pre) (d a : Reg) (s : State) : Host.Outcome State Fault Refusal :=
  runSfu x 6 false d a 0 (fun _ z p _ => sfu32 .sin z p) s

/-- VFCOS (R156, R490). -/
def execVfcos (x : Pre) (d a : Reg) (s : State) : Host.Outcome State Fault Refusal :=
  runSfu x 7 false d a 0 (fun _ z p _ => sfu32 .cos z p) s

/-- VFTANH (R156, R490). -/
def execVftanh (x : Pre) (d a : Reg) (s : State) : Host.Outcome State Fault Refusal :=
  runSfu x 8 false d a 0 (fun _ z p _ => sfu32 .tanh z p) s

/-- VFDIV (R156, R490). -/
def execVfdiv (x : Pre) (d a b : Reg) (s : State) : Host.Outcome State Fault Refusal :=
  runSfu x 3 true d a b (fun rm z p q => fF32.div rm z p q) s

/-- VFRCP.F64 (R156, R490). -/
def execVfrcpF64 (x : Pre) (d a : Reg) (s : State) : Host.Outcome State Fault Refusal := runSfu64 x 9 d a rcp64 s

/-- VFRSQ.F64 (R156, R490). -/
def execVfrsqF64 (x : Pre) (d a : Reg) (s : State) : Host.Outcome State Fault Refusal := runSfu64 x 10 d a rsq64 s

/-- VCVT (R486): under FCTL.RM. -/
def execVcvt (x : Pre) (d a : Reg) (c : BitVec 7) (s : State) : Host.Outcome State Fault Refusal :=
  runCvt x 0 d a c (fun t _ => .ieee t.me.rm) id s

/-- VCVT.RZ (R486). -/
def execVcvtRz (x : Pre) (d a : Reg) (c : BitVec 7) (s : State) : Host.Outcome State Fault Refusal :=
  runCvt x 1 d a c (fun _ _ => .ieee .rz) id s

/-- VCVT.RN (R486). -/
def execVcvtRn (x : Pre) (d a : Reg) (c : BitVec 7) (s : State) : Host.Outcome State Fault Refusal :=
  runCvt x 2 d a c (fun _ _ => .ieee .rne) id s

/-- VCVT.SR (R486, R153, R154): every lane of ACT draws, and its counter advances. -/
def execVcvtSr (x : Pre) (d a : Reg) (c : BitVec 7) (s : State) : Host.Outcome State Fault Refusal :=
  runCvt x 3 d a c State.drawDir (fun t => t.onMe Group.drawn) s

/-- Elements of a packed word: 2 halfwords for codes below 0x10, else 4 bytes (R135). -/
def packN (c : BitVec 7) : Nat := if c.toNat < 0x10 then 2 else 4

/-- The op of VPACK: a is a pair or four registers (R135). -/
def opVpack (x : Pre) (d a : Reg) (c : BitVec 7) : Op := opCvt x 4 .v (if packN c = 2 then .w else .q) d a c

/-- Element k of VPACK's source in a lane; LANE remaps a pair (R499). -/
def State.packSrc (t : State) (x : Pre) (a : Reg) (n k i : Nat) : Nat :=
  if n = 2 then (t.srcWA x a i).toNat / 2 ^ (32 * k) % 2 ^ 32 else (vat (t.readReg (a + BitVec.ofNat 7 k)) i 0).toNat

/-- VPACK (R500). -/
def execVpack (x : Pre) (d a : Reg) (c : BitVec 7) (s : State) : Host.Outcome State Fault Refusal :=
  issue x (opVpack x d a c)
    (vecBody x fun r t =>
      let n := packN c
      t.writeF r.d fun i => (List.range n).foldl (fun (acc : FRes) k =>
        let e := convert c.toNat (.ieee t.me.rm) t.me.ftz (t.packSrc x r.a n k i)
        ⟨acc.bits + e.bits * 2 ^ (32 / n * k), acc.fl ||| e.fl⟩) ⟨0, 0⟩) s

/-- The op of VUNPK: d is a pair or four registers (R135). -/
def opVunpk (x : Pre) (d a : Reg) (c : BitVec 7) : Op := opCvt x 5 (if packN c = 2 then .w else .q) .v d a c

/-- VUNPK (R500): one register per element, the first first. -/
def execVunpk (x : Pre) (d a : Reg) (c : BitVec 7) (s : State) : Host.Outcome State Fault Refusal :=
  issue x (opVunpk x d a c)
    (vecBody x fun r t =>
      let n := packN c
      let e := fun (k i : Nat) => convert c.toNat (.ieee .rne) t.me.ftz ((t.srcVA x r.a i).toNat / 2 ^ (32 / n * k) % 2 ^ (32 / n))
      ((t.writeRun r.d (fun k i => BitVec.ofNat 32 (e k i).bits) n).partialWrite).flag
        (flagsOf t.me.act fun i => (List.range n).foldl (fun (w : Word) k => w ||| (e k i).fl) 0)) s

/-- VSCACC.E8M0 (R165, R504). -/
def execVscaccE8m0 (x : Pre) (d a b : Reg) (s : State) : Host.Outcome State Fault Refusal :=
  issue x (opVVV x 0x1B 0 .v .v .v .rw d a b)
    (vecBody x fun r t => t.writeF r.d fun i =>
      vscacc 0 t.me.rm t.me.ftz (t.srcVD r.d i).toNat (t.srcVA x r.a i).toNat (t.srcVB x r.b i).toNat) s

/-- VSCACC.E4M3 (R165, R504). -/
def execVscaccE4m3 (x : Pre) (d a b : Reg) (s : State) : Host.Outcome State Fault Refusal :=
  issue x (opVVV x 0x1B 1 .v .v .v .rw d a b)
    (vecBody x fun r t => t.writeF r.d fun i =>
      vscacc 1 t.me.rm t.me.ftz (t.srcVD r.d i).toNat (t.srcVA x r.a i).toNat (t.srcVB x r.b i).toNat) s

/-- VSCACC.BF16 (R165, R504). -/
def execVscaccBf16 (x : Pre) (d a b : Reg) (s : State) : Host.Outcome State Fault Refusal :=
  issue x (opVVV x 0x1B 2 .v .v .v .rw d a b)
    (vecBody x fun r t => t.writeF r.d fun i =>
      vscacc 2 t.me.rm t.me.ftz (t.srcVD r.d i).toNat (t.srcVA x r.a i).toNat (t.srcVB x r.b i).toNat) s

/-- VSCACC.F32 (R165, R504). -/
def execVscaccF32 (x : Pre) (d a b : Reg) (s : State) : Host.Outcome State Fault Refusal :=
  issue x (opVVV x 0x1B 3 .v .v .v .rw d a b)
    (vecBody x fun r t => t.writeF r.d fun i =>
      vscacc 3 t.me.rm t.me.ftz (t.srcVD r.d i).toNat (t.srcVA x r.a i).toNat (t.srcVB x r.b i).toNat) s

/-- VSHUF (R507): each lane reads the lane that its index names; a dead one reads 0 and sets DEADREAD. -/
def execVshuf (x : Pre) (d a b : Reg) (s : State) : Host.Outcome State Fault Refusal :=
  issue x (opVVV x 0x1C 0 .v .v .v .wr d a b)
    (vecBody x fun r t =>
      let g := t.me
      let j := fun i => (t.srcVB x r.b i).toNat % 32
      let t1 := t.writeV r.d fun i => if lane? g.live (j i) then vat (t.readReg r.a) (j i) 0 else 0
      if (lanesOf g.act).any fun i => !lane? g.live (j i) then t1.flag flDEAD else t1) s

/-- The result of VVOTE (R511). -/
def voteWord (members ballot : Word) : Dword :=
  BitVec.ofNat 64 (ballot.toNat + popCount ballot * 2 ^ 32 + (if ballot ≠ 0 then 2 ^ 38 else 0) + if ballot = members then 2 ^ 39 else 0)

/-- VVOTE (R511): acts whatever ACT holds, on the live members. -/
def execVvote (x : Pre) (d a b : Reg) (s : State) : Host.Outcome State Fault Refusal :=
  issue x (opVVV x 0x1C 1 .s .v .p .wr d a b)
    (fun r t =>
      let m := t.readP r.b
      .next (t.writeS r.d (voteWord m (maskOf fun i => lane? (m &&& t.me.live) i && vat (t.readReg r.a) i 0 != 0)))) s

/-- VELECT (R487): the lowest lane of ACT for each distinct value. -/
def execVelect (x : Pre) (d a : Reg) (s : State) : Host.Outcome State Fault Refusal :=
  issue x (opVVZ x 0x1C 2 .p .v d a)
    (vecBody x fun r t =>
      let g := t.me
      let v := fun i => vat (t.readReg r.a) i 0
      t.writeP r.d (maskOf fun i => lane? g.act i && !((List.range i).any fun j => lane? g.act j && v j == v i))) s

/-- VRED.ADD.F32 (R503). -/
def execVredAddF32 (x : Pre) (d a : Reg) (s : State) : Host.Outcome State Fault Refusal :=
  runRed x 3 0x80000000 (fun rm z p q => fF32.add rm z p q) d a s

/-- VRED.ADD.I32 (R503). -/
def execVredAddI32 (x : Pre) (d a : Reg) (s : State) : Host.Outcome State Fault Refusal :=
  runRed x 4 0 (fun _ _ p q => ⟨(p + q) % 2 ^ 32, 0⟩) d a s

/-- VRED.MAX.F32 (R503). -/
def execVredMaxF32 (x : Pre) (d a : Reg) (s : State) : Host.Outcome State Fault Refusal :=
  runRed x 5 0xFF800000 (fun _ z p q => fF32.minmax z true p q) d a s

/-- VRED.MIN.F32 (R503). -/
def execVredMinF32 (x : Pre) (d a : Reg) (s : State) : Host.Outcome State Fault Refusal :=
  runRed x 6 0x7F800000 (fun _ z p q => fF32.minmax z false p q) d a s

/-- VSCAN.ADD.I32 (R503): the inclusive sum over the lanes of ACT. -/
def execVscanAddI32 (x : Pre) (d a : Reg) (s : State) : Host.Outcome State Fault Refusal :=
  issue x (opVVZ x 0x1C 7 .v .v d a)
    (vecBody x fun r t => t.writeV r.d fun i =>
      (List.range (i + 1)).foldl (fun (acc : Word) j => if lane? t.me.act j then acc + vat (t.readReg r.a) j 0 else acc) 0) s

end Sys2Proof.Machine
end

