-- ==== Sys2Proof/Machine/Control.lean ====
section
/-! DEFINITION. System, control and window instructions (R84 to R89, R110, R111, R168, R283, R378 to R382, R407, R438 to R442,
R467, R471, R515 to R519), predicates and the execution mask (R394, R395, R429, R430), LIVEQ, EBUD and BKPT (R371, R393, R414). -/

namespace Sys2Proof.Machine

/-- An instruction of format RRR with the given fields, which ends no chunk and is performed in run-ahead. -/
def opCalc (w : Word) (fs : List Fld) : Op := { word := w, flds := fs, kind := .calc, priv := false, code := none }

/-- One that stops issue in run-ahead (R206), ending its chunk for `code`. -/
def opStop (w : Word) (fs : List Fld) (code : Option Nat) : Op := { word := w, flds := fs, kind := .stop, priv := false, code := code }

/-- NOP (R427). -/
def execNop (x : Pre) (s : State) : Host.Outcome State Fault Refusal :=
  issue x (opCalc (wordR x 0 0 0 0 0) []) (fun _ t => .next t) s

/-- EXIT (R397): waits until every access has performed and every marker result has landed; split-phase loads that have not
landed are discarded; the group ends. -/
def execExit (x : Pre) (s : State) : Host.Outcome State Fault Refusal :=
  issue x (opStop (wordR x 0 1 0 0 0) [] none) (fun _ t =>
    let t1 := t.onMe fun g => { g with flights := g.flights.filter fun f => f.ctr.isNone }
    if t1.me.flights.isEmpty then .gone (((t1.countInstr t1.cur none).bump (coreOf t1.cur) t1.me.ctx 0 1).groupEnd t1.cur)
    else .park 31 .quiet t1) s

/-- TRAP (R471): TRAPI with the operand. -/
def execTrap (x : Pre) (b : Reg) (s : State) : Host.Outcome State Fault Refusal :=
  issue x (opStop (wordR x 0 2 0 0 b) [⟨.b, .s, .rd, b⟩] none) (fun r t => .trap 0x0B (t.srcS x r.b) t) s

/-- TFENCE (R168, R467): once every earlier flag is set, ARITH on an enabled flag. -/
def execTfence (x : Pre) (s : State) : Host.Outcome State Fault Refusal :=
  issue x (opStop (wordR x 0 3 0 0 0) [] none) (fun _ t =>
    let g := t.me
    if !g.flagsQuiet then .park 29 .drain t
    else
      let v := g.fflags &&& BitVec.ofNat 64 (dbits g.fctl 15 8)
      if v = 0 then .next t else .trap 8 v t) s

/-- ERET (R116, R267, R283): outside a handler PRIV. -/
def execEret (x : Pre) (s : State) : Host.Outcome State Fault Refusal :=
  let w := wordR x 0 4 0 0 0
  issue x (opStop w [] none) (fun _ t =>
    if !t.me.intrap then .trap 3 (w.zeroExtend 64) t
    else
      let t1 := t.onMe Group.returnFromTrap
      let g := t1.me
      .gone ((t1.complete x none (some g.pc)).onMe fun y =>
        if y.intrap then y else
          Group.recount { y with unfin := g.unfin, unfinPc := g.unfinPc, partLoad := g.partLoad, clamped := g.clamped, noCheck := g.noCheck })) s

/-- YIELD (R519): the group is not ready in the next cycle of its scheduler, and its waiting age starts again after it; no architectural
effect. -/
def execYield (x : Pre) (s : State) : Host.Outcome State Fault Refusal :=
  issue x (opCalc (wordR x 0 5 0 0 0) []) (fun _ t => .next (t.onMe fun g =>
    if g.runAhead.isSome then g else { g with skip := (t.core (coreOf t.cur)).cycles + 2 })) s

/-- RDFLAG (R439). -/
def execRdflag (x : Pre) (d : Reg) (s : State) : Host.Outcome State Fault Refusal :=
  issue x (opStop (wordR x 0 6 d 0 0) [⟨.d, .s, .wr, d⟩] none) (fun r t =>
    if !t.me.flagsQuiet then .park 29 .drain t else .next (t.writeS r.d (t.me.fflags &&& 0x1FF))) s

/-- CLRFLAG (R382). -/
def execClrflag (x : Pre) (b : Reg) (s : State) : Host.Outcome State Fault Refusal :=
  issue x (opStop (wordR x 0 7 0 0 b) [⟨.b, .s, .rd, b⟩] none) (fun r t =>
    if !t.me.flagsQuiet then .park 29 .drain t
    else .next (t.onMe fun g => { g with fflags := g.fflags &&& ~~~(t.srcS x r.b &&& 0x1FF) })) s

/-- RDCYC (R438): the core's cycle counter, a VALUE of source 0. -/
def execRdcyc (x : Pre) (d : Reg) (s : State) : Host.Outcome State Fault Refusal :=
  issue x (opStop (wordR x 0 8 d 0 0) [⟨.d, .s, .wr, d⟩] (some 10)) (fun r t =>
    let (v, t1) := t.crossing t.cur 0 (BitVec.ofNat 64 (t.core (coreOf t.cur)).cycles)
    .next (t1.writeS r.d v)) s

/-! ### Branches -/

/-- The op of a BR with a field a of a class (R111, R378). -/
def opBr (x : Pre) (cond : Nat) (fs : List Fld) (a : Reg) (o : BitVec 14) : Op :=
  { word := wordBR x cond a o, flds := fs, kind := .branch, priv := false, code := none }

/-- A taken branch to the bundle's following address plus 4 * n (R110). -/
def branchTo (x : Pre) (n : Dword) (t : State) : Eff :=
  let dest := afterBundle x t.me.pc + 4 * n
  if canonical dest then .jump dest t else .trap 5 dest t

/-- BR (R378). -/
def runBr (x : Pre) (cond : Nat) (fs : List Fld) (a : Reg) (o : BitVec 14) (taken : Flds → State → Bool) (s : State) :
    Host.Outcome State Fault Refusal :=
  issue x (opBr x cond fs a o) (fun r t => if taken r t then branchTo x (immExt x o) t else .next t) s

/-- BR (R111): always taken. -/
def execBr (x : Pre) (o : BitVec 14) (s : State) : Host.Outcome State Fault Refusal := runBr x 0 [] 0 o (fun _ _ => true) s

/-- BR.Z (R111). -/
def execBrZ (x : Pre) (a : Reg) (o : BitVec 14) (s : State) : Host.Outcome State Fault Refusal :=
  runBr x 1 [⟨.a, .s, .rd, a⟩] a o (fun r t => t.readS r.a == 0) s

/-- BR.NZ (R111). -/
def execBrNz (x : Pre) (a : Reg) (o : BitVec 14) (s : State) : Host.Outcome State Fault Refusal :=
  runBr x 2 [⟨.a, .s, .rd, a⟩] a o (fun r t => t.readS r.a != 0) s

/-- BR.NEG (R111). -/
def execBrNeg (x : Pre) (a : Reg) (o : BitVec 14) (s : State) : Host.Outcome State Fault Refusal :=
  runBr x 3 [⟨.a, .s, .rd, a⟩] a o (fun r t => (t.readS r.a).msb) s

/-- BR.NNEG (R111). -/
def execBrNneg (x : Pre) (a : Reg) (o : BitVec 14) (s : State) : Host.Outcome State Fault Refusal :=
  runBr x 4 [⟨.a, .s, .rd, a⟩] a o (fun r t => !(t.readS r.a).msb) s

/-- BR.PANY (R111). -/
def execBrPany (x : Pre) (a : Reg) (o : BitVec 14) (s : State) : Host.Outcome State Fault Refusal :=
  runBr x 5 [⟨.a, .p, .rd, a⟩] a o (fun r t => (t.readP r.a &&& t.me.live) != 0) s

/-- BR.PALL (R111). -/
def execBrPall (x : Pre) (a : Reg) (o : BitVec 14) (s : State) : Host.Outcome State Fault Refusal :=
  runBr x 6 [⟨.a, .p, .rd, a⟩] a o (fun r t => (t.readP r.a &&& t.me.live) == t.me.live) s

/-- BR.PNONE (R111). -/
def execBrPnone (x : Pre) (a : Reg) (o : BitVec 14) (s : State) : Host.Outcome State Fault Refusal :=
  runBr x 7 [⟨.a, .p, .rd, a⟩] a o (fun r t => (t.readP r.a &&& t.me.live) == 0) s

/-- BR.EMZ (R111). -/
def execBrEmz (x : Pre) (o : BitVec 14) (s : State) : Host.Outcome State Fault Refusal :=
  runBr x 8 [] 0 o (fun _ t => t.me.act == 0) s

/-- JR (R407). -/
def execJr (x : Pre) (a : Reg) (s : State) : Host.Outcome State Fault Refusal :=
  issue x { opBr x 0 [⟨.a, .s, .rd, a⟩] a 0 with word := wordR x 0x0E 1 0 a 0 } (fun r t =>
    let dest := t.readS r.a
    if dest.toNat % 4 ≠ 0 then .trap 4 dest t else if canonical dest then .jump dest t else .trap 5 dest t) s

/-! ### Window moves -/

/-- LOW of a stack after a move to `base` with a window of w and an allocation of a (R86). -/
def lowAfter (low base w a : Nat) : Nat := if base < low then base else max low (base + w - a)

/-- Absolute registers spilled by a move (R86). -/
def spilledBy (low base w a : Nat) : List Nat := (List.range (lowAfter low base w a - low)).map (low + ·)

/-- Absolute registers filled by a move (R86). -/
def filledBy (low base w : Nat) : List Nat := if base < low then (List.range (min low (base + w) - base)).map (base + ·) else []

/-- A move of a stack from base `old` to `new` would spill or discard absolute register n (R86, R89). -/
def movesOut (low old : Nat) (new : Int) (w a n : Nat) : Bool :=
  (decide (0 ≤ new) && decide (low ≤ n) && decide (n < lowAfter low new.toNat w a)) ||
    (decide (new + w ≤ n) && decide (n < old + w))

/-- The least of the numbers that a test keeps. -/
def leastOf (l : List Nat) (p : Nat → Bool) : Option Nat :=
  (l.filter p).foldl (fun o n => match o with
    | none => some n
    | some k => some (min k n)) none

/-- MARKV of a move: the first register that it would spill or discard and that is pending (R89, R122). -/
def moveMarkv (g : Group) (vb sb : Int) : Option Dword :=
  let vs := g.pend.filterMap fun p => match p.1 with
    | .v n => some n
    | _ => none
  let ss := g.pend.filterMap fun p => match p.1 with
    | .s n => some n
    | _ => none
  match leastOf vs (movesOut g.vlow g.vb vb g.wv g.av) with
  | some n => some (BitVec.ofNat 64 (n % 128 + 256 + 512 + n % 65536 * 1024))
  | none => (leastOf ss (movesOut g.slow g.sb sb g.ws g.as)).map fun n => BitVec.ofNat 64 (n % 128 + 256 + 512 + n % 65536 * 1024 + 2 ^ 26)

/-- The move would pass the attic (R88). -/
def State.passesAttic (t : State) (vb sb : Nat) : Bool :=
  let g := t.me
  decide (2 ^ (t.ctx g.ctx).atts < 128 * (vb + g.wv) + 8 * (sb + g.ws))

/-- The attic address of an absolute vector or scalar register (R87). -/
def State.atticAddr (t : State) (vec : Bool) (n : Nat) : Dword :=
  let g := t.me
  let c := t.ctx g.ctx
  c.attb + BitVec.ofNat 64 (g.ordinal * 2 ^ c.atts + if vec then 128 * n else 2 ^ c.atts - 8 * n - 8)

/-- What the pages of an access list make of its instruction, when no lane may perform: a walk, MEMFAULT, PERM or a park
(R264, R265); the check on a location's use is `bad`. -/
def State.atticTrouble (t : State) (l : List (Nat × Dword × Spot)) : Option Eff :=
  if l.any (fun p => p.2.2 == .walk) then
    some (.park 19 .walk ((l.filter fun p => p.2.2 == .walk).foldl (fun st p => st.askWalk st.cur p.2.1 false) t))
  else match l.find? fun p => p.2.2 == .bad with
    | some p => some (.trap 5 p.2.1 t)
    | none =>
      match l.find? fun p => match p.2.2 with
        | .perm => true
        | .loc a _ _ => !isLocal a || t.fmtAt a != .p
        | _ => false with
      | some p => some (.trap 6 p.2.1 t)
      | none =>
        let ps := l.filterMap fun p => match p.2.2 with
          | .park c => some (p.2.1, c)
          | _ => none
        if ps.isEmpty then none
        else some (.park (if ps.all (·.2) then 18 else 17) .fault (t.pageFault t.cur ps 4))

/-- An attic access of the current instruction: an outstanding result that a marker waits for (R86). -/
def atticFlight (g : Group) (kind : FlightKind) (r : RegId) (va : Dword) (loc width lane : Nat) (data : Dword) (value : Lanes) (hint : Nat) : Flight := {
  id := g.nextFlight, seq := g.nextSeq, kind := kind, lane := lane, va := va, loc := loc, width := width, ord := .relaxed, scope := .grp,
  data := data, cmp := 0, dest := [r], sext := false, ctr := none, value := value, mask := g.live, flags := 0, cover := false, hint := hint }

/-- A group with one more outstanding flight. -/
def Group.fly (g : Group) (f : Flight) : Group := { g with flights := g.flights ++ [f], nextFlight := g.nextFlight + 1 }

/-- One register spilled to its attic location: a vector register as its two halves of 64 data bytes, dead lanes zero (R86, R87, R290). -/
def State.spillReg (t : State) (vec : Bool) (n loc : Nat) (va : Dword) (hint : Nat) : State :=
  t.onMe fun g =>
    if vec then
      let v := lanesFn fun i => if lane? g.live i then vat (g.vabs n) i 0 else 0
      let g1 := g.fly (atticFlight g .spill (.v n) va loc 64 0 0 v hint)
      g1.fly (atticFlight g1 .spill (.v n) va (t.locPlus loc 64) 64 16 0 v hint)
    else g.fly (atticFlight g .spill (.s n) va loc 8 0 (g.sabs n) Lanes.zero hint)

/-- The spills of a register that are outstanding reach the attic, so that its fill reads them. -/
def State.spillsLand (t : State) (r : RegId) : State :=
  (t.me.flights.filter fun f => f.kind == .spill && f.dest == [r]).foldl (fun st f => st.performSpill st.cur f) t

/-- One register read from its attic location: its fill is outstanding and the register pending (R86); a poisoned sector
terminates the context (R294, R516). -/
def State.fillReg (t : State) (vec : Bool) (n loc : Nat) (va : Dword) (hint : Nat) : State :=
  let k := cluOf (coreOf t.cur)
  let c := t.me.ctx
  let r : RegId := if vec then .v n else .s n
  let (o1, v1, t1) := ((t.spillsLand r).grantLine t.cur loc false).l2Read k loc (if vec then 64 else 8) c va.toNat hint (.group t.cur)
  let (o2, v2, t2) := if vec then t1.l2Read k (t.locPlus loc 64) 64 c va.toNat hint (.group t.cur) else (.ok, 0, t1)
  if o1 = .poison || o2 = .poison then t2.doom c 4
  else t2.onMe fun g =>
    let h := g.fly (atticFlight g .fill r va loc 0 0 (BitVec.ofNat 64 v1) (lanesFrom (leBytes 64 v1 ++ leBytes 64 v2)) hint)
    { h with pend := h.pend ++ [(r, .marker)] }

/-- Registers of a stack that are neither kept nor entering with a value read zero (R85, R86). -/
def clearFrom {α : Type} (m : SMap α) (top : Nat) : SMap α := m.filter fun e => decide (e.1 < top)

/-- The window move itself, once WINDOW and MARKV are past: the attic accesses, then the new bases (R85 to R89). -/
def State.moveTo (t : State) (vb sb : Nat) (go : State → Eff) : Eff :=
  let g := t.me
  let sp := ((spilledBy g.vlow vb g.wv g.av).map fun n => (true, n)) ++ (spilledBy g.slow sb g.ws g.as).map fun n => (false, n)
  let fi := ((filledBy g.vlow vb g.wv).map fun n => (true, n)) ++ (filledBy g.slow sb g.ws).map fun n => (false, n)
  let (ls, t1) := t.spots t.cur .w false (sp.map fun p => (p.2, t.atticAddr p.1 p.2))
  let (lf, t2) := t1.spots t.cur .r false (fi.map fun p => (p.2, t.atticAddr p.1 p.2))
  match t2.atticTrouble (ls ++ lf) with
  | some e => e
  | none =>
    let at_ := fun (p : Spot) => match p with
      | .loc a h _ => (a, h)
      | _ => (0, 0)
    let t3 := (sp.zip ls).foldl (fun st p => st.spillReg p.1.1 p.1.2 (at_ p.2.2.2).1 p.2.2.1 (at_ p.2.2.2).2) t2
    let t4 := t3.onMe fun y => {
      y with
      vregs := clearFrom y.vregs (min (vb + y.wv) (y.vb + y.wv)), sregs := clearFrom y.sregs (min (sb + y.ws) (y.sb + y.ws)),
      vb := vb, sb := sb, vlow := lowAfter y.vlow vb y.wv y.av, slow := lowAfter y.slow sb y.ws y.as }
    let t5 := (fi.zip lf).foldl (fun st p => st.fillReg p.1.1 p.1.2 (at_ p.2.2.2).1 p.2.2.1 (at_ p.2.2.2).2) t4
    go (t5.onMe fun y => { y with nextSeq := y.nextSeq + 1 })

/-- A call (R380, R381): to the address `to`, with the slides of d. -/
def callTo (x : Pre) (k : BitVec 7) (dest : Dword) (aligned : Bool) (t : State) : Eff :=
  let g := t.me
  let vb := g.vb + 16 * (k.toNat / 16)
  let sb := g.sb + 8 * (k.toNat % 16)
  match moveMarkv g vb sb with
  | some v => .trap 2 v t
  | none =>
    if g.links.length = 32 then .trap 0x12 2 t
    else if t.passesAttic vb sb then .trap 0x12 1 t
    else if !aligned then .trap 4 dest t
    else if !canonical dest then .trap 5 dest t
    else t.moveTo vb sb fun u => .jump dest (u.onMe fun y => { y with links := (afterBundle x y.pc, k) :: y.links })

/-- CALL (R380). -/
def execCall (x : Pre) (k : BitVec 7) (im : BitVec 18) (s : State) : Host.Outcome State Fault Refusal :=
  issue x (opStop (wordLI x 0x0D k im) [] none) (fun _ t =>
    callTo x k (afterBundle x t.me.pc + 4 * immExt x im) true t) s

/-- CALLR (R381): a target that is not 4-byte aligned raises MISALIGN. -/
def execCallr (x : Pre) (k : BitVec 7) (a : Reg) (s : State) : Host.Outcome State Fault Refusal :=
  issue x (opStop (wordR x 0x0E 2 k a 0) [⟨.a, .s, .rd, a⟩] none) (fun r t =>
    callTo x k (t.readS r.a) (decide ((t.readS r.a).toNat % 4 = 0)) t) s

/-- RET (R442). -/
def execRet (x : Pre) (s : State) : Host.Outcome State Fault Refusal :=
  issue x (opStop (wordR x 0x0E 0 0 0 0) [] none) (fun _ t =>
    let g := t.me
    match g.links with
    | [] => .trap 0x12 3 t
    | (ra, k) :: rest =>
      let vb : Int := (g.vb : Int) - (16 * (k.toNat / 16) : Nat)
      let sb : Int := (g.sb : Int) - (8 * (k.toNat % 16) : Nat)
      match moveMarkv g vb sb with
      | some v => .trap 2 v t
      | none =>
        if vb < 0 || sb < 0 then .trap 0x12 4 t
        else t.moveTo vb.toNat sb.toNat fun u => .jump ra (u.onMe fun y => { y with links := rest })) s

/-- A move of one window by an explicit amount (R515, R516). -/
def slideTo (vb sb : Int) (t : State) : Eff :=
  let g := t.me
  match moveMarkv g vb sb with
  | some v => .trap 2 v t
  | none =>
    if vb < 0 || sb < 0 then .trap 0x12 4 t
    else if (decide ((g.vb : Int) < vb) || decide ((g.sb : Int) < sb)) && t.passesAttic vb.toNat sb.toNat then .trap 0x12 1 t
    else t.moveTo vb.toNat sb.toNat .next

/-- WINV (R515, R516). -/
def execWinv (x : Pre) (b : Reg) (s : State) : Host.Outcome State Fault Refusal :=
  issue x (opStop (wordR x 0x0F 0 0 0 b) [⟨.b, .s, .rd, b⟩] none) (fun r t =>
    slideTo (t.me.vb + 16 * (t.srcS x r.b).toInt) t.me.sb t) s

/-- WINS (R515, R516). -/
def execWins (x : Pre) (b : Reg) (s : State) : Host.Outcome State Fault Refusal :=
  issue x (opStop (wordR x 0x0F 1 0 0 b) [⟨.b, .s, .rd, b⟩] none) (fun r t =>
    slideTo t.me.vb (t.me.sb + 8 * (t.srcS x r.b).toInt) t) s

/-- WINQ (R515): WBASE. -/
def execWinq (x : Pre) (d : Reg) (s : State) : Host.Outcome State Fault Refusal :=
  issue x (opCalc (wordR x 0x0F 2 d 0 0) [⟨.d, .s, .wr, d⟩]) (fun r t => .next (t.writeS r.d t.me.wbase)) s

/-! ### Predicates and masks -/

/-- A predicate from two predicates (R429). -/
def runPred (x : Pre) (m : Nat) (d a b : Reg) (f : Word → Word → Word) (s : State) : Host.Outcome State Fault Refusal :=
  issue x (opCalc (wordR x 0x10 m d a b) [⟨.d, .p, .wr, d⟩, ⟨.a, .p, .rd, a⟩, ⟨.b, .p, .rd, b⟩])
    (fun r t => .next (t.writeP r.d (f (t.readP r.a) (t.readP r.b)))) s

/-- PAND (R429). -/
def execPand (x : Pre) (d a b : Reg) (s : State) : Host.Outcome State Fault Refusal := runPred x 0 d a b (fun p q => p &&& q) s

/-- POR (R429). -/
def execPor (x : Pre) (d a b : Reg) (s : State) : Host.Outcome State Fault Refusal := runPred x 1 d a b (fun p q => p ||| q) s

/-- PXOR (R429). -/
def execPxor (x : Pre) (d a b : Reg) (s : State) : Host.Outcome State Fault Refusal := runPred x 2 d a b (fun p q => p ^^^ q) s

/-- PANDN (R429). -/
def execPandn (x : Pre) (d a b : Reg) (s : State) : Host.Outcome State Fault Refusal := runPred x 3 d a b (fun p q => p &&& ~~~q) s

/-- PNOT (R429). -/
def execPnot (x : Pre) (d a : Reg) (s : State) : Host.Outcome State Fault Refusal :=
  issue x (opCalc (wordR x 0x10 4 d a 0) [⟨.d, .p, .wr, d⟩, ⟨.a, .p, .rd, a⟩]) (fun r t => .next (t.writeP r.d (~~~ t.readP r.a))) s

/-- PSET (R429). -/
def execPset (x : Pre) (d b : Reg) (s : State) : Host.Outcome State Fault Refusal :=
  issue x (opCalc (wordR x 0x10 5 d 0 b) [⟨.d, .p, .wr, d⟩, ⟨.b, .s, .rd, b⟩])
    (fun r t => .next (t.writeP r.d ((t.srcS x r.b).truncate 32))) s

/-- A scalar from a predicate (R429). -/
def runFromPred (x : Pre) (m : Nat) (d a : Reg) (f : State → Word → Dword) (s : State) : Host.Outcome State Fault Refusal :=
  issue x (opCalc (wordR x 0x10 m d a 0) [⟨.d, .s, .wr, d⟩, ⟨.a, .p, .rd, a⟩])
    (fun r t => .next (t.writeS r.d (f t (t.readP r.a)))) s

/-- PGET (R429). -/
def execPget (x : Pre) (d a : Reg) (s : State) : Host.Outcome State Fault Refusal :=
  runFromPred x 6 d a (fun _ p => p.zeroExtend 64) s

/-- PPOP (R429): set bits among the live lanes. -/
def execPpop (x : Pre) (d a : Reg) (s : State) : Host.Outcome State Fault Refusal :=
  runFromPred x 10 d a (fun t p => BitVec.ofNat 64 (popCount (p &&& t.me.live))) s

/-- PFIRST (R429): the lowest set live bit, or 32. -/
def execPfirst (x : Pre) (d a : Reg) (s : State) : Host.Outcome State Fault Refusal :=
  runFromPred x 11 d a (fun t p => BitVec.ofNat 64 ((lanesOf (p &&& t.me.live)).head?.getD 32)) s

/-- EMSET (R394). -/
def execEmset (x : Pre) (a : Reg) (s : State) : Host.Outcome State Fault Refusal :=
  issue x (opCalc (wordR x 0x10 7 0 a 0) [⟨.a, .p, .rd, a⟩]) (fun r t => .next (t.onMe fun g => { g with em := t.readP r.a })) s

/-- EMGET (R394). -/
def execEmget (x : Pre) (d : Reg) (s : State) : Host.Outcome State Fault Refusal :=
  issue x (opCalc (wordR x 0x10 8 d 0 0) [⟨.d, .p, .wr, d⟩]) (fun r t => .next (t.writeP r.d t.me.em)) s

/-- EMAND (R394). -/
def execEmand (x : Pre) (a : Reg) (s : State) : Host.Outcome State Fault Refusal :=
  issue x (opCalc (wordR x 0x10 9 0 a 0) [⟨.a, .p, .rd, a⟩])
    (fun r t => .next (t.onMe fun g => { g with em := g.em &&& t.readP r.a })) s

/-! ### System registers and queries -/

/-- LIVEQ (R414). -/
def execLiveq (x : Pre) (d : Reg) (s : State) : Host.Outcome State Fault Refusal :=
  issue x (opCalc (wordR x 0x37 3 d 0 0) [⟨.d, .s, .wr, d⟩])
    (fun r t => .next (t.writeS r.d (BitVec.ofNat 64 (t.me.live.toNat + popCount t.me.live * 2 ^ 32)))) s

/-- The error budget read at its home: a VALUE of source 7 (R393). -/
def State.readBudget (t : State) (d : Reg) : Eff :=
  let (v, t1) := t.crossing t.cur 7 ((t.ctx t.me.ctx).errbud.zeroExtend 64)
  .next (t1.writeS d v)

/-- EBUD (R393). -/
def execEbud (x : Pre) (d : Reg) (s : State) : Host.Outcome State Fault Refusal :=
  issue x (opStop (wordR x 0x37 2 d 0 0) [⟨.d, .s, .wr, d⟩] (some 10)) (fun r t => t.readBudget r.d) s

/-- BKPT (R371): the trap with TVAL 8. -/
def execBkpt (x : Pre) (s : State) : Host.Outcome State Fault Refusal :=
  issue x (opStop (wordR x 0x38 0 0 0 0) [] none) (fun _ t => .trap 0x0C 8 t) s

/-- A system register's value (R93, R94). -/
def State.sysReg (t : State) (r : SysReg) : Dword :=
  let g := t.me
  match r with
  | .fctl => g.fctl
  | .fflags => g.fflags
  | .tvec => (t.ctx g.ctx).tvec
  | .tcause => g.tcause
  | .tpc => g.tpc
  | .tval => g.tval
  | .rpidx => g.rpidx
  | .errbud => (t.ctx g.ctx).errbud.zeroExtend 64
  | .em => g.em.zeroExtend 64
  | .live => g.live.zeroExtend 64
  | .wbase => g.wbase

/-- RDSR (R440): FFLAGS waits as RDFLAG does, ERRBUD is read as EBUD reads it. -/
def execRdsr (x : Pre) (d : Reg) (im : SysReg) (s : State) : Host.Outcome State Fault Refusal :=
  let w := wordR x 0x39 0 d 0 im.code
  let fs : List Fld := [⟨.d, .s, .wr, d⟩]
  match im with
  | .errbud => issue x (opStop w fs (some 10)) (fun r t => t.readBudget r.d) s
  | .fflags => issue x (opStop w fs none) (fun r t =>
      if !t.me.flagsQuiet then .park 29 .drain t else .next (t.writeS r.d t.me.fflags)) s
  | q => issue x (opCalc w fs) (fun r t => .next (t.writeS r.d (t.sysReg q))) s

/-- A register that WRSR may not write (R517). -/
def sysReadOnly : SysReg → Bool
  | .tvec | .errbud | .live | .wbase => true
  | _ => false

/-- Reserved bits of a system register (R94). -/
def sysReserved : SysReg → Dword
  | .fctl => 0x00000000FFFF00F8
  | .fflags => ~~~0x1FF
  | .tcause => ~~~0x1FF
  | .rpidx => ~~~0x3F
  | _ => 0

/-- The write of WRSR (R154, R517). -/
def Group.setSys (g : Group) (r : SysReg) (v : Dword) : Group :=
  match r with
  | .fctl => { g with fctl := v, draws := Vector.replicate 32 0 }
  | .fflags => { g with fflags := v }
  | .tcause => { g with tcause := v }
  | .tpc => { g with tpc := v }
  | .tval => { g with tval := v }
  | .rpidx => { g with rpidx := v }
  | .em => { g with em := v.truncate 32 }
  | _ => g

/-- WRSR (R517). -/
def execWrsr (x : Pre) (a : Reg) (im : SysReg) (s : State) : Host.Outcome State Fault Refusal :=
  let w := wordR x 0x39 1 0 a im.code
  issue x { opStop w [⟨.a, .s, .rd, a⟩] none with priv := sysReadOnly im } (fun r t =>
    let v := t.readS r.a
    if im = .fflags && !t.me.flagsQuiet then .park 29 .drain t
    else if v &&& sysReserved im ≠ 0 then .trap 1 (illegalVal w 2 0) t
    else if im = .tpc && decide (v.toNat % 4 ≠ 0) then .trap 4 v t
    else if im = .tpc && !canonical v then .trap 5 v t
    else .next (t.onMe fun g => g.setSys im v)) s

/-- A word that is no instruction (R124 steps 1 to 3, R125, R137): ILLEGAL. -/
def execIllegalWord (reason : Byte) (word : Word) (s : State) : Host.Outcome State Fault Refusal :=
  if s.me.runAhead.isSome then .next s.runStop else .next ((s.enter 0).raise 1 (illegalVal word reason.toNat 0) false).reap

end Sys2Proof.Machine
end

