-- ==== Sys2Proof/Machine/Memory.lean ====
section
/-! DEFINITION. Memory instructions: where their lanes go and what stops them (R124, R171 to R173, R191, R265, R341), bound checks
(R302 to R305), request slots (R187, R188), class-D detections at issue (R296, R300), the accesses they leave outstanding, the
mapping table (R199 to R202), prefetch and run-ahead loads (R203 to R207, R431 to R433), and the waits WAITC, MWAIT and SYNCW
(R424 to R426, R461 to R463, R513, R514). -/

namespace Sys2Proof.Machine

/-! ### What a memory instruction asks -/

/-- A memory instruction as its issue sees it. -/
structure Mem where
  kind : FlightKind
  acc : Acc
  /-- bytes of one access -/
  width : Nat
  lanes : Word
  /-- LD, ST, ATOM: one access, on behalf of the control thread -/
  scalar : Bool
  /-- addresses are cluster scratchpad addresses (R171) -/
  spad : Bool
  ord : OrdKind
  scope : Scope
  addr : Nat → Dword
  data : Nat → Dword
  cmp : Nat → Dword
  dest : List RegId
  sext : Bool
  ctr : Option Nat

/-- One access that can be performed: its lane, address, location, L3 hint and whether its page is an enclave page. -/
structure Hit where
  lane : Nat
  va : Dword
  loc : Nat
  hint : Nat
  enc : Bool
  deriving DecidableEq, Repr

/-- The ordering kind of a bundle (R112). -/
def ordKindOf (x : Pre) : OrdKind := (x.px.ord.map (·.kind)).getD .relaxed

/-- The scope of a bundle's ORD (R112). -/
def ordScopeOf (x : Pre) : Scope := (x.px.ord.map (·.scope)).getD .grp

/-- ORD sets W64 (R112). -/
def w64Of (x : Pre) : Bool := (x.px.ord.map (·.w64)).getD false

/-- The chunk end of an access that ORD makes acquire, release or seq at CLU scope or wider (R317). -/
def ordCode (x : Pre) : Option Nat := if ordKindOf x != .relaxed && decide (2 ≤ scopeOrd (ordScopeOf x)) then some 1 else none

/-- A memory instruction: performed in run-ahead when it is a load (R204, R205). -/
def opMem (w : Word) (fs : List Fld) (load : Bool) (code : Option Nat) : Op :=
  { word := w, flds := fs, kind := if load then .load else .stop, priv := false, code := code }

/-- s[a] + s[b], or s[a] + the immediate (R412). -/
def State.addrS (s : State) (x : Pre) (r : Flds) : Dword := s.readS r.a + s.srcS x r.b

/-- s[a] + sext(v[b]) * n (R448, R492). -/
def State.addrV (s : State) (x : Pre) (r : Flds) (n : Nat) (i : Nat) : Dword :=
  s.readS r.a + (s.srcVB x r.b i).signExtend 64 * BitVec.ofNat 64 n

/-- s[a] + s[b] + 4 * lane (R492). -/
def State.addrC (s : State) (x : Pre) (r : Flds) (i : Nat) : Dword := s.addrS x r + BitVec.ofNat 64 (4 * i)

/-- The accesses still to perform: those of every lane, or of the unfinished lanes (R226, R265). -/
def Mem.todo (m : Mem) (g : Group) : List (Nat × Dword) :=
  (lanesOf (if g.resumes then m.lanes &&& g.unfin else m.lanes)).map fun i => (i, m.addr i)

/-- The access kind reads. -/
def Mem.reads (m : Mem) : Bool := m.acc != .w

/-- The access kind writes. -/
def Mem.writes (m : Mem) : Bool := m.acc != .r

/-- No lane may perform before every lane has translated (R209, R363, R412, R459). -/
def Mem.whole (m : Mem) : Bool := m.scalar || m.ord == .release || m.ord == .acqRel || m.ord == .seq

/-- A lane mask from lanes. -/
def lanesMask (l : List Nat) : Word := maskOf l.contains

/-! ### Where the lanes go -/

/-- The accesses that can be performed. -/
def hitsOf (ps : List (Nat × Dword × Spot)) : List Hit :=
  ps.filterMap fun p => match p.2.2 with
    | .loc a hint enc => some { lane := p.1, va := p.2.1, loc := a, hint := hint, enc := enc }
    | _ => none

/-- The lanes whose pages make them park: lane, address, and whether the page is in the cellar. -/
def parkedOf (ps : List (Nat × Dword × Spot)) : List (Nat × Dword × Bool) :=
  ps.filterMap fun p => match p.2.2 with
    | .park c => some (p.1, p.2.1, c)
    | _ => none

/-- The operations that an atomic on a host line expresses (R177). -/
def hostAtom : AtomOp → Bool
  | .add => true
  | .swap => true
  | .cas => true
  | _ => false

/-- The instruction may not reach a line of host memory: an atomic other than ADD, SWAP and CAS (R177, R364). -/
def Mem.noHost (m : Mem) : Bool := match m.kind with
  | .atomic op => !hostAtom op
  | _ => false

/-- Where the leaf that serves an address in the current group's TLBs leads, whatever it permits. -/
def State.leafOf (t : State) (va : Dword) : Nat := ((t.tlb (coreOf t.cur) t.me.ctx va).map fun e => leafAddr e.pte).getD 0

/-- The lowest lane that traps in translation: cause and address; a line of host memory that an atomic may not reach comes before its
permission (R177, R265, R364). -/
def badPlace (t : State) (m : Mem) (ps : List (Nat × Dword × Spot)) : Option (Nat × Dword) :=
  ps.findSome? fun p => match p.2.2 with
    | .bad => some (5, p.2.1)
    | .perm => some (if m.noHost && isHost (t.leafOf p.2.1) then 5 else 6, p.2.1)
    | .loc a _ _ => if m.noHost && isHost a then some (5, p.2.1) else none
    | _ => none

/-- Ask for the walks of an instruction's pages (R264). -/
def State.askWalks (s : State) (g : Nat) (ps : List (Nat × Dword × Spot)) : State :=
  ps.foldl (fun st p => if p.2.2 = .walk then st.askWalk g p.2.1 false else st) s

/-- Virtual addresses: MISALIGN, then translation (R124, R265). -/
def memPlaceV (m : Mem) (t : State) : Eff ⊕ (List (Nat × Dword × Spot) × State) :=
  let todo := m.todo t.me
  match todo.find? fun p => p.2.toNat % m.width != 0 with
  | some p => .inl (.trap 4 p.2 t)
  | none =>
    let (ps, t1) := t.spots t.cur m.acc m.scalar todo
    if ps.any fun p => p.2.2 = .walk then .inl (.park 19 .walk (t1.askWalks t.cur ps))
    else match badPlace t1 m ps with
      | some (c, va) => .inl (.trap c va t1)
      | none => .inr (ps, t1)

/-- A cluster scratchpad address of group g names a byte below the usable size in a tile of its context (R171, R173). -/
def State.spadGood (s : State) (g : Nat) (a : Dword) : Bool :=
  decide (a.toNat < 2 ^ 25) && s.spadOk (s.grp g).ctx (spadOf (cluOf (coreOf g)) a.toNat)

/-- Cluster scratchpad addresses: MEMFAULT for range and allocation, then MISALIGN (R124, R449). -/
def memPlaceS (m : Mem) (t : State) : Eff ⊕ (List (Nat × Dword × Spot) × State) :=
  let todo := m.todo t.me
  match todo.find? fun p => !t.spadGood t.cur p.2 with
  | some p => .inl (.trap 5 p.2 t)
  | none =>
    match todo.find? fun p => p.2.toNat % m.width != 0 with
    | some p => .inl (.trap 4 p.2 t)
    | none => .inr (todo.map fun p => (p.1, p.2, .loc (spadOf (cluOf (coreOf t.cur)) p.2.toNat) 0 false), t)

/-- Where the lanes of a memory instruction go, or what stops it first (R124). -/
def memPlace (m : Mem) (t : State) : Eff ⊕ (List (Nat × Dword × Spot) × State) :=
  if m.spad then memPlaceS m t else memPlaceV m t

/-- The lowest lane whose tile's owner state refuses it (R191). -/
def State.refusedTile (s : State) (acc : Acc) (hs : List Hit) : Option Dword :=
  (hs.find? fun h => isSpad h.loc && !ownerAllows (s.ownerAt h.loc) acc).map (·.va)

/-- A watchpoint that fires: WATCH, or the halt of its set (R341, R342). -/
def watchEff (t : State) (w : Nat × WatchReg × Dword) : Eff :=
  if w.2.1.wpc.getLsbD 7 then .trap 0x0D w.2.2 t
  else .gone (t.haltSet t.cur (dbits w.2.1.wpc 9 8) 2 0 w.1 false w.2.2)

/-! ### Bound registers -/

/-- Bytes of an element of a bound format (R302). -/
def boundBytes (f : Nat) : Nat := if f = 0 || f = 3 || f = 4 then 4 else if f = 1 || f = 2 || f = 5 || f = 6 then 2 else 1

/-- The floating format of a bound format. -/
def boundFmt : Nat → Option Fmt
  | 0 => some fF32
  | 1 => some fF16
  | 2 => some fBF16
  | 9 => some fE4M3
  | 10 => some fE5M2
  | _ => none

/-- The signed formats of R302. -/
def boundSigned (f : Nat) : Bool := f == 3 || f == 5 || f == 7

/-- a is below b in a bound format's numeric order; false with a NaN (R304). -/
def boundLt (f a b : Nat) : Bool :=
  match boundFmt f with
  | some q => !(q.dec a).isNan && !(q.dec b).isNan && (q.dec a).lt (q.dec b)
  | none =>
    if boundSigned f then decide (sInt (8 * boundBytes f) a < sInt (8 * boundBytes f) b) else decide (a < b)

/-- The pattern is a NaN of the format. -/
def boundNan (f a : Nat) : Bool :=
  match boundFmt f with
  | some q => (q.dec a).isNan
  | none => false

/-- An element fails a bound register (R304). -/
def Bound.fails (b : Bound) (v : Nat) : Bool :=
  boundNan b.fmt v || boundLt b.fmt v (b.low.toNat) || boundLt b.fmt b.high.toNat v

/-- A failing element clamped (R305). -/
def Bound.clamp (b : Bound) (v : Nat) : Nat :=
  if boundNan b.fmt v || boundLt b.fmt v b.low.toNat then b.low.toNat else if boundLt b.fmt b.high.toNat v then b.high.toNat else v

/-- Offsets, in a write of w bytes at address a, of the elements that it covers wholly (R304). -/
def Bound.elems (b : Bound) (a w : Nat) : List Nat :=
  let z := boundBytes b.fmt
  (List.range w).filter fun o =>
    decide (o + z ≤ w) && decide (b.base.toNat ≤ a + o) && decide (a + o + z ≤ b.limit.toNat) && (a + o - b.base.toNat) % z == 0

/-- Element at offset o of the data of a write. -/
def elemAt (d o z : Nat) : Nat := d / 2 ^ (8 * o) % 2 ^ (8 * z)

/-- The data with that element replaced. -/
def elemSet (d o z v : Nat) : Nat := d - elemAt d o z * 2 ^ (8 * o) + v % 2 ^ (8 * z) * 2 ^ (8 * o)

/-- The offsets of a write's elements that fail a register. -/
def Bound.failing (b : Bound) (a w d : Nat) : List Nat := (b.elems a w).filter fun o => b.fails (elemAt d o (boundBytes b.fmt))

/-- The data of a write after a CLAMP register (R305). -/
def Bound.clampData (b : Bound) (a w d : Nat) : Nat :=
  (b.failing a w d).foldl (fun e o => elemSet e o (boundBytes b.fmt) (b.clamp (elemAt e o (boundBytes b.fmt)))) d

/-- The valid bound registers of a context that cover a space, from a core's copy, in rising order (R304, R465). -/
def State.boundsFor (s : State) (core c : Nat) (spad : Bool) : List Bound :=
  (SMap.look (s.core core).bounds c noBounds).toList.filter fun b => b.valid && (b.space == 1) == spad

/-- The data of one write after every CLAMP register, in rising order (R305). -/
def clampAll (bs : List Bound) (a w d : Nat) : Nat := (bs.filter (·.action == 1)).foldl (fun e b => b.clampData a w e) d

/-- The first address at which a write fails a register of an action (R305). -/
def firstFail (bs : List Bound) (act a w d : Nat) : Option Nat :=
  (bs.filter (·.action == act)).foldl (fun (r : Option Nat) b => match (b.failing a w d).head?, r with
    | some o, some p => some (min p (a + o))
    | some o, none => some (a + o)
    | none, r => r) none

/-- What the bound check of a store's accesses finds, with address and data of each (R304, R305). -/
structure BoundRes where
  trap : Option Dword
  /-- the first failing address of a CLAMP -/
  clamp : Option Dword
  flag : Bool
  deriving DecidableEq, Repr

/-- The bound check of a store (R305). -/
def boundCheck (bs : List Bound) (w : Nat) (l : List (Dword × Nat)) : BoundRes :=
  let first := fun act => (l.findSome? fun p => firstFail bs act p.1.toNat w p.2).map (BitVec.ofNat 64)
  { trap := first 2, clamp := first 1, flag := (first 0).isSome }

/-! ### Slots and detections -/

/-- Sectors for which an instruction needs a request slot (R187). -/
def needSlots (hs : List Hit) : List Nat :=
  hs.foldl (fun l h => if isSpad h.loc || l.contains (h.loc / 64) then l else l ++ [h.loc / 64]) []

/-- The accesses of a store that together cover every data byte of the sector of a location (R295). -/
def coversSector (s : State) (w : Nat) (hs : List Hit) (loc : Nat) : Bool :=
  let got := hs.foldl (fun (a : Dword) h => if h.loc / 64 = loc / 64 then a ||| byteMask (h.loc % 64) w else a) 0
  let need := if isLocal loc && loc / 64 % 8 == 7 && decide (s.fmtAt loc = .d) then byteMask 0 48 else byteMask 0 64
  got &&& need == need

/-- The accesses of a store that together cover the whole scratchpad row of a location: 128 bytes in format D (R298, R457). -/
def coversRow (s : State) (w : Nat) (hs : List Hit) (loc : Nat) : Bool :=
  let k := s.secKey loc * 64
  coversSector s w hs k && (s.secLen loc == 64 || coversSector s w hs (k + 64))

/-- A read of the sector of a location would be a class-D detection: one is stored, or a replay's log has one (R294, R311). -/
def State.failing (s : State) (g loc : Nat) : Bool :=
  decide (s.fmtAt loc = .d) && s.meetsError loc (s.grp g).ctx (.group g)

/-- A class-D detection at issue, borne by the group (R296, R300): whether it exhausts the budget. `flag`: it sets ECCZ (R167). -/
def State.detectNow (s : State) (g : Nat) (h : Hit) (flag : Bool) : Bool × State :=
  if s.failing g h.loc then
    match s.readSector h.loc (s.grp g).ctx h.va.toNat (.group g) with
    | (.detected, s1) => s1.bear g flag
    | (_, s1) => (false, s1)
  else (false, s)

/-- What the issue itself reads for one access (R296, R300, R459): an LD's or ATOM's failing sector, a failing scratchpad row, and
the fill of a store that does not cover its sector. -/
def State.probe (s : State) (g : Nat) (m : Mem) (hs : List Hit) (h : Hit) : Bool × State :=
  let k := cluOf (coreOf g)
  let x := s.sector k h.loc
  if isSpad h.loc then (if m.kind == .store && coversRow s m.width hs h.loc then (false, s) else s.detectNow g h true)
  else match m.kind with
    | .load => if m.scalar && x.valid &&& byteMask (h.loc % 64) m.width != byteMask (h.loc % 64) m.width then s.detectNow g h true else (false, s)
    | .atomic _ => if m.scalar && x.written == 0 then s.detectNow g h false else (false, s)
    | _ =>
      if x.valid != 0 || coversSector s m.width hs h.loc then (false, s)
      else match ((s.grantLine g h.loc true).bump (coreOf g) (s.grp g).ctx 8 1).fill k h.loc (s.grp g).ctx h.va.toNat h.hint (.group g) with
        | (.detected, s1) => s1.bear g true
        | (_, s1) => (false, s1)

/-- The probes of all accesses, in lane order, up to one that exhausts the budget: its address (R300). -/
def State.probes (s : State) (g : Nat) (m : Mem) (all : List Hit) : List Hit → Option Dword × State
  | [] => (none, s)
  | h :: r =>
    match s.probe g m all h with
    | (true, s1) => (some h.va, s1)
    | (false, s1) => s1.probes g m all r

/-! ### Outstanding accesses -/

/-- The outstanding access of one lane. -/
def Mem.flight (m : Mem) (id seq : Nat) (ctr : Option (Nat × Nat)) (cover : Bool) (h : Hit) (data : Dword) : Flight :=
  { id := id, seq := seq, kind := m.kind, lane := h.lane, va := h.va, loc := h.loc, width := m.width, ord := m.ord,
    scope := m.scope, data := data, cmp := m.cmp h.lane, dest := m.dest, sext := m.sext, ctr := ctr, value := Lanes.zero,
    mask := 0, flags := 0, cover := cover, hint := h.hint }

/-- The counter and number of a split-phase load: a new one, or the partly performed one's (R121, R186). -/
def Mem.number (m : Mem) (g : Group) : Option (Nat × Nat) :=
  m.ctr.map fun c => (g.partLoad.getD (c, vat g.issued c 0))

/-- The group with an instruction's accesses outstanding, its destinations pending, and its load counted (R119, R121, R493). -/
def Mem.launch (m : Mem) (g : Group) (fl : List (Hit × Dword × Bool)) : Group :=
  let ctr := m.number g
  let tag : Tag := match ctr with
    | some (c, n) => .split c n
    | none => .marker
  let fs := (fl.zipIdx).map fun p => m.flight (g.nextFlight + p.2) g.nextSeq ctr p.1.2.2 p.1.1 p.1.2.1
  { g with
    flights := g.flights ++ fs, nextFlight := g.nextFlight + fl.length, nextSeq := g.nextSeq + 1
    pend := g.pend ++ (m.dest.map fun r => (r, tag)).filter fun p => !g.pend.contains p
    issued := match ctr, g.partLoad with
      | some (c, n), none => vset g.issued c (n + 1)
      | _, _ => g.issued }

/-- KIND of a fault record (R270). -/
def Mem.faultKind (m : Mem) : Nat :=
  match m.acc with
  | .r => 0
  | .w => 1
  | _ => 2

/-- The group parks on missing pages with these lanes unfinished (R265). -/
def memPark (m : Mem) (parked : List (Nat × Dword × Bool)) (left : Word) (t : State) : Eff :=
  let t1 := (t.pageFault t.cur (parked.map (·.2)) m.faultKind).onMe fun g => { g with unfin := left, unfinPc := g.pc }
  .park (if t1.me.missing.all (·.2) then 18 else 17) .fault t1

/-- The accesses are performed or outstanding; lanes on missing pages stay unfinished (R226, R265). -/
def memFly (m : Mem) (fl : List (Hit × Dword × Bool)) (parked : List (Nat × Dword × Bool)) (t : State) : Eff :=
  let n := m.number t.me
  let t1 := t.onMe fun g => m.launch g fl
  if parked.isEmpty then .next (t1.onMe fun g => ({ g with partLoad := none } : Group).recount)
  else memPark m parked (lanesMask (parked.map (·.1))) (t1.onMe fun g => ({ g with partLoad := n } : Group).recount)

/-- A store's data after the bound check: CLAMP debits once and both events set BOUND (R167, R305). -/
def memStore (m : Mem) (hs : List Hit) (b : BoundRes) (parked : List (Nat × Dword × Bool)) (t : State) : Eff :=
  let bs := t.boundsFor (coreOf t.cur) t.me.ctx m.spad
  let fl := hs.map fun h =>
    (h, BitVec.ofNat 64 (clampAll bs h.va.toNat m.width ((m.data h.lane).toNat % 2 ^ (8 * m.width))), coversSector t m.width hs h.loc)
  let pay := b.clamp.isSome && !t.me.clamped
  let (ex, t1) := if pay then t.debit t.me.ctx (.group t.cur) else (false, t)
  if ex then .trap 0x0A (b.clamp.getD 0) t1
  else
    let t2 := if b.clamp.isSome || b.flag then t1.flag flBOUND else t1
    memFly m fl parked (t2.onMe fun g => { g with clamped := g.clamped || b.clamp.isSome })

/-- The bound check's outcome of a memory instruction: only stores are checked (R304). -/
def memBounds (m : Mem) (hs : List Hit) (t : State) : BoundRes :=
  match m.kind with
  | .store => boundCheck (t.boundsFor (coreOf t.cur) t.me.ctx m.spad) m.width
      (hs.map fun h => (h.va, (m.data h.lane).toNat % 2 ^ (8 * m.width)))
  | _ => { trap := none, clamp := none, flag := false }

/-- Request slots, then the reads of the issue itself, then the accesses (R187, R188, R300). -/
def memSlots (m : Mem) (hs : List Hit) (b : BoundRes) (parked : List (Nat × Dword × Bool)) (t : State) : Eff :=
  let need := needSlots hs
  if !(t.belowCaps t.cur need.length (aims need)) then
    .park 20 (.caps need.length (aims need)) (t.bump (coreOf t.cur) t.me.ctx 6 1)
  else if 768 < t.slotsUsed (coreOf t.cur) + need.length then .park 21 (.slots need.length) (t.bump (coreOf t.cur) t.me.ctx 7 1)
  else match t.probes t.cur m hs hs with
    | (some va, t1) => .trap 0x0A va t1
    | (none, t1) =>
      match m.kind with
      | .store => memStore m hs b parked t1
      | _ => memFly m (hs.map fun h => (h, m.data h.lane, false)) parked t1

/-- The checks behind translation: TILEOWN, a park of the whole instruction, WATCH, BOUND, KEYEXH (R124, R209, R265, R358, R509). -/
def memGo (m : Mem) (ps : List (Nat × Dword × Spot)) (t : State) : Eff :=
  let hs := hitsOf ps
  let parked := parkedOf ps
  let all := lanesMask (ps.map (·.1))
  let late := m.kind == .store && !m.scalar
  match t.refusedTile m.acc hs with
  | some va => .trap 7 va t
  | none =>
    if m.whole && !late && !parked.isEmpty then memPark m parked all t
    else match t.watchAt t.cur m.spad m.reads m.writes m.width (ps.map (·.2.1)) with
      | some w => watchEff t w
      | none =>
        let b := memBounds m hs t
        match b.trap with
        | some va => .trap 9 va t
        | none =>
          match (if m.writes && (t.ctx t.me.ctx).exhausted then hs.find? (·.enc) else none) with
          | some h => .trap 0x0F h.va t
          | none =>
            if m.whole && !parked.isEmpty then memPark m parked all t
            else memSlots m hs b parked t

/-- A counter with 255 uncounted loads holds a new load (R121, R493). -/
def Mem.counterFull (m : Mem) (g : Group) : Option Nat :=
  m.ctr.bind fun c => if g.partLoad.isNone && decide (255 ≤ g.uncounted c) then some c else none

/-! ### Loads in run-ahead -/

/-- A prefetch of one sector into L1 and L2 (R204, R207, R432): dropped without a free slot. A sector whose read would be a detection
brings nothing in, so that the demand access that consumes it bears the detection (R205). -/
def State.prefetch (s : State) (g loc hint : Nat) (ahead : Bool) : State :=
  let k := cluOf (coreOf g)
  let c := (s.grp g).ctx
  if decide (768 ≤ s.slotsUsed (coreOf g)) || !(s.belowCaps g 1 (aims [loc / 64])) then s
  else
    let s1 := if s.failing g loc then s else ((s.fill k loc c 0 hint (.group g)).2).touchL1 (coreOf g) loc
    if ahead then (s1.setSector k loc { s1.sector k loc with ahead := true }).bump (coreOf g) c 2 1 else s1

/-- One access of a load in run-ahead: none when it would trap; otherwise its value, when it hits (R204, R205, R276). -/
def State.runLane (s : State) (m : Mem) (va : Dword) : Option (Option Nat × State) :=
  let g := s.cur
  let row := fun (l : Nat) =>
    if s.hub.poison.contains (s.secKey l) || SMap.look s.hub.marks (s.secKey l) 0 != 0 then none else some (Memory.le s.mem l m.width)
  if va.toNat % m.width ≠ 0 then none
  else if m.spad then
    if s.spadGood g va && ownerAllows (s.ownerAt (spadOf (cluOf (coreOf g)) va.toNat)) m.acc then some (row (spadOf (cluOf (coreOf g)) va.toNat), s) else none
  else match s.spot g va m.acc m.scalar with
    | (.walk, s1) => some (none, s1.askWalk g va true)
    | (.loc l hint _, s1) =>
      if isSpad l then (if ownerAllows (s1.ownerAt l) m.acc then some (row l, s1) else none)
      else
        let x := s1.sector (cluOf (coreOf g)) l
        if s1.inL1 (coreOf g) l m.width then
          some (if x.poison || x.mark != 0 then none else some (leNat ((List.range m.width).map fun i => x.byte (l % 64 + i))), s1)
        else some (none, s1.prefetch g l hint true)
    | _ => none

/-- The lanes of a load in run-ahead. -/
def State.runLanes (s : State) (m : Mem) : List (Nat × Dword) → Option (List (Nat × Option Nat) × State)
  | [] => some ([], s)
  | (i, va) :: l =>
    match s.runLane m va with
    | none => none
    | some (v, s1) => (s1.runLanes m l).map fun r => ((i, v) :: r.1, r.2)

/-- A load in run-ahead: values when every lane hits, an invalid mark otherwise (R204). -/
def runLoad (m : Mem) (t : State) : Eff :=
  match t.runLanes m (m.todo t.me) with
  | none => .gone t
  | some (vs, t1) =>
    let good := vs.all (·.2.isSome)
    .next (t1.onMe fun g =>
      let g1 := if good then
          vs.foldl (fun y v => y.landLoad (m.flight 0 0 none false { lane := v.1, va := 0, loc := 0, hint := 0, enc := false } 0) (v.2.getD 0)) g
        else g
      { g1 with runAhead := g1.runAhead.map fun r =>
          { r with bad := (if good then [] else m.dest) ++ r.bad.filter fun q => !m.dest.contains q } })

/-- A memory instruction whose accesses are left outstanding (R124, R219, R265). -/
def memBody (m : Mem) (t : State) : Eff :=
  if t.me.runAhead.isSome then runLoad m t
  else if t.me.orderWait then .park 31 .order t
  else match m.counterFull t.me with
    | some c => .park 2 (.counter c 254) t
    | none =>
      match memPlace m t with
      | .inl e => e
      | .inr (ps, t1) => memGo m ps t1

/-! ### The mapping table -/

/-- The entry and doubleword that a 64-bit LD or ST at an address reaches in the issuing core's mapping table (R173, R199). -/
def State.mapSlot? (s : State) (g : Nat) (va : Dword) : Option (Nat × Nat) :=
  (s.aperture? (s.grp g).ctx va).bind fun o =>
    let off := o % 2 ^ 19
    if o / 2 ^ 19 = coreOf g % 64 && decide (0x7F000 ≤ off) && decide (off < 0x7F080) then some ((off - 0x7F000) / 16, off / 8 % 2) else none

/-- The checks shared by an LD and an ST of the mapping table: order, MISALIGN, WATCH. -/
def mapChecks (m : Mem) (va : Dword) (t : State) : Option Eff :=
  if t.me.orderWait || (m.writes && m.whole && m.ord != .relaxed && !t.me.flights.isEmpty) then some (.park 31 .order t)
  else if va.toNat % 8 ≠ 0 then some (.trap 4 va t)
  else none

/-- An LD of a mapping entry: its value, pending until the next marker (R119, R199). -/
def mapLoad (m : Mem) (k dw : Nat) (va : Dword) (t : State) : Eff :=
  match mapChecks m va t with
  | some e => e
  | none =>
    match t.watchAt t.cur false true false 8 [va] with
    | some w => watchEff t w
    | none =>
      let e := SMap.look (t.core (coreOf t.cur)).maps k ((0, 0) : Dword × Dword)
      let v := if dw = 0 then e.1 else e.2
      let t1 := if m.ord != .relaxed && wideScope m.scope then t.acquireWide t.cur else t
      .next (t1.onMe fun g => match m.dest with
        | [.s n] => { g.setSabs n v with pend := g.pend ++ [(.s n, .marker)] }
        | _ => g)

/-- The pages of a window: all RESIDENT with the permission, or the first that needs a walk, or a failure (R200). -/
def State.mapPages (s : State) (g : Nat) (e : Dword × Dword) : List Nat → Xl × State
  | [] => (.park false, s)
  | i :: l =>
    match s.xlate g (winVa e i) (if mapWr e then .w else .r) with
    | (.ok t, s1) =>
      if pteState t.pte = 0 then (if l.isEmpty then (.ok t, s1) else s1.mapPages g e l) else (.bad, s1)
    | (.walk, s1) => (.walk, s1.askWalk g (winVa e i) false)
    | (_, s1) => (.bad, s1)

/-- Set an entry of a core's mapping table. -/
def State.setMap (s : State) (core k : Nat) (e : Dword × Dword) : State :=
  s.onCore core fun c => { c with maps := SMap.put c.maps k e ((0, 0) : Dword × Dword) }

/-- An ST to a mapping entry (R199, R200, R202): setting V, or writing an entry that is valid, validates it; clearing V writes back. -/
def mapStore (m : Mem) (k dw : Nat) (va : Dword) (t : State) : Eff :=
  match mapChecks m va t with
  | some e => e
  | none =>
    let core := coreOf t.cur
    let c := t.me.ctx
    let v := m.data 0
    let old := SMap.look (t.core core).maps k ((0, 0) : Dword × Dword)
    let new : Dword × Dword := if dw = 0 then (v &&& 0x00FFFFFFFFFFF001, old.2) else (old.1, (old.2 &&& 0x003F000000000000) ||| (v &&& 0x7FFF))
    if (mapV old && mapCtx old != c) || (dw == 0 && dbits v 63 56 != 0) then .trap 5 va t
    else if mapV new && (!t.mapTilesOk core c new || t.mapOverlap core k c new) then .trap 5 va t
    else
      let done := fun (u : State) (e : Dword × Dword) =>
        match u.watchAt u.cur false false true 8 [va] with
        | some w => watchEff u w
        | none =>
          let u1 := if m.ord != .relaxed && wideScope m.scope then u.writeBackAll (cluOf core) else u
          let u2 := if mapV old then u1.mapWriteBack core k else u1
          let u3 := if mapV e then
              u2.registerWindow core k e c
            else u2
          Eff.next (u3.setMap core k e)
      if mapV new then
        match t.mapPages t.cur new (winPages new) with
        | (.ok _, t1) => done t1 (new.1, withBits new.2 53 48 c)
        | (.walk, t1) => .park 19 .walk t1
        | (_, t1) => .trap 5 va t1
      else done t new

/-! ### Loads, stores and atomics -/

/-- Bytes of an access width (R130). -/
def Width.bytes : Width → Nat
  | .w8 => 1
  | .w16 => 2
  | .w32 => 4
  | .w64 => 8

/-- A load of lanes into destinations. -/
def memLoad (x : Pre) (width : Nat) (lanes : Word) (dest : List RegId) (ctr : Option Nat) (addr : Nat → Dword) : Mem :=
  { kind := .load, acc := .r, width := width, lanes := lanes, scalar := false, spad := false, ord := ordKindOf x,
    scope := ordScopeOf x, addr := addr, data := fun _ => 0, cmp := fun _ => 0, dest := dest, sext := false, ctr := ctr }

/-- A store of lanes. -/
def memSt (x : Pre) (width : Nat) (lanes : Word) (addr data : Nat → Dword) : Mem :=
  { memLoad x width lanes [] none addr with kind := .store, acc := .w, data := data }

/-- An atomic of lanes. -/
def memAtom (x : Pre) (op : AtomOp) (lanes : Word) (dest : List RegId) (addr data cmp : Nat → Dword) : Mem :=
  { memLoad x (if w64Of x then 8 else 4) lanes dest none addr with kind := .atomic op, acc := .rw, data := data, cmp := cmp }

/-- The memory request of LD (R411 to R413). -/
def ldMem (x : Pre) (w : Width) (sx : Bool) (r : Flds) (t : State) : Mem :=
  { memLoad x (Width.bytes w) 1 [.s (t.me.sb + r.d.toNat)] none (fun _ => t.addrS x r) with scalar := true, sext := sx }

/-- LD (R411 to R413). -/
def execLd (x : Pre) (w : Width) (sc : Bool) (d a b : Reg) (s : State) : Host.Outcome State Fault Refusal :=
  issue x (opMem (wordR x 0x20 ((w.code ++ BitVec.ofBool sc ++ 0#1 : BitVec 4).toNat) d a b)
    [⟨.d, .s, .wr, d⟩, ⟨.a, .s, .rd, a⟩, ⟨.b, .s, .rd, b⟩] true (ordCode x)) (fun r t =>
    let m := ldMem x w sc r t
    match (if w == .w64 && t.me.runAhead.isNone then t.mapSlot? t.cur (t.addrS x r) else none) with
    | some (k, dw) => mapLoad m k dw (t.addrS x r) t
    | none => memBody m t) s

/-- The memory request of ST (R458 to R460). -/
def stMem (x : Pre) (w : Width) (r : Flds) (t : State) : Mem :=
  { memSt x (Width.bytes w) 1 (fun _ => t.addrS x r) (fun _ => t.readS r.d) with scalar := true }

/-- ST (R458 to R460). -/
def execSt (x : Pre) (w : Width) (d a b : Reg) (s : State) : Host.Outcome State Fault Refusal :=
  issue x (opMem (wordR x 0x21 ((w.code ++ 0#2 : BitVec 4).toNat) d a b)
    [⟨.d, .s, .rd, d⟩, ⟨.a, .s, .rd, a⟩, ⟨.b, .s, .rd, b⟩] false (ordCode x)) (fun r t =>
    let m := stMem x w r t
    match (if w == .w64 then t.mapSlot? t.cur (t.addrS x r) else none) with
    | some (k, dw) => mapStore m k dw (t.addrS x r) t
    | none => memBody m t) s

/-- VLD (R492 to R495). -/
def execVld (x : Pre) (c : BitVec 4) (d a b : Reg) (s : State) : Host.Outcome State Fault Refusal :=
  issue x (opMem (wordR x 0x22 c.toNat d a b) [⟨.d, .v, .wr, d⟩, ⟨.a, .s, .rd, a⟩, ⟨.b, .v, .rd, b⟩] true (ordCode x)) (fun r t =>
    memBody (memLoad x 4 t.me.act [destV t.me r.d] (some c.toNat) (t.addrV x r 4)) t) s

/-- VLDC (R492 to R495). -/
def execVldc (x : Pre) (c : BitVec 4) (d a b : Reg) (s : State) : Host.Outcome State Fault Refusal :=
  issue x (opMem (wordR x 0x23 c.toNat d a b) [⟨.d, .v, .wr, d⟩, ⟨.a, .s, .rd, a⟩, ⟨.b, .s, .rd, b⟩] true (ordCode x)) (fun r t =>
    memBody (memLoad x 4 t.me.act [destV t.me r.d] (some c.toNat) (t.addrC x r)) t) s

/-- VLD2 (R492 to R495). -/
def execVld2 (x : Pre) (c : BitVec 4) (d a b : Reg) (s : State) : Host.Outcome State Fault Refusal :=
  issue x (opMem (wordR x 0x24 c.toNat d a b) [⟨.d, .w, .wr, d⟩, ⟨.a, .s, .rd, a⟩, ⟨.b, .v, .rd, b⟩] true (ordCode x)) (fun r t =>
    memBody (memLoad x 8 t.me.act [destV t.me r.d, destV t.me (r.d + 1)] (some c.toNat) (t.addrV x r 8)) t) s

/-- VST (R508 to R510). -/
def execVst (x : Pre) (d a b : Reg) (s : State) : Host.Outcome State Fault Refusal :=
  issue x (opMem (wordR x 0x25 0 d a b) [⟨.d, .v, .rd, d⟩, ⟨.a, .s, .rd, a⟩, ⟨.b, .v, .rd, b⟩] false (ordCode x)) (fun r t =>
    memBody (memSt x 4 t.me.act (t.addrV x r 4) (fun i => (t.srcVD r.d i).zeroExtend 64)) t) s

/-- VSTC (R508 to R510). -/
def execVstc (x : Pre) (d a b : Reg) (s : State) : Host.Outcome State Fault Refusal :=
  issue x (opMem (wordR x 0x26 0 d a b) [⟨.d, .v, .rd, d⟩, ⟨.a, .s, .rd, a⟩, ⟨.b, .s, .rd, b⟩] false (ordCode x)) (fun r t =>
    memBody (memSt x 4 t.me.act (t.addrC x r) (fun i => (t.srcVD r.d i).zeroExtend 64)) t) s

/-- VST2 (R508 to R510). -/
def execVst2 (x : Pre) (d a b : Reg) (s : State) : Host.Outcome State Fault Refusal :=
  issue x (opMem (wordR x 0x27 0 d a b) [⟨.d, .w, .rd, d⟩, ⟨.a, .s, .rd, a⟩, ⟨.b, .v, .rd, b⟩] false (ordCode x)) (fun r t =>
    memBody (memSt x 8 t.me.act (t.addrV x r 8) (t.readPair r.d)) t) s

/-- SPLD (R454, R455). -/
def execSpld (x : Pre) (d a b : Reg) (s : State) : Host.Outcome State Fault Refusal :=
  issue x (opMem (wordR x 0x28 0 d a b) [⟨.d, .v, .wr, d⟩, ⟨.a, .s, .rd, a⟩, ⟨.b, .v, .rd, b⟩] true (ordCode x)) (fun r t =>
    memBody { memLoad x 4 t.me.act [destV t.me r.d] none (t.addrV x r 4) with spad := true } t) s

/-- SPST (R456, R457). -/
def execSpst (x : Pre) (d a b : Reg) (s : State) : Host.Outcome State Fault Refusal :=
  issue x (opMem (wordR x 0x29 0 d a b) [⟨.d, .v, .rd, d⟩, ⟨.a, .s, .rd, a⟩, ⟨.b, .v, .rd, b⟩] false (ordCode x)) (fun r t =>
    memBody { memSt x 4 t.me.act (t.addrV x r 4) (fun i => (t.srcVD r.d i).zeroExtend 64) with spad := true } t) s

/-- ATOM (R362 to R365). -/
def execAtom (x : Pre) (o : AtomOp) (d a b : Reg) (s : State) : Host.Outcome State Fault Refusal :=
  issue x (opMem (wordR x 0x2A o.code.toNat d a b)
    [⟨.d, if o == .cas then .t else .s, .rw, d⟩, ⟨.a, .s, .rd, a⟩, ⟨.b, .s, .rd, b⟩] false (some 2)) (fun r t =>
    memBody { memAtom x o 1 [.s (t.me.sb + r.d.toNat)] (fun _ => t.addrS x r) (fun _ => t.readS r.d)
                (fun _ => if o == .cas then t.readS (r.d + 1) else 0) with scalar := true } t) s

/-- Class of d for a vector atomic (R132). -/
def atomCls (x : Pre) (o : AtomOp) : FCls := if o == .cas then (if w64Of x then .q else .w) else if w64Of x then .w else .v

/-- The operand of a vector atomic in a lane (R449). -/
def State.atomVal (s : State) (x : Pre) (r : Flds) (i : Nat) : Dword :=
  if w64Of x then s.readPair r.d i else (s.srcVD r.d i).zeroExtend 64

/-- The compare value of a vector CAS in a lane (R132, R449). -/
def State.atomCmp (s : State) (x : Pre) (r : Flds) (i : Nat) : Dword :=
  if w64Of x then s.readPair (r.d + 2) i else (s.srcVD (r.d + 1) i).zeroExtend 64

/-- Registers that take the old values of a vector atomic (R449, R479). -/
def atomDest (x : Pre) (g : Group) (d : Reg) : List RegId := if w64Of x then [destV g d, destV g (d + 1)] else [destV g d]

/-- The memory request of a vector atomic (R448, R478). -/
def vatomMem (x : Pre) (o : AtomOp) (r : Flds) (t : State) : Mem :=
  memAtom x o t.me.act (atomDest x t.me r.d) (t.addrV x r 4) (t.atomVal x r) (t.atomCmp x r)

/-- VATOM (R478 to R481). -/
def execVatom (x : Pre) (o : AtomOp) (d a b : Reg) (s : State) : Host.Outcome State Fault Refusal :=
  issue x (opMem (wordR x 0x2B o.code.toNat d a b) [⟨.d, atomCls x o, .rw, d⟩, ⟨.a, .s, .rd, a⟩, ⟨.b, .v, .rd, b⟩] false (some 2))
    (fun r t => memBody (vatomMem x o r t) t) s

/-- How the lanes of a SPATOM went on. -/
inductive SpRes where
  | done (s : State)
  /-- a debit exhausted the budget before this lane and those above performed (R449) -/
  | exhaust (rest : Word) (va : Dword) (s : State)
  /-- a replay waits for a lane's token (R328) -/
  | wait (rest : Word) (s : State)

/-- One lane of a SPATOM on its row, after the row has been read (R449). -/
def State.spatomLane (s : State) (m : Mem) (op : AtomOp) (h : Hit) (o : SecOut) : State :=
  let g := s.cur
  let off := h.loc - spadBase
  let s1 := s.tokenNow (s.grp g).ctx 3 off (.group g) (some h.lane)
  if o = .poison then s1.kill g (BitVec.ofNat 32 (2 ^ h.lane)) 3 h.loc h.va
  else
    let old := Memory.le s1.mem h.loc m.width
    let x := (m.data h.lane).toNat % 2 ^ (8 * m.width)
    let c := (m.cmp h.lane).toNat % 2 ^ (8 * m.width)
    let s2 := if op = .cas && old ≠ c then s1 else s1.setMem (Memory.setBytes s1.mem h.loc (leBytes m.width (atomNew op m.width old x c)))
    s2.onGrp g fun y => y.landLoad (m.flight 0 0 none false h 0) old

/-- The lanes of a SPATOM in ascending order (R449, R450). -/
def State.spatomLanes (s : State) (m : Mem) (op : AtomOp) : List Hit → SpRes
  | [] => .done s
  | h :: r =>
    let g := s.cur
    let rest := lanesMask (h.lane :: r.map (·.lane))
    if !(s.tokenReady g 3 (h.loc - spadBase) (some h.lane)) then .wait rest s
    else
      match (s.grantLine g h.loc true).readSector h.loc (s.grp g).ctx h.va.toNat (.group g) with
      | (.detected, s1) =>
        match s1.bear g true with
        | (true, s2) => .exhaust rest h.va s2
        | (false, s2) => (s2.spatomLane m op h .detected).spatomLanes m op r
      | (o, s1) => (s1.spatomLane m op h o).spatomLanes m op r

/-- The effect of a SPATOM once its lanes are checked (R449). -/
def spatomGo (m : Mem) (op : AtomOp) (hs : List Hit) (t : State) : Eff :=
  match t.spatomLanes m op hs with
  | .done t1 => .next (t1.onMe fun g => { g with pend := g.pend ++ (m.dest.map fun r => (r, Tag.marker)).filter fun p => !g.pend.contains p })
  | .exhaust rest va t1 => .trap 0x0A va (t1.onMe fun g => { g with unfin := rest, unfinPc := g.pc })
  | .wait rest t1 => .park 24 .replay (t1.onMe fun g => { g with unfin := rest, unfinPc := g.pc })

/-- SPATOM (R448 to R451): performed at issue, after every earlier access of the group. -/
def execSpatom (x : Pre) (o : AtomOp) (d a b : Reg) (s : State) : Host.Outcome State Fault Refusal :=
  issue x (opMem (wordR x 0x2C o.code.toNat d a b) [⟨.d, atomCls x o, .rw, d⟩, ⟨.a, .s, .rd, a⟩, ⟨.b, .v, .rd, b⟩] false (some 2))
    (fun r t =>
      let m := { vatomMem x o r t with spad := true }
      if !t.me.flights.isEmpty then .park 31 .quiet t
      else match memPlaceS m t with
        | .inl e => e
        | .inr (ps, t1) =>
          let hs := hitsOf ps
          match t1.refusedTile .rw hs with
          | some va => .trap 7 va t1
          | none =>
            match t1.watchAt t1.cur true true true m.width (hs.map (·.va)) with
            | some w => watchEff t1 w
            | none => spatomGo m o hs t1) s

/-! ### Fences, flushes, prefetch -/

/-- The outstanding ordering or cache action of FENCE, FLUSH or INVAL. -/
def Group.addFence (g : Group) (kind : FlightKind) (k : OrdKind) (sc : Scope) : Group :=
  let f : Flight := {
    id := g.nextFlight, seq := g.nextSeq, kind := kind, lane := 0, va := 0, loc := 0, width := 0, ord := k,
    scope := sc, data := 0, cmp := 0, dest := [], sext := false, ctr := none, value := Lanes.zero, mask := 0, flags := 0,
    cover := false, hint := 0 }
  { g with flights := g.flights ++ [f], nextFlight := g.nextFlight + 1, nextSeq := g.nextSeq + 1 }

/-- FENCE (R399 to R401). -/
def execFence (x : Pre) (k : OrdKind) (sc : Scope) (s : State) : Host.Outcome State Fault Refusal :=
  issue x (opStop (wordR x 0x2D 0 0 0 (0#1 ++ k.code ++ sc.code)) [] (if 2 ≤ scopeOrd sc then some 1 else none))
    (fun _ t => .next (t.onMe fun g => g.addFence .fence k sc)) s

/-- Valid entries that the current group's crew owns on its core (R202). -/
def State.ownMaps (s : State) : List Nat :=
  match s.crew? s.me.crew with
  | none => []
  | some w => ((s.core (coreOf s.cur)).maps.filter fun e =>
      mapV e.2 && decide (w.tile ≤ mapTile e.2) && decide (mapTile e.2 < w.tile + w.tiles)).map (·.1)

/-- FLUSH (R218, R399 to R401); at PKG and SYS scope the crew's windows are written back too (R202). -/
def execFlush (x : Pre) (sc : Scope) (s : State) : Host.Outcome State Fault Refusal :=
  issue x (opStop (wordR x 0x2D 1 0 0 (0#4 ++ sc.code)) [] (if wideScope sc then some 1 else none)) (fun _ t =>
    let wins := if wideScope sc then t.ownMaps else []
    if !wins.isEmpty && t.me.flights.any Flight.writes then .park 31 .quiet t
    else .next ((wins.foldl (fun st k => st.mapWriteBack (coreOf t.cur) k) t).onMe fun g => g.addFence .flush .release sc)) s

/-- INVAL (R218, R399 to R401). -/
def execInval (x : Pre) (sc : Scope) (s : State) : Host.Outcome State Fault Refusal :=
  issue x (opStop (wordR x 0x2D 2 0 0 (0#4 ++ sc.code)) [] (if wideScope sc then some 1 else none))
    (fun _ t => .next (t.onMe fun g => g.addFence .inval .acquire sc)) s

/-- Sectors of a line that hold data. -/
def State.dataSectors (s : State) (line : Nat) : List Nat :=
  (List.range (if isLocal (line * 512) && decide (s.fmtAt (line * 512) = .p) then 7 else 8)).map (line * 8 + ·)

/-- The line of PREF is requested (R432). -/
def State.prefLine (s : State) (loc hint : Nat) : State :=
  let g := s.cur
  let k := cluOf (coreOf g)
  let miss := (s.dataSectors (loc / 512)).filter fun q => (s.sector k (q * 64)).valid != BitVec.ofNat 64 (2 ^ 64 - 1)
  if !(s.belowCaps g miss.length (aims miss)) || decide (768 < s.slotsUsed (coreOf g) + miss.length) then s
  else miss.foldl (fun st q => st.prefetch g (q * 64) hint false) s

/-- PREF (R431 to R433). -/
def execPref (x : Pre) (l : Bool) (a b : Reg) (s : State) : Host.Outcome State Fault Refusal :=
  issue x (opMem (wordR x 0x2D 3 (0#6 ++ BitVec.ofBool l) a b) [⟨.a, .s, .rd, a⟩, ⟨.b, .s, .rd, b⟩] true none) (fun r t =>
    let va := t.addrS x r
    if !canonical va || (t.aperture? t.me.ctx va).isSome then (if t.me.runAhead.isSome then .gone t else .trap 5 va t)
    else match t.spot t.cur va .r false with
      | (.walk, t1) => .next (t1.askWalk t.cur va true)
      | (.loc l hint _, t1) => .next (if isSpad l then t1 else t1.prefLine l hint)
      | (_, t1) => .next t1) s

/-! ### Waits -/

/-- Covered loads of a counter with an EXHAUST owed: the first one's address, and the group without it (R494, R513). -/
def Group.takeOwed (g : Group) (c upto : Nat) : Option (Dword × Group) :=
  (g.owed.find? fun o => match o.1 with
    | .split q n => q == c && decide (n < upto)
    | .marker => false).map fun o => (o.2, { g with owed := g.owed.erase o })

/-- The group after a WAITC on counter c that covers loads below number `upto` (R119, R513). -/
def Group.cover (g : Group) (c upto : Nat) : Group :=
  { g with pend := g.pend.filter fun p => match p.2 with
      | .split q n => !(q == c && decide (n < upto))
      | .marker => true }

/-- WAITC (R513, R514). -/
def execWaitc (x : Pre) (a b : Reg) (s : State) : Host.Outcome State Fault Refusal :=
  issue x (opStop (wordR x 0x2D 4 0 a b) [⟨.a, .c, .rd, a⟩, ⟨.b, .s, .rd, b⟩] none) (fun r t =>
    let c := r.a.toNat
    let n := (t.srcS x r.b).toNat
    let g := t.me
    if n < 255 && decide (n < g.uncounted c) then
      .gone ((t.parkMe 2 (.counter c n)).enterRunAhead t.cur (afterBundle x g.pc) fun f => match f.ctr with
        | some (q, k) => q == c && decide (k + n < vat g.issued c 0)
        | none => false)
    else
      let upto := vat g.issued c 0 - n
      match g.takeOwed c upto with
      | some (va, g1) => .trap 0x0A va (t.onMe fun _ => g1)
      | none => .next (t.onMe fun y => y.cover c upto)) s

/-- A wait whose read consumed a poisoned sector or row: every lane of LIVE is killed at the bundle (R539). -/
def State.poisonAt (s : State) (loc : Nat) (va : Dword) : State := s.kill s.cur s.me.live (if isSpad loc then 3 else 2) loc va

/-- The read of a wait at its point of coherence: the value, or what stops the wait (R294, R298, R300). -/
def waitRead (t : State) (loc : Nat) (va : Dword) : Eff ⊕ (Dword × State) :=
  match t.readNow t.cur loc 8 va with
  | (.poison, _, t1) => .inl (.gone (t1.poisonAt loc va))
  | (.detected, v, t1) =>
    match t1.bear t.cur true with
    | (true, t2) => .inl (.trap 0x0A va t2)
    | (false, t2) => .inr (BitVec.ofNat 64 v, t2)
  | (.ok, v, t1) => .inr (BitVec.ofNat 64 v, t1)

/-- An earlier access of the group to the doubleword at a location is outstanding (R212). -/
def Group.touching (g : Group) (loc : Nat) : Bool :=
  g.flights.any fun f => f.access && decide (f.loc < loc + 8) && decide (loc < f.loc + f.width)

/-- MWAIT at its location (R424 to R426). -/
def mwaitAt (x : Pre) (r : Flds) (va : Dword) (loc : Nat) (t : State) : Eff :=
  if t.me.touching loc then .park 31 .quiet t
  else if (t.replaying? t.me.ctx).isSome then
    let (v, t1) := t.crossing t.cur 4 0
    .next (t1.writeS r.d v)
  else match waitRead t loc va with
    | .inl e => e
    | .inr (v, t1) =>
      if v = t.srcS x r.b then .park 11 (.word loc v va) (t1.onMe fun g => { g with noCheck := true })
      else
        let (w, t2) := t1.crossing t.cur 4 v
        .next (t2.writeS r.d w)

/-- MWAIT (R424 to R426). -/
def execMwait (x : Pre) (d a b : Reg) (s : State) : Host.Outcome State Fault Refusal :=
  issue x (opStop (wordR x 0x2D 5 d a b) [⟨.d, .s, .wr, d⟩, ⟨.a, .s, .rd, a⟩, ⟨.b, .s, .rd, b⟩] (some 10)) (fun r t =>
    let va := t.readS r.a
    let m := { memLoad x 8 1 [] none (fun _ => va) with scalar := true }
    if t.me.orderWait then .park 31 .order t
    else match memPlaceV m t with
      | .inl (.trap 6 v t1) => .trap (if isHost (t1.leafOf v) || isPeer (t1.leafOf v) then 5 else 6) v t1
      | .inl e => e
      | .inr (ps, t1) =>
        let hs := hitsOf ps
        match hs with
        | [] => memPark m (parkedOf ps) 1 t1
        | h :: _ =>
          if isHost h.loc || isPeer h.loc then .trap 5 va t1
          else match t1.refusedTile .r hs with
            | some v => .trap 7 v t1
            | none =>
              match t1.watchAt t1.cur false true false 8 [va] with
              | some w => watchEff t1 w
              | none => mwaitAt x r va h.loc t1) s

/-- The cluster scratchpad address of a sync word: MEMFAULT, then MISALIGN (R461, R462). -/
def syncBad (t : State) (a : Dword) : Option Eff :=
  if !t.spadGood t.cur a then some (.trap 5 a t) else if a.toNat % 8 ≠ 0 then some (.trap 4 a t) else none

/-- SYNCW (R462, R463). -/
def execSyncw (x : Pre) (d a b : Reg) (s : State) : Host.Outcome State Fault Refusal :=
  issue x (opStop (wordR x 0x2D 6 d a b) [⟨.d, .s, .wr, d⟩, ⟨.a, .s, .rd, a⟩, ⟨.b, .s, .rd, b⟩] (some 10)) (fun r t =>
    let va := t.readS r.a
    let gen := (t.srcS x r.b).toNat % 2 ^ 16
    match syncBad t va with
    | some e => e
    | none =>
      let loc := spadOf (cluOf (coreOf t.cur)) va.toNat
      if t.me.orderWait || t.me.touching loc then .park 31 .quiet t
      else if (t.replaying? t.me.ctx).isSome then
        let (v, t1) := t.crossing t.cur 5 0
        .next (t1.writeS r.d v)
      else match waitRead t loc va with
        | .inl e => e
        | .inr (v, t1) =>
          if v.toNat % 2 ^ 16 = gen then .park 10 (.sync loc gen) t1
          else
            let (w, t2) := t1.crossing t.cur 5 v
            .next (t2.writeS r.d w)) s

/-- SYNCSET (R461): a 64-bit write at the scratchpad, whatever the tile's owner state. -/
def execSyncset (x : Pre) (a b : Reg) (s : State) : Host.Outcome State Fault Refusal :=
  issue x (opStop (wordR x 0x2D 7 0 a b) [⟨.a, .s, .rd, a⟩, ⟨.b, .s, .rd, b⟩] (some 2)) (fun r t =>
    let va := t.readS r.a
    match syncBad t va with
    | some e => e
    | none =>
      let loc := spadOf (cluOf (coreOf t.cur)) va.toNat
      let off := loc - spadBase
      if !t.me.flights.isEmpty then .park 31 .quiet t
      else if !(t.tokenReady t.cur 3 off none) then .park 24 .replay t
      else
        let (ex, t1) := t.detectNow t.cur { lane := 0, va := va, loc := loc, hint := 0, enc := false } true
        if ex then .trap 0x0A va t1
        else
          let t2 := (t1.grantLine t.cur loc true).tokenNow t.me.ctx 3 off (.group t.cur) none
          .next (t2.setMem (Memory.setBytes t2.mem loc (leBytes 8 (t.srcS x r.b).toNat)))) s

end Sys2Proof.Machine
end

