-- ==== Sys2Proof/Machine/Barrier.lean ====
section
/-! DEFINITION. The crew barrier (R366, R367) and barrier objects (R196 to R198, R372 to R377). -/

namespace Sys2Proof.Machine

/-- The scope at which a crew's barrier orders: that of level 1 of its launch; CORE for a spawned crew (R367). -/
def State.barScope (s : State) (g : Nat) : Scope :=
  match (s.crew? (s.grp g).crew).bind (·.launch) with
  | none => .core
  | some l => match s.launch? l with
    | none => .core
    | some y => scopeNat (nth y.levels 1 { extent := 1, domain := 0, scope := 1, nofence := false }).scope

/-- The current group leaves the crew barrier: the acq_rel of R220, R367. -/
def barLeave (t : State) : Eff :=
  let t1 := t.onMe fun g => { g with wait := Wait.none }
  if wideScope (t1.barScope t1.cur) then .next ((t1.writeBackAll (cluOf (coreOf t1.cur))).acquireWide t1.cur) else .next t1

/-- BAR (R366, R367). -/
def execBar (x : Pre) (s : State) : Host.Outcome State Fault Refusal :=
  issue x (opStop (wordR x 0x2E 0 0 0 0) [] (some 7)) (fun _ t =>
    match t.me.wait.cond with
    | .handed _ _ => barLeave t
    | _ =>
      let t1 := t.parkMe 8 .bar
      if t1.barDone t1.me.crew then barLeave (t1.wake t1.cur) else .park 8 .bar t) s

/-- LOC of a barrier object's tokens (R377). -/
def objTok (core o : Nat) : Nat := core * 2 ^ 19 + 0x7FC00 + 8 * (o % 64)

/-- The object waits to be restored to the context (R198). -/
def State.objAway (s : State) (core o c : Nat) : Bool := (s.core core).barsBack.any fun e => e.1 == o % 64 && e.2.ctx == c

/-- An operation of the current group on an object takes its token (R321, R377). -/
def State.objToken (s : State) (core o : Nat) : State :=
  s.tokenNow s.me.ctx 3 (objTok core o) (.group s.cur) none

/-- QUEUE with a TVAL. -/
def queueTrap (n : Nat) (t : State) : Eff := .trap 0x11 (BitVec.ofNat 64 n) t

/-- The checks shared by the object instructions: TVAL 4, the wait for a restore, TVAL 2, TVAL 3 (R197, R198, R372). -/
def objChecks (v : Dword) (needHeld : Bool) (t : State) : Option Eff :=
  let o := v.toNat % 2 ^ 12
  let core := objCore (cluOf (coreOf t.cur)) o
  let b := t.obj core o
  if 2 ^ 12 ≤ v.toNat then some (queueTrap 4 t)
  else if needHeld && t.objAway core o t.me.ctx then some (.park 9 (.barrierFree o) t)
  else if b.held && b.ctx != t.me.ctx then some (queueTrap 2 t)
  else if needHeld && !b.held then some (queueTrap 3 t)
  else if !(t.tokenReady t.cur 3 (objTok core o) none) then some (.park 24 .replay t)
  else none

/-- BOARR (R374, R377). -/
def execBoarr (x : Pre) (d a : Reg) (s : State) : Host.Outcome State Fault Refusal :=
  issue x (opStop (wordR x 0x2E 1 d a 0) [⟨.d, .s, .wr, d⟩, ⟨.a, .s, .rd, a⟩] (some 1)) (fun r t =>
    let v := t.readS r.a
    match objChecks v true t with
    | some e => e
    | none =>
      let o := v.toNat % 2 ^ 12
      let core := objCore (cluOf (coreOf t.cur)) o
      let b := t.obj core o
      if b.expect = 0 then queueTrap 6 t
      else if !t.me.flights.isEmpty then .park 31 .quiet t
      else
        let t1 := (t.objToken core o).setObj core o b.arrive
        .next ((t1.writeS r.d (BitVec.ofNat 64 b.gen)).onMe fun g => { g with binding := some (o, b.gen) })) s

/-- BOWAIT (R376, R377). -/
def execBowait (x : Pre) (a b : Reg) (s : State) : Host.Outcome State Fault Refusal :=
  issue x (opStop (wordR x 0x2E 2 0 a b) [⟨.a, .s, .rd, a⟩, ⟨.b, .s, .rd, b⟩] (some 7)) (fun r t =>
    let v := t.readS r.a
    match objChecks v true t with
    | some e => e
    | none =>
      let o := v.toNat % 2 ^ 12
      let core := objCore (cluOf (coreOf t.cur)) o
      let gen := (t.srcS x r.b).toNat % 2 ^ 16
      if (t.obj core o).gen = gen then .park 9 (.barrier o gen) t else .next (t.objToken core o)) s

/-- A group of the cluster is parked in BOWAIT on an object (R372). -/
def State.objWaited (s : State) (clu o : Nat) : Bool :=
  s.gids.any fun h => cluOf (coreOf h) == clu && (match (s.grp h).wait.cond with
    | .barrier p _ => p == o
    | _ => false)

/-- BOINIT (R373, R377). -/
def execBoinit (x : Pre) (a b : Reg) (s : State) : Host.Outcome State Fault Refusal :=
  issue x (opStop (wordR x 0x2E 3 0 a b) [⟨.a, .s, .rd, a⟩, ⟨.b, .s, .rd, b⟩] (some 7)) (fun r t =>
    let v := t.readS r.a
    let n := (t.srcS x r.b).toNat
    if 2 ^ 16 ≤ n then queueTrap 4 t
    else match objChecks v false t with
    | some e => e
    | none =>
      let o := v.toNat % 2 ^ 12
      let clu := cluOf (coreOf t.cur)
      let core := objCore clu o
      let b := t.obj core o
      if b.held && (b.arrived != 0 || (n == 0 && t.objWaited clu o)) then queueTrap 5 t
      else
        let t1 := t.objToken core o
        if n = 0 then .next (if b.held then (t1.unbind core t.me.ctx o).setObj core o BarObj.free else t1)
        else .next (t1.setObj core o
          (if b.held then { b with expect := n } else { held := true, ctx := t.me.ctx, gen := 0, arrived := 0, expect := n }))) s

end Sys2Proof.Machine
end

