-- ==== Sys2Proof/Machine/Queue.lean ====
section
/-! DEFINITION. Graph-edge queues: headers (R434), the service of waiting requests at a queue's home (R74, R75, R436), and QPUT,
QGET, QFREE, QTRYPUT and QTRYGET (R435 to R437). -/

namespace Sys2Proof.Machine

/-! ### The home's service -/

/-- Requests of a kind that wait at a queue's home, oldest first. -/
def State.waiting (s : State) (id : Nat) (put : Bool) : List QueueReq := s.hub.queueReqs.filter fun r => r.queue == id && r.put == put

/-- A request leaves the home's list. -/
def State.dropReq (s : State) (r : QueueReq) : State := s.onHub fun h => { h with queueReqs := h.queueReqs.erase r }

/-- The group of a waiting request is woken with what the home did for it. -/
def State.handTo (s : State) (g : Nat) (a b : Dword) : State := s.onGrp g fun x => { x with wait := { code := 12, cond := .handed a b } }

/-- The group of a waiting request waits for a page; the slot or entry is kept for it (R436). -/
def State.holdOn (s : State) (g : Nat) (va : Dword) (cellar : Bool) (kind : Nat) : State :=
  (s.pageFault g [(va, cellar)] kind).onGrp g fun x => { x with wait := { code := if cellar then 18 else 17, cond := .fault } }

/-- A queue operation of a group takes its token at the home (R437). -/
def State.queueToken (s : State) (g id : Nat) : State :=
  s.tokenNow (s.grp g).ctx 4 id (.group g) none

/-- The group of a waiting request cannot be served yet: it is away, waits for a page, or in replay for its token; its slot or entry
is kept for it (R436, R437). -/
def State.notYet (s : State) (h : QHdr) (r : QueueReq) : Bool :=
  decide (r.gid < 2 ^ 20) && (decide (18432 ≤ r.gid) || decide ((s.grp r.gid).wait.cond = .fault) || !(s.tokenReady r.gid 4 h.id none))

/-- Who asks for a credit at a home: an engine of a core of this device, numbered from 4,096 on, or a peer (R75, R316). -/
def creditor (n : Nat) : Asker := if 4096 ≤ n then .engine (n - 4096) else .peer n

/-- A credit may be given now: in replay, at its logged token (R75, R316, R328). -/
def State.creditReady (s : State) (id n : Nat) : Bool := decide (n < 4096) || s.engReady (queueCtx id) (n - 4096) 4 id

/-- The home gives a free slot to a waiting put or credit request (R74, R75, R436); in replay, at its token (R437). -/
def State.servePut (s : State) (h : QHdr) (r : QueueReq) : Bool × State :=
  if s.notYet h r then (false, s)
  else if 2 ^ 20 ≤ r.gid then
    if !(s.creditReady h.id (r.gid - 2 ^ 20)) then (false, s)
    else (true, (((s.dropReq r).tokenNow (queueCtx h.id) 4 h.id (creditor (r.gid - 2 ^ 20)) none).setHeader
      { h with free := h.free - 1, inflight := h.inflight + 1 }).onHub fun u =>
      { u with credits := u.credits ++ [(r.gid - 2 ^ 20, h.id)] })
  else match s.devSpot (queueCtx h.id) (h.slot h.tail) .w with
    | (.loc l _ _, s1) =>
      (true, (((((s1.dropReq r).queueToken r.gid h.id).devWriteRow l r.entry).l3Dirty l (queueCtx h.id + 1)).setHeader
        { h with free := h.free - 1, tail := (h.tail + 1) % 2 ^ 64 }).handTo r.gid 0 0)
    | (.park c, s1) => (false, s1.holdOn r.gid (h.slot h.tail) c 1)
    | (_, s1) => (false, s1.doom (queueCtx h.id) 4)

/-- Where a waiting get stores its entry: nowhere, a location and its page's hint, a page that is parkable, or a place that refuses it
(R436). -/
def State.getDest (s : State) (h : QHdr) (r : QueueReq) : (Option (Nat × Nat) ⊕ Option Bool) × State :=
  let c := queueCtx h.id
  if !h.e64 then (.inl none, s)
  else if (s.watchAt r.gid false false true 64 [r.dest]).isSome then (.inr none, s)
  else match s.aperture? c r.dest with
    | some o =>
      let l := spadOf (cluOf (coreOf r.gid)) o
      (if s.spadOk c l && ownerAllows (s.ownerAt l) .w then .inl (some (l, 0)) else .inr none, s)
    | none =>
      match s.mapping? c r.dest with
      | some (k, e) =>
        let l := spadLoc k (mapTile e * 4096 + (dbits r.dest 55 0 - mapVa e))
        (if mapWr e && ownerAllows (s.ownerAt l) .w then .inl (some (l, 0)) else .inr none, s)
      | none =>
        match s.devSpot c r.dest .w with
        | (.loc l hint _, s1) => (.inl (some (l, hint)), s1)
        | (.park q, s1) => (.inr (some q), s1)
        | (_, s1) => (.inr none, s1)

/-- A doubleword stored by a group at once, as ST would store it (R436). -/
def State.storeDw (s : State) (g loc hint : Nat) (b : List Byte) : State :=
  let s1 := s.grantLine g loc true
  if isSpad loc then s1.homeWrite loc b else s1.l2Write (cluOf (coreOf g)) loc b (s.grp g).ctx 0 hint false

/-- 64 bytes stored by a group, as eight ST (R436). -/
def State.storeRow (s : State) (g loc hint : Nat) (b : List Byte) : State :=
  (List.range 8).foldl (fun st i => st.storeDw g (s.locPlus loc (8 * i)) hint ((b.drop (8 * i)).take 8)) s

/-- A core's TLBs forget an address. -/
def State.forget (s : State) (core c : Nat) (va : Dword) : State :=
  (s.onCore core fun k => { k with l1tlb := k.l1tlb.filter fun e => !e.covers c va }).onCluster (cluOf core) fun k =>
    { k with l2tlb := k.l2tlb.filter fun e => !e.covers c va }

/-- Several detections borne by a group for one read: whether one exhausts the budget (R294, R300). -/
def State.bearAll (s : State) (g n : Nat) : Bool × State :=
  (List.range n).foldl (fun (p : Bool × State) _ =>
    let (ex, s1) := p.2.bear g true
    (p.1 || ex, s1)) (false, s)

/-- The home gives the entry at HEAD to a waiting get (R74, R436). Poison in the entry kills the group at its bundle and
leaves the entry; an exhausting detection is raised there (R294, R300). -/
def State.serveGet (s : State) (h : QHdr) (r : QueueReq) : Bool × State :=
  if s.notYet h r then (false, s) else
  match s.getDest h r with
  | (.inr none, s1) => (true, ((s1.dropReq r).forget (coreOf r.gid) (queueCtx h.id) r.dest).onGrp r.gid fun x => { x with wait := Wait.none })
  | (.inr (some q), s1) => (false, s1.holdOn r.gid r.dest q 1)
  | (.inl d, s1) =>
    match s1.devSpot (queueCtx h.id) (h.slot h.head) .r with
    | (.park c, s2) => (false, s2.holdOn r.gid (h.slot h.head) c 0)
    | (.loc l _ _, s2) =>
      let (u, s3) := s2.unitBytes (queueCtx h.id) (h.slot h.head).toNat (.group r.gid) l (h.size / 8)
      let (ex, s4) := s3.bearAll r.gid u.seen
      if !u.bad.isEmpty then (true, (s4.dropReq r).kill r.gid (s4.grp r.gid).live 2 (s4.locPlus l (u.bad.headD 0)) (h.slot h.head))
      else if ex then (true, (s4.dropReq r).handTo r.gid (h.slot h.head) 1)
      else
        let s5 := ((s4.dropReq r).queueToken r.gid h.id).setHeader { h with free := h.free + 1, head := (h.head + 1) % 2 ^ 64 }
        let s6 := match d with
          | some (at0, hint) => s5.storeRow r.gid at0 hint u.bytes
          | none => s5
        (true, s6.handTo r.gid (BitVec.ofNat 64 (fieldAt u.bytes 0 8)) 0)
    | (_, s2) => (false, s2.doom (queueCtx h.id) 4)

/-- The oldest of several requests that can be served, with n free slots or filled ones: one is kept for each that cannot be (R436). -/
def State.serveFrom (s : State) (h : QHdr) (n : Nat) : List QueueReq → Bool × State
  | [] => (false, s)
  | r :: l =>
    if n = 0 then (false, s)
    else match (if r.put then s.servePut h r else s.serveGet h r) with
      | (true, s1) => (true, s1)
      | (false, s1) => s1.serveFrom h (n - 1) l

/-- One waiting request served, a put before a get; whether there may be more (R74). -/
def State.serveOne (s : State) (id : Nat) : Bool × State :=
  match s.findQueue id with
  | (.ok h, s1) =>
    match s1.serveFrom h h.free (s1.waiting id true) with
    | (true, s2) => (true, s2)
    | (false, s2) => s2.serveFrom h h.filled (s2.waiting id false)
  | (_, s1) => (false, s1)

/-- The home serves waiting requests of a queue in order, at most n (R74). -/
def State.serveN (s : State) (id : Nat) : Nat → State
  | 0 => s
  | n + 1 =>
    if !(s.hub.queueReqs.any (·.queue == id)) then s
    else match s.serveOne id with
    | (true, s1) => s1.serveN id n
    | (false, s1) => s1

/-- The home serves what it can. -/
def State.serve (s : State) (id : Nat) : State := s.serveN id (2 * s.hub.queueReqs.length + 2)

/-! ### Queue instructions -/

/-- Free slots that no waiting request has a claim to, and filled ones (R74). -/
def State.slotFree (s : State) (h : QHdr) : Bool := decide ((s.waiting h.id true).length < h.free)
def State.slotFilled (s : State) (h : QHdr) : Bool := decide ((s.waiting h.id false).length < h.filled)

/-- The header of the queue that a scalar names, for the current group (R434): QUEUE 12, a park, or poison first. -/
def queueHeader (v : Dword) (kind : Nat) (t : State) : Eff ⊕ (QHdr × State) :=
  let id := v.toNat
  if 2 ^ 32 ≤ id || queueCtx id ≠ t.me.ctx then .inl (queueTrap 12 t)
  else match t.spot t.cur (queueVa id) .r false with
    | (.walk, t1) => .inl (.park 19 .walk (t1.askWalk t.cur (queueVa id) false))
    | (.park c, t1) => .inl (.park (if c then 18 else 17) .fault (t1.pageFault t.cur [(queueVa id, c)] kind))
    | (.loc l _ _, t1) =>
      match t1.readSector l t1.me.ctx (queueVa id).toNat (.group t.cur) with
      | (.poison, t2) => .inl (.gone (t2.poisonAt l (queueVa id)))
      | (_, t2) =>
        match t2.headerAt id l with
        | some h => .inr (h, t2)
        | none => .inl (queueTrap 12 t2)
    | (_, t1) => .inl (queueTrap 12 t1)

/-- Places of the ring and entry accesses of a queue instruction: access, whether the aperture serves it, bytes, address. -/
def State.qSpots (s : State) (g : Nat) : List (Acc × Bool × Nat × Dword) → List (Acc × Nat × Dword × Spot) × State
  | [] => ([], s)
  | (acc, ap, n, va) :: l =>
    let (p, s1) := s.spot g va acc ap
    let (r, s2) := s1.qSpots g l
    ((acc, n, va, p) :: r, s2)

/-- The checks of R436 on the ring and entry accesses, as for LD and ST: their locations, or what stops the instruction. -/
def queuePlaces (l : List (Acc × Bool × Nat × Dword)) (t : State) : Eff ⊕ (List Nat × State) :=
  let (ps, t1) := t.qSpots t.cur l
  if ps.any fun p => p.2.2.2 = .walk then
    .inl (.park 19 .walk (ps.foldl (fun st p => if p.2.2.2 = .walk then st.askWalk t.cur p.2.2.1 false else st) t1))
  else match ps.findSome? fun p => match p.2.2.2 with
      | .bad => some (5, p.2.2.1)
      | .perm => some (6, p.2.2.1)
      | _ => none with
    | some (c, va) => .inl (.trap c va t1)
    | none =>
      match ps.find? fun p => match p.2.2.2 with
          | .loc a _ _ => isSpad a && !ownerAllows (t1.ownerAt a) p.1
          | _ => false with
      | some p => .inl (.trap 7 p.2.2.1 t1)
      | none =>
        match ps.findSome? fun p => t1.watchAt t.cur false (decide (p.1 = .r)) (decide (p.1 = .w)) p.2.1 [p.2.2.1] with
        | some w => .inl (watchEff t1 w)
        | none =>
        match (if (t1.ctx t1.me.ctx).exhausted then ps.find? fun p => decide (p.1 = .w) && (p.2.2.2 matches .loc _ _ true) else none) with
        | some p => .inl (.trap 0x0F p.2.2.1 t1)
        | none =>
          let held := ps.filterMap fun p => match p.2.2.2 with
            | .park c => some (p.2.2.1, c)
            | _ => none
          if held.isEmpty then .inr (ps.filterMap (fun p => match p.2.2.2 with
            | .loc a _ _ => some a
            | _ => none), t1)
          else
            let kind := if (ps.find? fun p => p.2.2.2 matches .park _).any fun p => decide (p.1 = .r) then 0 else 1
            let t2 := t1.pageFault t.cur held kind
            .inl (.park (if t2.me.missing.all (·.2) then 18 else 17) .fault t2)

/-- A doubleword read by the current group at once, as LD would read it: what stops the group, or its value (R294, R300). -/
def loadDw (t : State) (loc : Nat) (va : Dword) : Eff ⊕ (Nat × State) :=
  let t0 := t.grantLine t.cur loc false
  let (o, v, t1) := if isSpad loc then
      match t0.readSector loc t.me.ctx va.toNat (.group t.cur) with
      | (o, u) => (o, Memory.le u.mem loc 8, u)
    else (t0.demand t.cur loc 8).l2Read (cluOf (coreOf t.cur)) loc 8 t.me.ctx va.toNat 0 (.group t.cur)
  match o with
  | .poison => .inl (.gone (t1.poisonAt loc va))
  | .detected =>
    match t1.bear t.cur true with
    | (true, t2) => .inl (.trap 0x0A va t2)
    | (false, t2) => .inr (v, t2)
  | .ok => .inr (v, t1)

/-- n doublewords of one page read by the current group, as LD would read them. -/
def loadDws (t : State) (loc : Nat) (va : Dword) : Nat → Eff ⊕ (List Byte × State)
  | 0 => .inr ([], t)
  | n + 1 =>
    match loadDws t loc va n with
    | .inl e => .inl e
    | .inr (b, t1) =>
      match loadDw t1 (t.locPlus loc (8 * n)) (va + BitVec.ofNat 64 (8 * n)) with
      | .inl e => .inl e
      | .inr (v, t2) => .inr (b ++ leBytes 8 v, t2)

/-- Every earlier access of the group is performed, and the cluster's writes go home (R220). -/
def State.releaseWide (s : State) : State := s.writeBackAll (cluOf (coreOf s.cur))

/-- The request of the current group that waits at a home. -/
def State.myReq (s : State) : Option QueueReq := s.hub.queueReqs.find? (·.gid == s.cur)

/-- After the home has served what it can: the instruction completes by k, raises EXHAUST, waits, or stands again at its start. -/
def queueAfter (k : Dword → State → Eff) (t : State) : Eff :=
  match t.me.wait.cond with
  | .handed a 0 => k a (t.onMe fun g => { g with wait := Wait.none })
  | .handed a _ => .trap 0x0A a t
  | .fault => .park t.me.wait.code .fault t
  | _ => if t.me.live = 0 || t.myReq.isNone then .gone t else .park 12 .queue t

/-- The request of a put or get at the home (R436). -/
def queueAsk (r : QueueReq) (k : Dword → State → Eff) (t : State) : Eff :=
  queueAfter k ((t.onHub fun h => { h with queueReqs := h.queueReqs ++ [r] }).serve r.queue)

/-- The put of a queue instruction from its operands on: `full` is what a full queue gives without parking (R436, R437). -/
def putBody (x : Pre) (r : Flds) (full : Option (State → Eff)) (k : State → Eff) (t : State) : Eff :=
  if t.myReq.isSome then queueAfter (fun _ u => k u) (t.serve ((t.myReq.map (·.queue)).getD 0))
  else match t.me.wait.cond with
  | .handed _ _ => queueAfter (fun _ u => k u) t
  | _ =>
    match queueHeader (t.readS r.a) 2 t with
    | .inl e => e
    | .inr (h, t1) =>
      let va := t1.srcS x r.b
      if h.e64 && va.toNat % 64 != 0 then .trap 4 va t1
      else match queuePlaces ((if h.e64 then [(Acc.r, true, 64, va)] else []) ++ [(Acc.w, false, h.size, h.slot h.tail)]) t1 with
        | .inl e => e
        | .inr (ls, t2) =>
          if !(t2.tokenReady t2.cur 4 h.id none) then .park 24 .replay t2
          else match (if t2.slotFree h then none else full) with
          | some f => f ((t2.queueToken t2.cur h.id).serve h.id)
          | none =>
            if !t2.me.flights.isEmpty then .park 31 .quiet t2
            else match (if h.e64 then loadDws t2 (ls.headD 0) va 8 else .inr (leBytes 8 va.toNat, t2)) with
              | .inl e => e
              | .inr (b, t3) =>
                queueAsk { queue := h.id, gid := t3.cur, put := true, entry := b, dest := 0 } (fun _ u => k u) t3.releaseWide

/-- The get of a queue instruction from its operands on (R436, R437). -/
def getBody (x : Pre) (r : Flds) (empty : Option (State → Eff)) (k : Dword → State → Eff) (t : State) : Eff :=
  let k1 := fun v (u : State) => k v (u.acquireWide u.cur)
  if t.myReq.isSome then queueAfter k1 (t.serve ((t.myReq.map (·.queue)).getD 0))
  else match t.me.wait.cond with
  | .handed _ _ => queueAfter k1 t
  | _ =>
    match queueHeader (t.readS r.a) 2 t with
    | .inl e => e
    | .inr (h, t1) =>
      let va := t1.srcS x r.b
      if h.e64 && va.toNat % 64 != 0 then .trap 4 va t1
      else match queuePlaces ((if h.e64 then [(Acc.w, true, 64, va)] else []) ++ [(Acc.r, false, h.size, h.slot h.head)]) t1 with
        | .inl e => e
        | .inr (ls, t2) =>
          if t2.me.orderWait then .park 31 .order t2
          else if h.e64 && (List.range 8).any (fun i => t2.me.touching (t2.locPlus (ls.headD 0) (8 * i))) then .park 31 .quiet t2
          else if !(t2.tokenReady t2.cur 4 h.id none) then .park 24 .replay t2
          else match (if t2.slotFilled h then none else empty) with
          | some f => f ((t2.queueToken t2.cur h.id).serve h.id)
          | none => queueAsk { queue := h.id, gid := t2.cur, put := false, entry := [], dest := va } k1 t2

/-- QPUT (R434 to R436). -/
def execQput (x : Pre) (a b : Reg) (s : State) : Host.Outcome State Fault Refusal :=
  issue x (opStop (wordR x 0x36 0 0 a b) [⟨.a, .s, .rd, a⟩, ⟨.b, .s, .rd, b⟩] (some 3)) (fun r t => putBody x r none .next t) s

/-- QGET (R434 to R436). -/
def execQget (x : Pre) (d a b : Reg) (s : State) : Host.Outcome State Fault Refusal :=
  issue x (opStop (wordR x 0x36 1 d a b) [⟨.d, .s, .wr, d⟩, ⟨.a, .s, .rd, a⟩, ⟨.b, .s, .rd, b⟩] (some 3)) (fun r t =>
    getBody x r none (fun v u => .next (u.writeS r.d v)) t) s

/-- QFREE (R437). -/
def execQfree (x : Pre) (d a : Reg) (s : State) : Host.Outcome State Fault Refusal :=
  issue x (opStop (wordR x 0x36 2 d a 0) [⟨.d, .s, .wr, d⟩, ⟨.a, .s, .rd, a⟩] (some 3)) (fun r t =>
    match queueHeader (t.readS r.a) 0 t with
    | .inl e => e
    | .inr (h, t1) =>
      if !(t1.tokenReady t1.cur 4 h.id none) then .park 24 .replay t1
      else
        let (w, t2) := ((t1.queueToken t1.cur h.id).serve h.id).crossing t1.cur 8 (BitVec.ofNat 64 h.free)
        .next (t2.writeS r.d w)) s

/-- The status of QTRYPUT written and logged (R437). -/
def putStatus (r : Flds) (v : Dword) (u : State) : Eff :=
  let (w, u1) := u.crossing u.cur 9 v
  .next (u1.writeS r.d w)

/-- QTRYPUT (R435 to R437). -/
def execQtryput (x : Pre) (d a b : Reg) (s : State) : Host.Outcome State Fault Refusal :=
  issue x (opStop (wordR x 0x36 3 d a b) [⟨.d, .s, .wr, d⟩, ⟨.a, .s, .rd, a⟩, ⟨.b, .s, .rd, b⟩] (some 3)) (fun r t =>
    putBody x r (some (putStatus r 1)) (putStatus r 0) t) s

/-- The entry and status of QTRYGET written and logged (R437). -/
def getStatus (r : Flds) (st v : Dword) (u : State) : Eff :=
  let (w, u1) := u.crossing u.cur 9 st
  .next ((u1.writeS r.d v).writeS (r.d + 1) w)

/-- QTRYGET (R435 to R437). -/
def execQtryget (x : Pre) (d a b : Reg) (s : State) : Host.Outcome State Fault Refusal :=
  issue x (opStop (wordR x 0x36 4 d a b) [⟨.d, .t, .wr, d⟩, ⟨.a, .s, .rd, a⟩, ⟨.b, .s, .rd, b⟩] (some 3)) (fun r t =>
    getBody x r (some (getStatus r 1 0)) (getStatus r 0) t) s

end Sys2Proof.Machine
end

