-- ==== Sys2Proof/Machine/Work.lean ====
section
/-! DEFINITION. Work coming into being: launch records and their validation (R28 to R36), admission (R39, R55, R56, R315, R328),
completion (R37 to R39), bound descriptors (R302, R303), spawn bins (R42, R66 to R70), and SPAWN, BINCFG, BINFLUSH and LAUNCH. -/

namespace Sys2Proof.Machine

/-! ### Launch records -/

/-- The minimum scope code of a domain code (R29). -/
def minScope (d : Nat) : Nat := if d ≤ 1 then d else if d ≤ 3 then 2 else if d ≤ 5 then 3 else 4

/-- The alignment in cores that a domain code asks of the range (R32). -/
def domainAlign (d : Nat) : Nat := if d = 2 then 2 else if d = 3 then 64 else if d = 4 then 128 else 1

/-- Level entry n of a record (R35). -/
def recLevel (b : List Byte) (n : Nat) : Level :=
  let w := fieldAt b (0x40 + 16 * n) 8
  { extent := w % 2 ^ 32, domain := bitsN w 39 32, scope := bitsN w 47 40, nofence := bitN w 48 }

/-- The launch that a record describes (R34), before its validation. -/
def recLaunch (b : List Byte) (c : Nat) (source : Option (Nat × Nat)) (notify : Bool) (addr : Dword) : Launch :=
  { ctx := c, source := source, notify := notify, record := addr, entry := BitVec.ofNat 64 (fieldAt b 0 8)
    argp := BitVec.ofNat 64 (fieldAt b 8 8), cls := clsOf (fieldAt b 0x11 1), runahead := fieldAt b 0x12 1 == 1
    recording := fieldAt b 0x13 1 == 1, pevict := fieldAt b 0x14 1 == 1, weight := fieldAt b 0x15 1, prio := fieldAt b 0x16 1
    vregs := roundUp (fieldAt b 0x18 2) 16, sregs := roundUp (fieldAt b 0x1A 2) 8, spad := roundUp (fieldAt b 0x1C 4) 4096
    cfirst := fieldAt b 0x20 2, ccount := fieldAt b 0x22 2, boundp := BitVec.ofNat 64 (fieldAt b 0x28 8)
    donep := BitVec.ofNat 64 (fieldAt b 0x30 8), levels := (List.range (fieldAt b 0x10 1)).map (recLevel b)
    inq := BitVec.ofNat 32 (fieldAt b 0xC0 4), outq := BitVec.ofNat 32 (fieldAt b 0xC4 4), stage := 8, status := 0, reason := 0
    next := 0, evicted := [], dies := [], stuck := 0, reserved := 0, fresh := true, ended := [], releases := [], retired := 0, held := 0, logNo := 0 }

/-- Groups of a crew. -/
def Launch.groups (x : Launch) : Nat := x.extent 1

/-- The crew count (R28). -/
def Launch.crews (x : Launch) : Nat := x.product 2 (x.levels.length - 1)

/-- The level of the placement unit: the highest whose domain is CORE, PAIR or CLUSTER (R31). -/
def Launch.unitLevel (x : Launch) : Nat := ((x.levels.zipIdx.filter fun p => p.1.domain ≤ 3).map (·.2)).foldl max 1

/-- Domain code of the placement unit. -/
def Launch.unitDomain (x : Launch) : Nat := ((x.levels.getD x.unitLevel { extent := 1, domain := 1, scope := 1, nofence := false })).domain

/-- Crews of a placement unit. -/
def Launch.unitCrews (x : Launch) : Nat := x.product 2 x.unitLevel

/-- Placement units of the launch. -/
def Launch.units (x : Launch) : Nat := x.product (x.unitLevel + 1) (x.levels.length - 1)

/-- Crews of the launch that one empty core holds (R57). -/
def Launch.crewsPerCore (x : Launch) (cls : Cls) : Nat :=
  let g := x.groups
  let most := min (24 / g) (min (2048 / (g * x.vregs)) (1024 / (g * x.sregs)))
  if x.spad = 0 then most else min most (usable cls / x.spad)

/-- The placement unit fits in one empty instance of its domain (R36). -/
def Launch.unitFits (x : Launch) (cls : Cls) : Bool :=
  let n := x.crewsPerCore cls
  match x.unitDomain with
  | 2 => decide ((x.unitCrews + 1) / 2 ≤ n)
  | 3 => decide (x.unitCrews ≤ 64 * n)
  | _ => decide (x.unitCrews ≤ n)

/-- Domain n of the levels breaks R28. -/
def badDomain (x : Launch) (n : Nat) : Bool :=
  let d := (x.levels.getD n { extent := 1, domain := 0, scope := 0, nofence := false }).domain
  match n with
  | 0 => d != 0
  | 1 => d != 1
  | k + 1 => decide (6 < d) || decide (d < (x.levels.getD k { extent := 1, domain := 0, scope := 0, nofence := false }).domain) ||
      (d == 6 && n + 1 != x.levels.length)

/-- Scope n of the levels breaks R28. -/
def badScope (x : Launch) (n : Nat) : Bool :=
  let l := x.levels.getD n { extent := 1, domain := 0, scope := 0, nofence := false }
  decide (4 < l.scope) || (if n = 0 then l.scope != 0 else decide (l.scope < minScope l.domain))

/-- Extent n of the levels breaks R28. -/
def badExtent (x : Launch) (n : Nat) : Bool :=
  x.extent n == 0 || decide ((if n = 0 then 32 else if n = 1 then 24 else 2 ^ 24) < x.extent n)

/-- A reserved byte or bit of a record is nonzero, an unused level entry is not zero, or the top level sets NOFENCE (reason 0x07). -/
def badReserved (b : List Byte) (x : Launch) : Bool :=
  let n := x.levels.length
  fieldAt b 0x17 1 != 0 || fieldAt b 0x24 4 != 0 || fieldAt b 0x38 8 != 0 || fieldAt b 0xC8 56 != 0 ||
  ((List.range 8).any fun i => if i < n then fieldAt b (0x46 + 16 * i) 2 / 2 != 0 || fieldAt b (0x48 + 16 * i) 8 != 0
    else fieldAt b (0x40 + 16 * i) 16 != 0) ||
  (x.levels.getD (n - 1) { extent := 1, domain := 0, scope := 0, nofence := false }).nofence

/-- A pointer field is neither zero nor a canonical address aligned to n. -/
def badPtr (n : Nat) (p : Dword) : Bool := p.toNat % n != 0 || !canonical p

/-- The first of the reasons 0x01 to 0x08 that rejects a record in context c; 0 for none (R36, R278, R315). -/
def State.recReason (s : State) (c : Nat) (b : List Byte) : Nat :=
  let x := recLaunch b c none false 0
  let n := x.levels.length
  let ls := List.range n
  let cls := if fieldAt b 0x11 1 ≤ 2 then x.cls else .u
  let align := (x.levels.map fun l => domainAlign l.domain).foldl max 1
  let k := s.ctx c
  if n < 2 || 8 < n then 1
  else if ls.any (badDomain x) then 2
  else if ls.any (badScope x) then 3
  else if ls.any (badExtent x) || decide (2 ^ 32 ≤ x.crews) then 4
  else if decide (fieldAt b 0x18 2 < 16) || decide (512 < fieldAt b 0x18 2) || decide (fieldAt b 0x1A 2 < 8) ||
      decide (256 < fieldAt b 0x1A 2) || decide (usable cls < fieldAt b 0x1C 4) || !x.unitFits cls then 5
  else if x.ccount = 0 || decide (768 < x.cfirst + x.ccount) || x.cfirst % align != 0 || x.ccount % align != 0 ||
      decide (x.cfirst < k.sfirst) || decide (k.sfirst + k.scount < x.cfirst + x.ccount) then 6
  else if badReserved b x then 7
  else if badPtr 4 x.entry || decide (2 < fieldAt b 0x11 1) || decide (1 < fieldAt b 0x12 1) || decide (1 < fieldAt b 0x13 1) ||
      decide (1 < fieldAt b 0x14 1) || x.weight == 0 || decide (15 < x.weight) || decide (7 < x.prio) || badPtr 32 x.boundp ||
      badPtr 8 x.donep || (x.recording && (s.session? c).isNone) then 8
  else 0

/-! ### Admission and completion -/

/-- The number of the fault filed for a page, plus 1. -/
def State.faultFor (s : State) (c : Nat) (va : Dword) : Nat :=
  match List.find? (fun (f : Nat × FaultRec) => f.2.ctx == c && f.2.covers va) s.hub.faults with
  | some f => f.1 + 1
  | none => 0

/-- A launch waits for a page: the fault is filed, and its number kept (R36, R38, R39). -/
def State.holdLaunch (s : State) (l : Nat) (x : Launch) (va : Dword) (kind : Nat) : State :=
  let s1 := s.fileFault x.ctx va kind []
  s1.setLaunch l { x with held := s1.faultFor x.ctx va }

/-- The completion word is due: it is written, given up or held, and then the OUTQ put is due or the launch is finished
(R37, R38, R39, R55). -/
def State.completeLaunch (s : State) (l : Nat) : State :=
  match s.launch? l with
  | none => s
  | some x =>
    match s.doneWord x with
    | (true, s1) => s1.holdLaunch l { x with stage := 4 } x.donep 1
    | (false, s1) =>
      if x.outq = 0xFFFFFFFF then s1.finishLaunch l x else s1.setLaunch l { x with stage := 5, held := 0 }

/-- A launch whose completion word is due. -/
def State.launchDue (s : State) (l : Nat) : State :=
  match s.launch? l with
  | some x => if x.stage = 4 && x.held = 0 then s.completeLaunch l else s
  | none => s

/-- A queue that a record names: usable by the context, or its page parkable (R36, R434). -/
def State.namesQueue (s : State) (c : Nat) (id : Word) : QFind × State :=
  if queueCtx id.toNat ≠ c then (.none, s) else s.findQueue id.toNat

/-- The launch is rejected: its OUTQ counts only when it names a queue of the context (R36, R37, R39). -/
def State.rejectLaunch (s : State) (l : Nat) (x : Launch) (reason : Nat) : State :=
  let (q, s1) := if x.outq = 0xFFFFFFFF then (QFind.none, s) else s.namesQueue x.ctx x.outq
  let out := match q with
    | .none => 0xFFFFFFFF
    | _ => x.outq
  (((s1.setLaunch l { x with stage := 4, status := 2, reason := reason, outq := out, held := 0 }).notify x).completeLaunch l)

/-- The head ADMIT of a replay log names this submission queue and record address (R328 step 5). -/
def State.admitReady (s : State) (c : Nat) (queue : Nat) (addr : Dword) : Bool :=
  match s.replaying? c with
  | none => true
  | some (t, k) =>
    match (s.sess t k).log.find? fun r => recKind r == 0x08 with
    | none => false
    | some r => recField r 32 4 == queue && recField r 64 64 == addr.toNat

/-- An ADMIT is logged, or consumed in replay: the launch's number in the log, which counts the session's admissions from 0 (DEDUCED,
log entry 21), and the state (R316, R323, R328). -/
def State.admitRec (s : State) (c l queue : Nat) (addr : Dword) : Nat × State :=
  match s.replaying? c with
  | none =>
    match s.session? c with
    | none => (l % 2 ^ 16, s)
    | some (t, k) =>
      let n := (s.sess t k).admits
      (n % 2 ^ 16, (s.hubRec c 0x08 16 [(16, 16, n), (32, 4, queue), (64, 64, addr.toNat)]).onSess t k fun y => { y with admits := n + 1 })
  | some (t, k) =>
    match takeRec (fun r => recKind r == 0x08) (s.sess t k).log with
    | some (r, log) => (recField r 16 16, s.onSess t k fun y => { y with log := log })
    | none => (l % 2 ^ 16, s)

/-- The submission queue of a launch's ADMIT: 15 for LAUNCH (R323). -/
def Launch.queueNo (x : Launch) : Nat := (x.source.map (·.2)).getD 15

/-- A queue field of a record: 0 none, or a queue of the context; 1 its page is parkable; 2 no queue (R36). -/
def State.queueField (s : State) (c : Nat) (id : Word) : Nat × State :=
  if id = 0xFFFFFFFF then (0, s)
  else match s.namesQueue c id with
    | (.ok _, s1) => (0, s1)
    | (.park _, s1) => (1, s1)
    | (.none, s1) => (2, s1)

/-- The check of INQ and OUTQ; a parkable header page holds the launch (R36, R39). -/
def State.checkQueues (s : State) (l : Nat) : State :=
  match s.launch? l with
  | none => s
  | some x =>
    let y := { x with stage := 6, held := 0 }
    let (i, s1) := s.queueField x.ctx x.inq
    let (o, s2) := s1.queueField x.ctx x.outq
    if i = 2 || o = 2 then s2.rejectLaunch l y 9
    else if i = 1 then s2.holdLaunch l y (queueVa x.inq.toNat) 2
    else if o = 1 then s2.holdLaunch l y (queueVa x.outq.toNat) 2
    else s2.setLaunch l { y with stage := if x.inq ≠ 0xFFFFFFFF then 0 else if x.boundp ≠ 0 then 1 else 2 }

/-- Validation of a submitted launch, in replay once its ADMIT heads the log (R36, R328). -/
def State.validate (s : State) (l : Nat) : State :=
  match s.launch? l with
  | none => s
  | some x =>
    if !s.admitReady x.ctx x.queueNo x.record then s
    else
      let (no, s1) := s.admitRec x.ctx l x.queueNo x.record
      let y := { x with logNo := no }
      if x.reason ≠ 0 then s1.rejectLaunch l y x.reason else (s1.setLaunch l y).checkQueues l

/-- A record reaches the dispatcher (R36, R41, R55); the launch's number, and the state. -/
def State.submit (s : State) (c : Nat) (b : List Byte) (source : Option (Nat × Nat)) (notify : Bool) (addr : Dword) : Nat × State :=
  let l := s.hub.nextLaunch
  let x := recLaunch b c source notify addr
  let r := s.recReason c b
  let x1 := { x with levels := if r = 1 then [] else x.levels, reason := r, stage := 8 }
  (l, ((s.setLaunch l x1).onHub fun h => { h with nextLaunch := h.nextLaunch + 1 }).validate l)

/-! ### Bound descriptors -/

/-- The bound register that a descriptor describes (R302). -/
def boundOf (b : List Byte) : Bound :=
  { base := BitVec.ofNat 64 (fieldAt b 0 8), limit := BitVec.ofNat 64 (fieldAt b 8 8), low := BitVec.ofNat 32 (fieldAt b 0x10 4)
    high := BitVec.ofNat 32 (fieldAt b 0x14 4), fmt := fieldAt b 0x18 1, action := fieldAt b 0x19 1, space := fieldAt b 0x1A 1
    valid := fieldAt b 0x1B 1 == 1 }

/-- A descriptor that is not unused is refused (R303). -/
def boundRefused (b : List Byte) : Bool :=
  let d := boundOf b
  let z := boundBytes d.fmt
  decide (1 < fieldAt b 0x1B 1) || decide (10 < d.fmt) || decide (2 < d.action) || decide (1 < d.space) || fieldAt b 0x1C 4 != 0 ||
  decide (d.limit.toNat ≤ d.base.toNat) || (if d.space = 0 then !canonical d.base else decide (2 ^ 25 ≤ d.base.toNat)) ||
  decide (2 ^ (8 * z) ≤ d.low.toNat) || decide (2 ^ (8 * z) ≤ d.high.toNat) || boundNan d.fmt d.low.toNat || boundNan d.fmt d.high.toNat ||
  boundLt d.fmt d.high.toNat d.low.toNat || d.base.toNat % z != 0 || d.limit.toNat % z != 0

/-! ### Spawn bins -/

/-- The configuration word of the bins of a context with an entry address (R66, R369). -/
def Core.cfgOf (k : Core) (c : Nat) (e : Dword) : Option Dword := (k.binCfg.find? fun p => p.1 == c && p.2.1 == e).map (·.2.2)

/-- A closing is logged; in replay it meets its record (R324, R328, R329). -/
def State.spawnRec (s : State) (core c bin cause n : Nat) : State :=
  let r := mkRec 0x06 8 (cluOf core) [(16, 6, core % 64), (22, 4, bin), (26, 2, cause), (28, 5, n - 1)]
  match s.replaying? c with
  | none => s.addRec c (cluOf core) r
  | some (t, k) =>
    match takeRec (· == r) (s.sess t k).log with
    | some (_, l) => s.onSess t k fun y => { y with log := l }
    | none => s.diverge c 0x03

/-- Closed bins move into the launch buffer while it has room, in the order in which they are listed (R69). -/
def Core.moveBins (k : Core) : Nat → Core
  | 0 => k
  | n + 1 =>
    match k.bins.find? fun b => b.closing != 0 with
    | some b => if k.buffer.length < 4 then Core.moveBins { k with bins := k.bins.erase b, buffer := k.buffer ++ [b] } n else k
    | none => k

/-- Bin number `bin` closes for a cause (R68, R69, R323). -/
def Core.closeBin (k : Core) (bin cause : Nat) : Core :=
  Core.moveBins { k with bins := k.bins.map fun b =>
    if b.index = bin && b.closing = 0 then { b with closing := cause + 1, cfg := (k.cfgOf b.ctx b.entry).getD 0 } else b } 4

/-- The lowest bin number not in use. -/
def Core.freeBin (k : Core) : Option Nat := (List.range 16).find? fun i => !(k.bins.any (·.index == i))

/-- The open bin of a key. -/
def Core.binOf (k : Core) (c : Nat) (e : Dword) : Option Bin := k.bins.find? fun b => b.ctx == c && b.entry == e

/-- A timer closes a bin: it is closed and logged (R68, R324). -/
def State.timerClose (s : State) (core : Nat) (b : Bin) : State :=
  (s.onCore core fun k => k.closeBin b.index 1).spawnRec core b.ctx b.index 1 b.args.length

/-- A timer closing of a replay's log takes effect; one that meets no open bin is a divergence (R328 step 6, R329). -/
def State.timerLogged (s : State) (core c : Nat) (r : List Byte) : State :=
  match (s.core core).bins.find? fun b => b.ctx == c && b.index == recField r 22 4 && b.closing == 0 with
  | some b => s.timerClose core b
  | none => s.diverge c 0x03

/-- In replay, the timer closings of a core that the log has before group g's chunk record (R328 step 6). -/
def State.replayTimers (s : State) (g : Nat) : State :=
  match s.replaying? (s.grp g).ctx with
  | none => s
  | some (t, k) =>
    let core := coreOf g
    let before := (s.sess t k).log.takeWhile fun r => !(recIs 0x01 g r || recIs 0x02 g r)
    (before.filter fun r => recKind r == 0x06 && recClu r == cluOf core && recField r 16 6 == core % 64 && recField r 26 2 == 1).foldl
      (fun st r => st.timerLogged core (s.grp g).ctx r) s

/-- One deposit into a key's bin, which opens when there is none, and closes when full: the closing's bin number (R66, R67). -/
def Core.deposit (k : Core) (c : Nat) (e : Dword) (v : Word) : Core × Option Nat :=
  match k.binOf c e with
  | some b =>
    let k1 := { k with bins := k.bins.map fun x => if x.index = b.index then { x with args := x.args ++ [v] } else x }
    if b.args.length = 31 then (k1.closeBin b.index 0, some b.index) else (k1, none)
  | none =>
    let b : Bin := { ctx := c, entry := e, args := [v], cfg := 0, start := k.cycles, closing := 0, index := (k.freeBin).getD 0 }
    ({ k with bins := k.bins ++ [b] }, none)

/-- The deposits of a SPAWN: the core after them, and the bins that filled (R67). -/
def Core.deposits (k : Core) (c : Nat) (e : Dword) : List Word → Core × List Nat
  | [] => (k, [])
  | v :: l =>
    let (k1, f) := k.deposit c e v
    let (k2, r) := Core.deposits k1 c e l
    (k2, f.toList ++ r)

/-- The bin whose first deposit is oldest, of those that have one of the sixteen numbers (R66). -/
def Core.oldestBin (k : Core) : Option Bin :=
  (k.bins.filter fun b => decide (b.index < 16)).foldl (fun (o : Option Bin) b => match o with
    | none => some b
    | some a => if b.start < a.start then some b else some a) none

/-- The bin that a SPAWN displaces: the oldest, when its key has no bin and all sixteen are in use (R66). -/
def Core.displaced (k : Core) (c : Nat) (e : Dword) : Option Bin :=
  if (k.binOf c e).isNone && k.freeBin.isNone then k.oldestBin else none

/-- SPAWN's effect once it may go on: the release has been made, and deposits and closings follow its chunk (R67, R324, R452). -/
def State.spawnNow (s : State) (x : Pre) (e : Dword) (args : List Word) : State :=
  let core := coreOf s.cur
  let c := s.me.ctx
  let k := s.core core
  let out := (k.displaced c e).toList
  let k1 := out.foldl (fun (q : Core) b => q.closeBin b.index 3) k
  let (k2, full) := k1.deposits c e args
  let s1 := (s.setCore core k2).complete x (some 5) none
  full.foldl (fun st i => st.spawnRec core c i 0 32) (out.foldl (fun st b => st.spawnRec core b.ctx b.index 3 b.args.length) s1)

/-- SPAWN past the checks of its entry address (R452). -/
def spawnBody (x : Pre) (e : Dword) (args : List Word) (t0 : State) : Eff :=
  let t := t0.replayTimers t0.cur
  let c := t.me.ctx
  let k := t.core (coreOf t.cur)
  let held := match k.binOf c e with
    | some b => b.closing != 0
    | none => (k.displaced c e).any fun b => b.closing != 0
  let had := ((k.binOf c e).map fun b => b.args.length).getD 0
  let need := (if (k.displaced c e).isSome then 1 else 0) + (if 32 ≤ had + args.length then 1 else 0)
  if held || 4 < k.buffer.length + need then .park 31 .buffer t
  else if !t.me.flights.isEmpty then .park 31 .quiet t
  else .gone (t.spawnNow x e args)

/-- SPAWN (R452, R453). -/
def execSpawn (x : Pre) (a b : Reg) (s : State) : Host.Outcome State Fault Refusal :=
  issue x (opStop (wordR x 0x34 0 0 a b) [⟨.a, .s, .rd, a⟩, ⟨.b, .v, .rd, b⟩] (some 5)) (fun r t =>
    let e := t.readS r.a
    if e.toNat % 4 ≠ 0 then .trap 4 e t
    else if !canonical e then .trap 5 e t
    else match (t.core (coreOf t.cur)).cfgOf t.me.ctx e with
      | none => .trap 0x11 e t
      | some _ => if t.me.act = 0 then .next t else spawnBody x e ((lanesOf t.me.act).map (t.srcVB x r.b)) t) s

/-- A configuration word that breaks the table of R368. -/
def badBinCfg (v : Dword) : Bool :=
  let cls := dbits v 45 44
  dbits v 63 52 != 0 || dbits v 46 46 != 0 || dbits v 35 35 != 0 || dbits v 29 29 != 0 || dbits v 51 48 == 0 || cls == 3 ||
  decide (usable (clsOf cls) < 4096 * dbits v 43 36)

/-- Configurations with one set, replaced or removed (R369). -/
def Core.setCfg (k : Core) (c : Nat) (e v : Dword) : Core :=
  let rest := k.binCfg.filter fun p => !(p.1 == c && p.2.1 == e)
  { k with binCfg := if v = 0 then rest else rest ++ [(c, e, v)] }

/-- BINCFG past its checks: the key's open bin closes, then the entry is written (R369). -/
def State.binCfgNow (s : State) (x : Pre) (e v : Dword) : State :=
  let core := coreOf s.cur
  let c := s.me.ctx
  match ((s.core core).binOf c e).filter (·.closing == 0) with
  | none => (s.onCore core fun k => k.setCfg c e v).complete x (some 5) none
  | some b => ((s.onCore core fun k => (k.closeBin b.index 2).setCfg c e v).complete x (some 5) none).spawnRec core c b.index 2 b.args.length

/-- BINCFG (R368, R369). -/
def execBincfg (x : Pre) (a b : Reg) (s : State) : Host.Outcome State Fault Refusal :=
  issue x (opStop (wordR x 0x34 1 0 a b) [⟨.a, .s, .rd, a⟩, ⟨.b, .s, .rd, b⟩] (some 5)) (fun r t =>
    let e := t.readS r.a
    let v := t.srcS x r.b
    let k := t.core (coreOf t.cur)
    let c := t.me.ctx
    if e.toNat % 4 ≠ 0 then .trap 4 e t
    else if !canonical e then .trap 5 e t
    else if v ≠ 0 && (k.cfgOf c e).isNone && decide (16 ≤ (k.binCfg.filter (·.1 == c)).length) then queueTrap 7 t
    else if v ≠ 0 && badBinCfg v then queueTrap 8 t
    else if (k.binOf c e).isSome && decide (4 ≤ k.buffer.length) then .park 31 .buffer t
    else .gone ((t.replayTimers t.cur).binCfgNow x e v)) s

/-- BINFLUSH completes: its closings are logged after its chunk (R370). -/
def State.flushed (s : State) (x : Pre) (l : List (Nat × Nat)) : State :=
  let core := coreOf s.cur
  let c := s.me.ctx
  l.foldl (fun st p => st.spawnRec core c p.1 2 p.2) ((s.onMe fun g => { g with wait := Wait.none }).complete x (some 5) none)

/-- BINFLUSH (R370). -/
def execBinflush (x : Pre) (s : State) : Host.Outcome State Fault Refusal :=
  issue x (opStop (wordR x 0x34 2 0 0 0) [] (some 5)) (fun _ t =>
    let core := coreOf t.cur
    match t.me.wait.cond with
    | .flush l => if t.holds t.cur (.flush l) then .gone (t.flushed x l) else .park 31 (.flush l) t
    | _ =>
      let t0 := t.replayTimers t.cur
      let mine := (t0.core core).bins.filter fun b => b.ctx == t0.me.ctx && b.closing == 0
      let t1 := mine.foldl (fun st b => st.onCore core fun k => k.closeBin b.index 2) t0
      let l := mine.map fun b => (b.index, b.args.length)
      if t1.holds t1.cur (.flush l) then .gone (t1.flushed x l) else .park 31 (.flush l) t1) s

/-! ### LAUNCH -/

/-- n doublewords of one page read at their homes for the current group: what stops it, or the bytes (R294, R300). -/
def homeDws (t : State) (loc : Nat) (va : Dword) : Nat → Eff ⊕ (List Byte × State)
  | 0 => .inr ([], t)
  | n + 1 =>
    match homeDws t loc va n with
    | .inl e => .inl e
    | .inr (b, t1) =>
      let l := t1.locPlus loc (8 * n)
      let a := va + BitVec.ofNat 64 (8 * n)
      match t1.readNow t1.cur l 8 a with
      | (.poison, _, t2) => .inl (.gone (t2.poisonAt l a))
      | (.detected, v, t2) =>
        match t2.bear t2.cur true with
        | (true, t3) => .inl (.trap 0x0A a t3)
        | (false, t3) => .inr (b ++ leBytes 8 v, t3)
      | (.ok, v, t2) => .inr (b ++ leBytes 8 v, t2)

/-- LAUNCH (R409, R410). -/
def execLaunch (x : Pre) (a : Reg) (s : State) : Host.Outcome State Fault Refusal :=
  issue x (opStop (wordR x 0x34 3 0 a 0) [⟨.a, .s, .rd, a⟩] (some 5)) (fun r t =>
    let va := t.readS r.a
    if va.toNat % 256 ≠ 0 then .trap 4 va t
    else match t.spot t.cur va .r false with
      | (.walk, t1) => .park 19 .walk (t1.askWalk t.cur va false)
      | (.bad, t1) => .trap 5 va t1
      | (.perm, t1) => .trap 6 va t1
      | (.park q, t1) => .park (if q then 18 else 17) .fault (t1.pageFault t.cur [(va, q)] 0)
      | (.loc l _ _, t1) =>
        if !t1.me.flights.isEmpty then .park 31 .quiet t1
        else if 256 ≤ t1.admitted then .park 31 .launches t1.releaseWide
        else match homeDws t1.releaseWide l va 32 with
          | .inl e => e
          | .inr (b, t2) => .next (t2.submit t2.me.ctx b none false va).2) s

end Sys2Proof.Machine
end

