-- ==== Sys2Proof/Machine/Deque.lean ====
section
/-! DEFINITION. The deque (R43, R71 to R73, R390 to R392): requests and their service. -/

namespace Sys2Proof.Machine

/-- The count of a deque that a context holds; 0 for any other (R391). -/
def Core.dqCount (k : Core) (c : Nat) : Nat := if k.dqHolder = some c then k.deque.length else 0

/-- A request waits at the deque of a core (R73). -/
def State.dqAsk (s : State) (core op : Nat) (v : Dword) : State :=
  s.onCore core fun k => { k with dqReqs := k.dqReqs ++ [{ gid := s.cur, op := op, val := v, since := k.cycles }] }

/-- The current group has a request waiting at a deque. -/
def State.dqWaits (s : State) : Bool := s.cores.any fun k => k.2.dqReqs.any fun r => r.gid == s.cur

/-- A bottom operation of the current group (R71, R391): k completes it once it has been served. -/
def dqBottom (op : Nat) (v : Dword) (k : Dword → Dword → State → Eff) (t : State) : Eff :=
  let core := coreOf t.cur
  match t.me.wait.cond with
  | .handed a b => k a b (t.onMe fun g => { g with wait := Wait.none })
  | _ =>
    if (t.core core).dqHolder.any (· != t.me.ctx) then queueTrap 1 t
    else if t.dqWaits then .park 13 .deque t
    else if op = 0 && !t.me.flights.isEmpty then .park 31 .quiet t
    else if op ≠ 0 && t.me.orderWait then .park 31 .order t
    else
      let t1 := if op = 0 then t.releaseWide else t
      .park 13 .deque ((t1.onCore core fun q => { q with dqHolder := some t.me.ctx }).dqAsk core op v)

/-- A pop or a steal completes: an entry acquires at PKG scope (R391). -/
def dqTake (r : Flds) (a b : Dword) (t : State) : Eff :=
  let t1 := if b = 0 then t.acquireWide t.cur else t
  .next ((t1.writeS r.d a).writeS (r.d + 1) b)

/-- DQPUSH (R390 to R392). -/
def execDqpush (x : Pre) (d b : Reg) (s : State) : Host.Outcome State Fault Refusal :=
  issue x (opStop (wordR x 0x35 0 d 0 b) [⟨.d, .s, .wr, d⟩, ⟨.b, .s, .rd, b⟩] (some 4)) (fun r t =>
    dqBottom 0 (t.srcS x r.b) (fun a _ u => .next (u.writeS r.d a)) t) s

/-- DQPOP (R390 to R392). -/
def execDqpop (x : Pre) (d : Reg) (s : State) : Host.Outcome State Fault Refusal :=
  issue x (opStop (wordR x 0x35 1 d 0 0) [⟨.d, .t, .wr, d⟩] (some 4)) (fun r t => dqBottom 1 0 (dqTake r) t) s

/-- DQSTEAL (R71, R390 to R392). -/
def execDqsteal (x : Pre) (d a : Reg) (s : State) : Host.Outcome State Fault Refusal :=
  issue x (opStop (wordR x 0x35 2 d a 0) [⟨.d, .t, .wr, d⟩, ⟨.a, .s, .rd, a⟩] (some 4)) (fun r t =>
    match t.me.wait.cond with
    | .handed p q => dqTake r p q (t.onMe fun g => { g with wait := Wait.none })
    | _ =>
      let v := (t.readS r.a).toNat
      if 767 < v then queueTrap 11 t
      else if t.dqWaits then .park 13 .deque t
      else if t.me.orderWait then .park 31 .order t
      else .park 13 .deque (t.dqAsk v 2 0)) s

/-- DQLEN (R390 to R392). -/
def execDqlen (x : Pre) (d a : Reg) (s : State) : Host.Outcome State Fault Refusal :=
  issue x (opStop (wordR x 0x35 3 d a 0) [⟨.d, .s, .wr, d⟩, ⟨.a, .s, .rd, a⟩] (some 4)) (fun r t =>
    let v := (t.readS r.a).toNat
    if 767 < v then queueTrap 11 t
    else
      let (w, t1) := t.crossing t.cur 6 (BitVec.ofNat 64 ((t.core v).dqCount t.me.ctx))
      .next (t1.writeS r.d w)) s

/-! ### The service -/

/-- A request leaves the deque's list with its token taken, and its group is woken with a result (R73, R392). -/
def State.dqServe (s : State) (core : Nat) (r : DqReq) (a b : Dword) : State :=
  let s1 := s.tokenNow (s.grp r.gid).ctx 5 core (.group r.gid) none
  (s1.onCore core fun k => { k with dqReqs := k.dqReqs.erase r }).onGrp r.gid fun x => { x with wait := { code := 13, cond := .handed a b } }

/-- The bottom operation of a deque cycle that starts with n entries: pushes and pops at the end of the list (R72). -/
def State.dqDoBottom (s : State) (core n : Nat) (r : DqReq) : State :=
  let k := s.core core
  if r.op = 0 then
    if 1024 ≤ n then s.dqServe core r 1 0
    else (s.setCore core { k with deque := k.deque ++ [r.val] }).dqServe core r 0 0
  else match k.deque.getLast? with
    | none => s.dqServe core r 0 1
    | some v => (s.setCore core { k with deque := k.deque.dropLast }).dqServe core r v 0

/-- The top operation: a steal from the head of the list; the thief loses the last entry to a pop of the same cycle, and a deque
that its context does not hold gives EMPTY (R71, R72). -/
def State.dqDoTop (s : State) (core n : Nat) (popped : Bool) (r : DqReq) : State :=
  let k := s.core core
  if k.dqHolder ≠ some (s.grp r.gid).ctx || (n = 1 && popped) then s.dqServe core r 0 1
  else match k.deque with
    | [] => s.dqServe core r 0 1
    | v :: l => (s.setCore core { k with deque := l }).dqServe core r v 0

/-- Request a is served before b at one side of a deque: by arrival, and among those of one cycle a bottom request of scheduler 0 first, a
steal by its thief's core and slot (R73). -/
def DqReq.first (top : Bool) (a b : DqReq) : Bool :=
  decide (a.since < b.since) || (a.since == b.since &&
    (if top then decide (a.gid < b.gid) else decide (slotOf a.gid / 12 < slotOf b.gid / 12)))

/-- The request of a side that is served next; in replay, at its token (R73, R392). -/
def State.dqNext (s : State) (core : Nat) (top : Bool) : Option DqReq :=
  ((s.core core).dqReqs.filter fun r => (r.op == 2) == top && s.tokenReady r.gid 5 core none).foldl (fun (o : Option DqReq) r => match o with
    | none => some r
    | some q => if r.first top q then some r else some q) none

/-- One deque cycle (R72, R73). -/
def State.dqCycle (s : State) (core : Nat) : State :=
  let n := (s.core core).deque.length
  let bot := s.dqNext core false
  let s1 := match bot with
    | some r => s.dqDoBottom core n r
    | none => s
  match s1.dqNext core true with
  | some r => s1.dqDoTop core n (bot.any (·.op == 1)) r
  | none => s1

/-- DEQUE_SERVICE (R72). -/
def execDequeService (core : Nat) (s : State) : Host.Outcome State Fault Refusal :=
  if 768 ≤ core then .fault .noSuchUnit else .next (s.dqCycle core)

end Sys2Proof.Machine
end

