-- ==== Sys2Proof/Machine/Guard.lean ====
section
/-! DEFINITION. Doublewords read as 64-bit LD would (R172, R199, R294); bound registers (R302, R303, R464, R465): TBSET and TBCLR;
debug output (R344, R388, R389, R443, R540): RMARK and DMBOX. -/

namespace Sys2Proof.Machine

/-- n doublewords from an address on in one page, read by the current group as 64-bit LD would read them: from the mapping table
of its core, or with the checks of an access. -/
def readDws (t : State) (va : Dword) (n : Nat) : Eff ⊕ (List Byte × State) :=
  match t.mapSlot? t.cur va with
  | some (k, d) =>
    match t.watchAt t.cur false true false (8 * n) [va] with
    | some w => .inl (watchEff t w)
    | none => .inr ((List.range n).flatMap fun i =>
        let e := SMap.look (t.core (coreOf t.cur)).maps (k + (d + i) / 2) ((0, 0) : Dword × Dword)
        leBytes 8 (if (d + i) % 2 = 0 then e.1 else e.2).toNat, t)
  | none =>
    match queuePlaces [(.r, true, 8 * n, va)] t with
    | .inl e => .inl e
    | .inr (ls, t1) => loadDws t1 (ls.headD 0) va n

/-- A bound register set at the home of its context's registers, as acq_rel at PKG scope (R465). -/
def State.setBound (s : State) (n : Nat) (b : Bound) : State :=
  let c := s.me.ctx
  let s1 := s.releaseWide.tokenNow c 2 (boundLoc c) (.group s.cur) none
  (s1.onCtx c fun x => { x with bounds := vset x.bounds n b }).acquireWide s.cur

/-- TBSET and TBCLR wait for the group's earlier accesses, and in replay for their token (R465). -/
def boundWait (t : State) : Option Eff :=
  if !t.me.flights.isEmpty then some (.park 31 .quiet t)
  else if !(t.tokenReady t.cur 2 (boundLoc t.me.ctx) none) then some (.park 24 .replay t)
  else none

/-- TBSET (R464, R465). -/
def execTbset (x : Pre) (d a : Reg) (s : State) : Host.Outcome State Fault Refusal :=
  issue x (opStop (wordR x 0x37 0 d a 0) [⟨.d, .bd, .wr, d⟩, ⟨.a, .s, .rd, a⟩] (some 1)) (fun r t =>
    let va := t.readS r.a
    if va.toNat % 32 ≠ 0 then .trap 4 va t
    else if t.me.orderWait then .park 31 .order t
    else match readDws t va 4 with
      | .inl e => e
      | .inr (b, t1) =>
        if fieldAt b 0x1B 1 ≠ 0 && boundRefused b then .trap 9 va t1
        else match boundWait t1 with
          | some e => e
          | none => .next (t1.setBound r.d.toNat (if fieldAt b 0x1B 1 = 0 then Bound.clear else boundOf b))) s

/-- TBCLR (R464, R465). -/
def execTbclr (x : Pre) (d : Reg) (s : State) : Host.Outcome State Fault Refusal :=
  issue x (opStop (wordR x 0x37 1 d 0 0) [⟨.d, .bd, .wr, d⟩] (some 1)) (fun r t =>
    match boundWait t with
    | some e => e
    | none => .next (t.setBound r.d.toNat Bound.clear)) s

/-- A USER record: written in a recording, consumed in a replay (R443). -/
def State.userRec (s : State) (v : Dword) : State :=
  let c := s.me.ctx
  match s.replaying? c with
  | none => s.grpRec s.cur 0x0C 16 [(64, 64, v.toNat)]
  | some (t, k) =>
    match takeRec (recIs 0x0C s.cur) (s.sess t k).log with
    | some (_, l) => s.onSess t k fun y => { y with log := l }
    | none => s

/-- RMARK (R443). -/
def execRmark (x : Pre) (b : Reg) (s : State) : Host.Outcome State Fault Refusal :=
  issue x (opStop (wordR x 0x38 1 0 0 b) [⟨.b, .s, .rd, b⟩] none) (fun r t => .next (t.userRec (t.srcS x r.b))) s

/-- A message of DMBOX, by its KIND (R388, R389). -/
def mailbox (m : Vector Dword 8) (t : State) : Eff :=
  let c := t.me.ctx
  let m0 := vat m 0 0
  let kind := dbits m0 7 0
  let core := dbits m0 25 16
  if kind ≠ 1 && !(kind = 2 && decide (core ≤ 767)) then queueTrap 9 t
  else if (t.ctx c).encl && !(t.ctx c).policy.getLsbD 2 then queueTrap 10 t
  else if kind = 1 then
    let r := withBits (withBits m0 25 16 (coreOf t.cur)) 31 26 c
    match t.debugMsg (t.ctx c).tenant (msgBytes (vset m 0 r).toList) with
    | some t1 => .next t1
    | none => .park 31 .debugRing t
  else
    .next (t.onCore core fun k =>
      { k with dbg := k.dbg ++ [{ msg := m, host := false, tenant := (t.ctx c).tenant, ctx := c, waiting := [], begun := false }] })

/-- DMBOX (R388, R389). -/
def execDmbox (x : Pre) (a : Reg) (s : State) : Host.Outcome State Fault Refusal :=
  issue x (opStop (wordR x 0x38 2 0 a 0) [⟨.a, .s, .rd, a⟩] none) (fun r t =>
    let va := t.readS r.a
    if va.toNat % 64 ≠ 0 then .trap 4 va t
    else if t.me.orderWait then .park 31 .order t
    else match readDws t va 8 with
      | .inl e => e
      | .inr (b, t1) => mailbox (Vector.ofFn fun i => BitVec.ofNat 64 (fieldAt b (8 * i.val) 8)) t1) s

end Sys2Proof.Machine
end

