-- ==== Sys2Proof/Machine/Save.lean ====
section
/-! DEFINITION. Leaving a core and coming back: stops at boundaries (R50, R284), the save area and its image (R278, R286), and the
return of crews (R285). -/

namespace Sys2Proof.Machine

/-! ### Stopping -/

/-- In replay, group g stands at the recorded position of a stop with event code evt; when the log has no such stop left it may stop at
once, and diverges (R328, R329). -/
def State.stopReady (s : State) (g evt : Nat) : Bool :=
  match s.replaying? (s.grp g).ctx with
  | none => true
  | some (t, k) => !((s.sess t k).log.any fun r => recIs 0x05 g r && recField r 27 4 == evt) || (s.traptDue g (· == evt)).isSome

/-- Group g stops at a boundary (R50, R284 steps 1 and 2): a run-ahead is undone, its outstanding accesses are performed, and the stop
is logged before its chunk ends with code 9 (R324). -/
def State.stopGroup (s : State) (g evt : Nat) : State :=
  let s1 := (s.unrun g).drain g
  if !(s1.grp g).flights.isEmpty || (s1.grp g).leaving then s1.onGrp g fun x => { x with leaving := true }
  else ((s1.trapt g evt 0 0).endChunk g 9).onGrp g fun x => { x with leaving := true }

/-- The group has stopped: it is leaving and nothing of it is outstanding. -/
def State.stopped (s : State) (g : Nat) : Bool := (s.grp g).leaving && (s.grp g).flights.isEmpty

/-- The wait of a group that leaves: one whose bundle the group executes again from its start on return is dropped (R285). -/
def Cond.kept (c : Cond) : Bool :=
  match c with
  | .tiles _ _ _ => false
  | .walk => false
  | .slots _ => false
  | .caps _ _ => false
  | .deque => false
  | .fetch => false
  | .engineRoom _ => false
  | .barrierFree _ => false
  | .sync _ _ => false
  | .word _ _ _ => false
  | _ => true

/-- A number's new name. -/
def rename (a b n : Nat) : Nat := if n = a then b else n

/-- Every mention of group number a becomes b (the model's numbering). -/
def State.renameGrp (s : State) (a b : Nat) : State :=
  let x := s.grp a
  let s1 := (s.setGrp a Group.idle).setGrp b x
  { s1 with
    cores := SMap.mapAll (fun (k : Core) => {
      k with
      cmds := k.cmds.map fun (q : Cmd) => { q with gid := rename a b q.gid }, dqReqs := k.dqReqs.filter fun r => r.gid != a
      dbg := k.dbg.map fun (d : DbgCmd) => { d with waiting := d.waiting.map (rename a b) } }) Core.idle s1.cores
    ctxs := SMap.mapAll (fun (c : Ctx) =>
      { c with collAway := c.collAway.map fun p => (p.1, { p.2 with gid := rename a b p.2.gid }) }) Ctx.none s1.ctxs
    clusters := SMap.mapAll (fun (k : Cluster) =>
      { k with walks := k.walks.map fun (w : Walk) => { w with gids := w.gids.filter (· != a) } }) Cluster.empty s1.clusters
    hub := {
      s1.hub with
      queueReqs := s1.hub.queueReqs.map fun (r : QueueReq) => { r with gid := rename a b r.gid }
      faults := s1.hub.faults.map fun (f : Nat × FaultRec) => (f.1, { f.2 with gids := f.2.gids.map (rename a b) })
      crews := s1.hub.crews.map fun (w : Nat × Crew) => (w.1, { w.2 with gids := w.2.gids.map (rename a b) }) } }

/-- A number for a group that is away. -/
def State.awayNumber (s : State) : Nat := s.groups.foldl (fun n e => max n (e.1 + 1)) (2 ^ 15)

/-- A stopped group goes away from its slot; a step whose bundle has not issued is cancelled (R343). -/
def State.groupAway (s : State) (g : Nat) : State :=
  let n := s.awayNumber
  (s.renameGrp g n).onGrp n fun x => let early := match x.wait.cond with
      | .ready => x.step.isSome
      | .marker => x.step.isSome
      | _ => false
    {
    x with
    halted := x.halted || early, step := if early then none else x.step, leaving := false, walked := []
    wait := if x.wait.cond.kept then x.wait else Wait.none }

/-! ### The save area -/

/-- The virtual address of a slot of a context's save area (R278). -/
def State.slotVa (s : State) (c slot : Nat) : Dword := (s.ctx c).saveb + BitVec.ofNat 64 (slot * 2 ^ 20)

/-- The sixteen pages of a slot: their locations, or the first that is missing, or none when one may not be used (R278, R284). -/
def State.savePages (s : State) (c slot : Nat) (acc : Acc) : Nat → (Option Dword ⊕ List Nat) × State
  | 0 => (.inr [], s)
  | n + 1 =>
    match s.savePages c slot acc n with
    | (.inl r, s1) => (.inl r, s1)
    | (.inr ls, s1) =>
      let va := s1.slotVa c slot + BitVec.ofNat 64 (65536 * n)
      match s1.devSpot c va acc with
      | (.loc l _ _, s2) => if isLocal l && decide (s2.fmtAt l = .p) then (.inr (ls ++ [l]), s2) else (.inl none, s2)
      | (.park _, s2) => (.inl (some va), s2)
      | (_, s2) => (.inl none, s2)

/-- The location of byte o of a slot. -/
def State.imageLoc (s : State) (pages : List Nat) (o : Nat) : Nat := s.locPlus (nth pages (o / 65536) 0) (o % 65536)

/-- Bytes of a slot written from offset o on, page by page (R295). -/
def State.imageWrite (s : State) (pages : List Nat) (o : Nat) (b : List Byte) : State :=
  ((List.range 16).filter fun p => decide (o < 65536 * (p + 1)) && decide (65536 * p < o + b.length)).foldl (fun st p =>
    let lo := max o (65536 * p)
    st.devWriteRow (st.imageLoc pages lo) ((b.drop (lo - o)).take (65536 * (p + 1) - lo))) s

/-- n doublewords of a slot of context c read by a core from offset o on; a poisoned sector marks the context for termination (R293, R294, log
entry 85). -/
def State.imageRead (s : State) (c core : Nat) (pages : List Nat) (o : Nat) : Nat → List Byte × State
  | 0 => ([], s)
  | n + 1 =>
    let (b, s1) := s.imageRead c core pages o n
    let l := s1.imageLoc pages (o + 8 * n)
    let (r, s2) := s1.readSector l c (((s1.ctx c).saveb.toNat + o + 8 * n)) (.core core)
    (b ++ leBytes 8 (Memory.le s2.mem l 8), if r = .poison then s2.doom c 4 else s2)

/-- A list cut or filled with zeros to n bytes. -/
def padTo (n : Nat) (b : List Byte) : List Byte := b.take n ++ List.replicate (n - b.length) 0

/-- Groups of a core's crews, in the order of their records. -/
def crewGids (ws : List (Nat × Crew)) : List Nat := ws.flatMap fun w => w.2.gids

/-- Running sums of a list, from n on. -/
def offsets (n : Nat) : List Nat → List Nat
  | [] => []
  | a :: l => n :: offsets (n + a) l

/-- A bin or launch-buffer entry of the image (R286); `start` holds the elapsed count. -/
def binBytes (b : Bin) : List Byte :=
  leBytes 8 b.entry.toNat ++ leBytes 1 b.args.length ++ leBytes 3 0 ++ leBytes 4 b.start.toNat ++
    padTo 128 (b.args.flatMap fun v => leBytes 4 v.toNat) ++ leBytes 16 0

/-- The COLL commands that leave a core with crews: those of their groups, and those that an ended group left on their tiles (R235). -/
def collOf (c : Nat) (ws : List (Nat × Crew)) (q : Cmd) : Bool :=
  decide (q.op = .coll) && q.ctx == c && ((crewGids ws).contains q.gid || (decide (2 ^ 20 ≤ q.gid) && q.tiles.any fun x =>
    ws.any fun w => w.2.core == x / 128 && decide (w.2.tile ≤ x % 128) && decide (x % 128 < w.2.tile + w.2.tiles)))

/-- A tile of a core belongs to one of its crews. -/
def tileOfCrews (ws : List (Nat × Crew)) (t : Nat) : Bool := ws.any fun w => decide (w.2.tile ≤ t) && decide (t < w.2.tile + w.2.tiles)

/-- The header of an image (R286), 4 KiB. An eviction's holds only what is the unit's: its crews, the owner states of their tiles, the mapping
entries and the COLL commands on them. -/
def State.imageHead (s : State) (core c kind : Nat) (ws : List (Nat × Crew)) : List Byte :=
  let k := s.core core
  let gs := crewGids ws
  let firsts := offsets 0 (ws.map fun w => w.2.gids.length)
  let bins := if kind = 0 then k.bins.filter (·.ctx == c) else []
  let dq := if kind = 0 && k.dqHolder == some c then k.deque.length else 0
  let coll := (s.ctx c).collAway.filter fun p => p.1 == core && collOf c ws p.2
  padTo 16 (leBytes 4 0x5A376853 ++ leBytes 2 1 ++ leBytes 1 kind ++ leBytes 1 0 ++ leBytes 2 core ++ leBytes 1 ws.length ++
    leBytes 1 gs.length ++ leBytes 1 (clsCode k.format) ++ leBytes 1 bins.length ++ leBytes 2 dq) ++
  padTo 192 ((ws.zip firsts).flatMap fun w => leBytes 4 w.1.2.scrw ++ leBytes 1 w.1.2.tile ++ leBytes 1 w.1.2.tiles ++
    leBytes 1 w.1.2.gids.length ++ leBytes 1 w.2) ++
  packBits 64 (fun i =>
    let t := s.tile core (i / 4)
    t.held && t.ctx == c && (kind == 0 || tileOfCrews ws (i / 4)) && t.owner.testBit (i % 4)) ++
  ((List.range 64).flatMap fun o =>
    let b := s.obj core o
    leBytes 8 (if kind = 0 && b.held && b.ctx == c then b.expect + b.arrived * 2 ^ 16 + b.gen * 2 ^ 32 + b.ctx * 2 ^ 48 + 2 ^ 54 else 0)) ++
  padTo 240 ((List.range 8).flatMap fun i =>
    let e := SMap.look k.maps i ((0, 0) : Dword × Dword)
    if mapCtx e == c && (kind == 0 || tileOfCrews ws (mapTile e)) then leBytes 8 e.1.toNat ++ leBytes 8 e.2.toNat else leBytes 16 0) ++
  padTo 3072 (coll.flatMap fun p => leBytes 8 p.2.a.toNat ++ leBytes 8 p.2.b.toNat ++ leBytes 8 p.2.e.toNat ++ leBytes 2 p.2.batch ++
    leBytes 1 (gs.idxOf p.2.gid) ++ leBytes 1 p.2.phase ++ leBytes 36 0)

/-- The parts of an image but its scratchpad tiles, as offset and bytes, with zeros behind it (R4, R286); an eviction leaves the deque and bin
regions unwritten. The bytes of the bin region that no rule describes hold the context's bin configurations (log entry 28). -/
def State.imageParts (s : State) (core c kind : Nat) (ws : List (Nat × Crew)) : List (Nat × List Byte) :=
  let k := s.core core
  let gs := (crewGids ws).map s.grp
  let vo := offsets 0 (gs.map (·.av))
  let so := offsets 0 (gs.map (·.as))
  let bins := (k.bins.filter (·.ctx == c)).map fun b => { b with start := (k.cycles : Int) - b.start }
  let buf := (k.buffer.filter (·.ctx == c)).map fun b => { b with start := (k.cycles : Int) - b.start }
  let cfg := k.binCfg.filter (·.1 == c)
  [(0, s.imageHead core c kind ws),
   (0x1000, padTo 24576 (((crewGids ws).zip (vo.zip so)).flatMap fun g =>
     padTo 1024 (groupRecord (s.grp g.1) g.2.1 g.2.2 (s.waitOperand g.1)))),
   (0x7000, padTo 73728 (gs.flatMap fileBytes)), (0x19000, padTo 262144 (gs.flatMap vregBytes)), (0x59000, padTo 8192 (gs.flatMap sregBytes))] ++
  (if kind = 0 then
    [(0x5B000, padTo 8192 (if k.dqHolder = some c then k.deque.flatMap fun v => leBytes 8 v.toNat else [])),
     (0x5D000, padTo 4096 (padTo 2560 ((bins.take 16).flatMap binBytes) ++ padTo 640 (buf.flatMap binBytes) ++
       cfg.flatMap fun p => leBytes 8 p.2.1.toNat ++ leBytes 8 p.2.2.toNat))] else []) ++ 
  [(0x5E000 + usable k.format, List.replicate (2 ^ 20 - 0x5E000 - usable k.format) 0)]

/-- The tiles of a core that its leaving crews hold are moved into the image, the others are zeros there (R286, R294, R298). -/
def State.imageTiles (s : State) (core c : Nat) (ws : List (Nat × Crew)) (pages : List Nat) : State :=
  (List.range (usable (s.core core).format / 4096)).foldl (fun st t =>
    let o := 0x5E000 + 4096 * t
    if tileOfCrews ws t then st.moveData c 0 (.core core) (spadLoc core (4096 * t)) (st.imageLoc pages o) 4096
    else st.imageWrite pages o (List.replicate 4096 0)) s

/-- A command of the crews' groups on a core that has to complete before they leave: any but COLL (R235). -/
def State.cmdsHold (s : State) (gs : List Nat) : Bool :=
  s.cores.any fun k => k.2.cmds.any fun q => decide (q.op ≠ .coll) && gs.contains q.gid

/-- COLL commands stop with the crews that leave, in the phase in which they are (R235). -/
def State.collStop (s : State) (core c : Nat) (ws : List (Nat × Crew)) : State :=
  let mine := (s.core core).cmds.filter (collOf c ws)
  (s.onCore core fun k => { k with cmds := k.cmds.filter fun q => !(collOf c ws q) }).onCtx c fun x =>
    { x with collAway := x.collAway ++ mine.map fun q => (core, q) }

/-- Bins and launch-buffer entries of a context leave a core with it (R70). -/
def State.binsLeave (s : State) (core c : Nat) : State :=
  let k := s.core core
  let out := fun (buf : Bool) (l : List Bin) => (l.filter (·.ctx == c)).map fun b => (core, buf, { b with start := (k.cycles : Int) - b.start })
  (s.setCore core { k with bins := k.bins.filter (·.ctx != c), buffer := k.buffer.filter (·.ctx != c) }).onCtx c fun x =>
    { x with binsAway := x.binsAway ++ out false k.bins ++ out true k.buffer }

/-- The lowest number from n on that no bin of the core has. -/
def Core.numberFrom (k : Core) (n : Nat) : Nat := ((List.range (k.bins.length + 1)).find? fun i => !(k.bins.any (·.index == n + i))).getD 0 + n

/-- A bin or launch-buffer entry comes back to a core: an open bin whose number is in use takes a free one; with all sixteen in use it closes as
a displaced one does, and what finds the buffer full waits, closed, for an entry of it (R66, R69, R70, log entry 86). -/
def Core.binBack (k : Core) (buffered : Bool) (b : Bin) : Core :=
  let x := { b with start := (k.cycles : Int) - b.start }
  if buffered then
    if k.buffer.length < 4 then { k with buffer := k.buffer ++ [x] }
    else { k with bins := k.bins ++ [{ x with closing := max 1 x.closing, index := k.numberFrom 16 }] }
  else if !(k.bins.any (·.index == x.index)) then { k with bins := k.bins ++ [x] }
  else match k.freeBin with
    | some i => { k with bins := k.bins ++ [{ x with index := i }] }
    | none => Core.moveBins { k with bins := k.bins ++ [{ x with
        closing := if x.closing = 0 then 4 else x.closing, cfg := if x.closing = 0 then (k.cfgOf x.ctx x.entry).getD 0 else x.cfg
        index := k.numberFrom 16 }] } 1

/-- The bins and launch-buffer entries of a context come back with it to a core (R70); a displaced one is logged. -/
def State.binsReturn (s : State) (core c : Nat) : State :=
  let mine := (s.ctx c).binsAway.filter (·.1 == core)
  (mine.foldl (fun st p =>
      let k := st.core core
      let out := !p.2.1 && p.2.2.closing == 0 && k.bins.any (·.index == p.2.2.index) && k.freeBin.isNone
      let st1 := st.setCore core (k.binBack p.2.1 p.2.2)
      if out then st1.spawnRec core c (p.2.2.index % 16) 3 p.2.2.args.length else st1) s).onCtx c fun x =>
    { x with binsAway := x.binsAway.filter (·.1 != core) }

/-- The tiles of a crew given up without a trace on mapping entries that still stand for other tiles. -/
def State.crewGone (s : State) (w : Nat) (x : Crew) (away slot first : Nat) : State :=
  (x.gids.foldl State.groupAway s).onHub fun h =>
    { h with crews := h.crews.map fun (e : Nat × Crew) => if e.1 = w then (e.1, { e.2 with away := away, slot := slot, first := first }) else e }

/-- Crews of a context leave a core into a save-area slot whose pages are at hand (R284 steps 4 and 5): away is 1 for a pre-emption, 2
for an eviction. -/
def State.leaveWith (s : State) (core c away slot : Nat) (ws : List (Nat × Crew)) (pages : List Nat) : State :=
  let kind := away - 1
  let s0 := s.collStop core c ws
  let s1 := ((s0.imageParts core c kind ws).foldl (fun st p => st.imageWrite pages p.1 p.2) s0).imageTiles core c ws pages
  let firsts := offsets 0 (ws.map fun w => w.2.gids.length)
  let s2 := (ws.zip firsts).foldl (fun st w => st.crewGone w.1.1 w.1.2 away slot w.2) s1
  let s3 := if s2.residentCrew core c then s2 else (if away = 1 then s2.binsLeave core c else s2).leaveCore core c
  ws.foldl (fun st w => st.freeTiles w.2) s3

/-! ### Coming back -/

/-- The lowest free slot of the issue scheduler with more free slots (R60). -/
def State.freeSlot (s : State) (core : Nat) : Option Nat :=
  let free := fun (n : Nat) => (List.range 12).filter fun i => !((s.grp (24 * core + 12 * n + i)).used)
  if (free 0).length < (free 1).length then (free 1).head?.map fun i => 24 * core + 12 + i
  else (free 0).head?.map fun i => 24 * core + i

/-- A group that is away takes a slot and goes on from its image (R285, R286). -/
def State.groupBack (s : State) (g slot : Nat) (spad : Dword) (r vr sr fr : List Byte) : State :=
  (s.renameGrp g slot).onGrp slot fun x => { groupFrom x r vr sr fr with spad := spad, age := (s.core (coreOf slot)).cycles }

/-- A tile as it is allocated: no byte of it, no poison and no error is left (R189). -/
def State.tileFresh (s : State) (core t c w owner : Nat) : State :=
  let l := spadLoc core (4096 * t)
  let inside := fun (k : Nat) => decide (l / 64 ≤ k) && decide (k < l / 64 + 64)
  ((s.setTile core t { held := true, crew := w, ctx := c, owner := owner }).setMem (s.mem.filter fun e => !(decide (l ≤ e.1) && decide (e.1 < l + 4096)))).onHub
    fun h => { h with poison := h.poison.filter fun k => !inside k, marks := h.marks.filter fun (e : Nat × Nat) => !inside e.1 }

/-- The tiles of a crew with their saved bytes, poison with them, and their owner states (R190, R285, R294). -/
def State.tilesBack (s : State) (pages : List Nat) (core c w at_ : Nat) (x : Crew) : State :=
  let (owners, s1) := s.imageRead c core pages 0xD0 8
  (List.range x.tiles).foldl (fun st i =>
    let b := (nth owners ((x.tile + i) / 2) 0).toNat
    (st.tileFresh core (at_ + i) c w (if (x.tile + i) % 2 = 0 then b % 16 else b / 16)).moveData c 0 (.core core)
      (st.imageLoc pages (0x5E000 + (x.tile + i) * 4096)) (spadLoc core ((at_ + i) * 4096)) 4096) s1

/-- The free run of n tiles at tile t of a core. -/
def State.tilesFree (s : State) (core t n : Nat) : Bool := (List.range n).all fun i => !((s.tile core (t + i)).held)

/-- A crew that is away comes back to a core at tile at_, from a save-area slot whose pages are at hand. -/
def State.crewBack (s : State) (w core at_ : Nat) (x : Crew) (pages : List Nat) : State :=
  let c := x.ctx
  let spad := BitVec.ofNat 64 (core % 64 * 2 ^ 19 + at_ * 4096)
  let s1 := (s.joinCore core c).tilesBack pages core c w at_ x
  let s2 := x.gids.zipIdx.foldl (fun st p =>
    match st.freeSlot core with
    | none => st
    | some slot =>
      let (r, st1) := st.imageRead c core pages (0x1000 + 1024 * (x.first + p.2)) 128
      let (vr, st2) := st1.imageRead c core pages (0x19000 + 128 * fieldAt r 0xA0 4) (16 * x.vregs)
      let (sr, st3) := st2.imageRead c core pages (0x59000 + 8 * fieldAt r 0xA4 4) x.sregs
      let (fr, st4) := st3.imageRead c core pages (0x7000 + 3072 * (x.first + p.2)) 384
      st4.groupBack p.1 slot spad r vr sr fr) s1
  match s2.crew? w with
  | none => s2
  | some y =>
    let gs := y.gids
    let s3 := (s2.setCrew w { y with away := 0, core := core, tile := at_ }).mapsReturn core c at_ x.tiles
    let mine := (s3.ctx c).collAway.filter fun p => collOf c [(w, y)] p.2
    let s4 := mine.foldl (fun st p => st.onCore core fun k => { k with cmds := k.cmds ++ [{ p.2 with id := k.nextCmd }], nextCmd := k.nextCmd + 1 }) s3
    let s5 := s4.onCtx c fun z => { z with collAway := z.collAway.filter fun p => !(collOf c [(w, y)] p.2) }
    (s5.hub.queueReqs.filter fun r => gs.contains r.gid).foldl (fun st r => st.serve r.queue) s5

end Sys2Proof.Machine
end

