-- ==== Sys2Proof/Machine/Place.lean ====
section
/-! DEFINITION. The dispatcher's placement pass (R57 to R65, R69, R279, R285, R328) and progress eviction (R49). -/

namespace Sys2Proof.Machine

/-! ### What fits -/

/-- What a crew asks of a core (R57). -/
structure CrewNeed where
  ctx : Nat
  groups : Nat
  vregs : Nat
  sregs : Nat
  tiles : Nat
  cls : Cls
  deriving DecidableEq, Repr

/-- Vector and scalar registers allocated on a core. -/
def State.vregsUsed (s : State) (core : Nat) : Nat := (s.gidsOn core).foldl (fun n g => n + (s.grp g).av) 0
def State.sregsUsed (s : State) (core : Nat) : Nat := (s.gidsOn core).foldl (fun n g => n + (s.grp g).as) 0

/-- Free group slots of a core: none on an unavailable one (R9). -/
def State.freeSlots (s : State) (core : Nat) : Nat := if (s.core core).unavailable then 0 else 24 - (s.gidsOn core).length

/-- The lowest run of n free tiles of a core below the usable size of a class (R189). -/
def State.tileRun (s : State) (core n : Nat) (cls : Cls) : Option Nat :=
  (List.range (usable cls / 4096 + 1 - n)).find? fun t => s.tilesFree core t n

/-- A core has no scratchpad allocation. -/
def Core.bare (k : Core) : Bool := !(k.tiles.any fun (e : Nat × Tile) => e.2.held)

/-- Ordinals that a context still has (R279). -/
def State.ordinalsFree (s : State) (c : Nat) : Nat := 32768 - (s.gidsCtx c).length

/-- Slots, registers, class and residency suffice on a core, for a crew whose tiles may go to the run at `at_` (R57 to R59). -/
def State.crewFits (s : State) (core : Nat) (n : CrewNeed) (at_ : Option Nat) : Bool :=
  let k := s.core core
  decide (core < 768) && !k.unavailable && decide (n.groups ≤ s.freeSlots core) && decide (s.vregsUsed core + n.groups * n.vregs ≤ 2048) &&
  decide (s.sregsUsed core + n.groups * n.sregs ≤ 1024) &&
  (n.tiles == 0 || (at_.isSome && (k.bare || decide (k.format = n.cls)))) &&
  ((List.range 4).any fun i => match vat k.resident i none with
    | none => true
    | some c => c == n.ctx)

/-- A context that left this core by pre-emption places nothing there before it returns (R285, log entry 40). -/
def State.heldOff (s : State) (core c : Nat) : Bool :=
  s.hub.crews.any fun e => e.2.ctx == c && e.2.core == core && (e.2.away == 1 || e.2.away == 3)

/-- A core that holds no allocation takes the crew's class, with every row zero (R58, R189). -/
def State.setFormat (s : State) (core : Nat) (n : CrewNeed) : State :=
  let k := s.core core
  if n.tiles = 0 || !k.bare || k.format = n.cls then s else
    let l := spadLoc core 0
    let inside := fun (a : Nat) => decide (l / 64 ≤ a) && decide (a < l / 64 + 8192)
    ((s.setCore core { k with format := n.cls }).setMem (s.mem.filter fun e => !(decide (l ≤ e.1) && decide (e.1 < l + 2 ^ 19)))).onHub fun h =>
      { h with poison := h.poison.filter fun a => !inside a, marks := h.marks.filter fun (e : Nat × Nat) => !inside e.1 }

/-! ### Placing a crew -/

/-- What every group of a new crew starts with. -/
structure CrewStart where
  entry : Dword
  arg : Dword
  scrw : Nat
  sx : List Nat
  live : Word
  v0 : Lanes
  launch : Option Nat
  unit : Nat
  runahead : Bool
  weight : Nat
  /-- the groups start after an acquire at PKG scope: they are those of a LAUNCH (R220) -/
  acq : Bool
  deriving DecidableEq, Repr

/-- The lowest ordinal that no unended group of a context holds (R279). -/
def State.ordinal (s : State) (c : Nat) : Nat :=
  let used := (s.gidsCtx c).map fun g => (s.grp g).ordinal
  ((List.range (used.length + 1)).find? fun n => !used.contains n).getD 0

/-- One group of a new crew takes its slot (R21, R40, R60, R81, R279). -/
def State.newGroup (s : State) (core w i : Nat) (n : CrewNeed) (b : CrewStart) (spad : Dword) : State :=
  match s.freeSlot core with
  | none => s
  | some g =>
    let x : Group := {
      Group.idle with
      used := true, ctx := n.ctx, crew := w, index := i, scrw := BitVec.ofNat 32 b.scrw
      sx := Vector.ofFn fun j => BitVec.ofNat 64 (if j.val = 0 then i else nth b.sx j.val 0)
      arg := b.arg, spad := spad, ordinal := s.ordinal n.ctx, pc := b.entry, em := b.live, live := b.live, av := n.vregs, as := n.sregs
      vregs := SMap.put [] 0 b.v0 Lanes.zero, age := (s.core core).cycles }
    let s1 := s.setGrp g x
    match s1.crew? w with
    | none => s1
    | some y => s1.setCrew w { y with gids := y.gids ++ [g] }

/-- A PLACE record, written or consumed (R316, R323, R324). -/
def State.placeRec (s : State) (c no core scrw : Nat) : State :=
  match s.session? c with
  | none => s
  | some (t, k) =>
    if (s.sess t k).replay then
      match takeRec (fun r => recKind r == 0x07 && recField r 16 16 == no && recField r 64 32 == scrw && recField r 32 10 == core) (s.sess t k).log with
      | some (_, l) => s.onSess t k fun x => { x with log := l }
      | none => s
    else s.hubRec c 0x07 24 [(16, 16, no), (32, 10, core), (64, 32, scrw), (128, 48, (s.sess t k).ended (cluOf core))]

/-- A context is resident on a core (R59). -/
def State.residentOn (s : State) (core c : Nat) : Bool := (List.range 4).any fun i => vat (s.core core).resident i none == some c

/-- The acquire at PKG scope with which the groups of a LAUNCH start on a core, in a context that has just joined it or was there (R220). -/
def State.startAcquire (s : State) (core c : Nat) (joined : Bool) : State :=
  let s1 := s.invalidateAll (cluOf core)
  if joined then s1 else s1.refreshBounds core c none

/-- A new crew is placed on a core, when it fits (R57 to R60, R189, R220, R279). -/
def State.newCrew (s : State) (core no : Nat) (n : CrewNeed) (b : CrewStart) : Option State :=
  let run := s.tileRun core n.tiles n.cls
  if s.heldOff core n.ctx || !(s.crewFits core n run) || decide (s.ordinalsFree n.ctx < n.groups) then none
  else
    let at_ := if n.tiles = 0 then 0 else run.getD 0
    let w := s.hub.nextCrew
    let spad := BitVec.ofNat 64 (core % 64 * 2 ^ 19 + at_ * 4096)
    let s0 := s.joinCore core n.ctx
    let s1 := (if b.acq then s0.startAcquire core n.ctx (!s.residentOn core n.ctx) else s0).setFormat core n
    let s2 := (List.range n.tiles).foldl (fun st i => st.tileFresh core (at_ + i) n.ctx w 0) s1
    let x : Crew := {
      ctx := n.ctx, launch := b.launch, unit := b.unit, scrw := b.scrw, core := core, tile := at_, tiles := n.tiles, gids := []
      vregs := n.vregs, sregs := n.sregs, cls := n.cls, runahead := b.runahead, weight := b.weight, away := 0, slot := 0, first := 0 }
    let s3 := s2.onHub fun h => { h with crews := SMap.ins h.crews w x, nextCrew := h.nextCrew + 1 }
    some (((List.range n.groups).foldl (fun st i => st.newGroup core w i n b spad) s3).placeRec n.ctx no core b.scrw)

/-- Room for a crew that is away on a core: its own tiles when it must keep them (R285). -/
def State.backAt (s : State) (core : Nat) (x : Crew) (same : Bool) : Option Nat :=
  let n : CrewNeed := { ctx := x.ctx, groups := x.gids.length, vregs := x.vregs, sregs := x.sregs, tiles := x.tiles, cls := x.cls }
  let run := if same then (if s.tilesFree core x.tile x.tiles then some x.tile else none) else s.tileRun core x.tiles x.cls
  if s.crewFits core n run then some (if x.tiles = 0 then x.tile else run.getD 0) else none

/-- A crew that is away is placed again from its save-area slot; a page that is missing or unusable is filed, or ends its context
(R284, R285). -/
def State.crewAgain (s : State) (w core : Nat) (x : Crew) (same : Bool) : Option State :=
  match s.backAt core x same with
  | none => none
  | some at_ =>
    match s.savePages x.ctx x.slot .r 16 with
    | (.inr pages, s1) =>
      let n : CrewNeed := { ctx := x.ctx, groups := x.gids.length, vregs := x.vregs, sregs := x.sregs, tiles := x.tiles, cls := x.cls }
      some ((s1.setFormat core n).crewBack w core at_ x pages)
    | (.inl _, _) => none

/-! ### Units -/

/-- The range of cores of a launch. -/
def Launch.inRange (x : Launch) (core : Nat) : Bool := decide (x.cfirst ≤ core) && decide (core < x.cfirst + x.ccount)

/-- Cores of instance d of a launch's unit domain (R62). -/
def Launch.cores (x : Launch) (d : Nat) : List Nat :=
  match x.unitDomain with
  | 2 => [2 * d, 2 * d + 1]
  | 3 => (List.range 64).map (64 * d + ·)
  | _ => [d]

/-- Instances of a unit's domain that lie wholly inside the core range (R62). -/
def Launch.instances (x : Launch) : List Nat :=
  (List.range (match x.unitDomain with
    | 2 => 384
    | 3 => 12
    | _ => 768)).filter fun d => (x.cores d).all x.inRange

/-- The unit of the highest level with domain DIE that holds placement unit u (R63). -/
def Launch.dieUnit (x : Launch) (u : Nat) : Option Nat :=
  ((x.levels.zipIdx.filter fun p => p.1.domain == 4).map (·.2)).getLast?.map fun n => u / x.product (x.unitLevel + 1) n

/-- Instances eligible for unit u (R62, R63). -/
def Launch.eligible (x : Launch) (u : Nat) : List Nat :=
  match (x.dieUnit u).bind fun v => x.dies.find? (·.1 == v) with
  | some (_, die) => x.instances.filter fun d => dieOf ((x.cores d).headD 0) == die
  | none => x.instances

/-- Index of the level-n unit that holds a crew, in its parent (R40). -/
def Launch.sxOf (x : Launch) (scrw n : Nat) : Nat :=
  if n = 0 || x.levels.length ≤ n + 1 then 0 else scrw / x.product 2 n % x.extent (n + 1)

/-- What a crew of a launch asks of a core, and starts with. -/
def Launch.need (x : Launch) : CrewNeed :=
  { ctx := x.ctx, groups := x.groups, vregs := x.vregs, sregs := x.sregs, tiles := x.spad / 4096, cls := x.cls }
def Launch.start (x : Launch) (l u scrw : Nat) : CrewStart :=
  { entry := x.entry, arg := x.argp, scrw := scrw, sx := (List.range 8).map (x.sxOf scrw), live := BitVec.ofNat 32 (2 ^ x.extent 0 - 1)
    v0 := Lanes.zero, launch := some l, unit := u, runahead := x.runahead, weight := x.weight, acq := x.source.isNone }

/-- Crews of a unit of the highest level inside the placement unit whose domain is at most dom: they stay together (R30). -/
def Launch.block (x : Launch) (dom : Nat) : Nat :=
  x.product 2 (((List.range (x.unitLevel + 1)).filter fun n => decide (1 ≤ n) && (x.levels[n]?).any fun v => decide (v.domain ≤ dom)).foldl max 1)

/-- The core on which crew scrw of a launch lies. -/
def State.crewCore (s : State) (l scrw : Nat) : Option Nat :=
  (List.find? (fun (e : Nat × Crew) => e.2.launch == some l && e.2.scrw == scrw && e.2.away == 0) s.hub.crews).map (·.2.core)

/-- The core of a unit's range with the most free group slots, ties to the lowest (R62). -/
def State.emptiest (s : State) (x : Launch) (d : Nat) : Nat :=
  ((x.cores d).filter x.inRange).foldl (fun b c => if s.freeSlots b < s.freeSlots c then c else b) (64 * d)

/-- The core for crew i of unit u of launch l in instance d, its earlier crews placed: dealt as R62 says, by the CORE units that the crews
make up, and by the PAIR units in a cluster, since each lies wholly in one instance of its domain (R30, log entry 87). -/
def State.dealCore (s : State) (l : Nat) (x : Launch) (u d i : Nat) : Nat :=
  let kc := x.block 1
  let kp := x.block 2
  let at_ := fun n => (s.crewCore l (u * x.unitCrews + n)).getD (64 * d)
  match x.unitDomain with
  | 2 => 2 * d + i / kc % 2
  | 3 =>
    if i % kc ≠ 0 then at_ (i / kc * kc)
    else if kp = kc then s.emptiest x d
    else if i % kp ≠ 0 then at_ (i / kp * kp) / 2 * 2 + i % kp / kc % 2
    else s.emptiest x d / 2 * 2
  | _ => d

/-- The crew scrw of a launch that was evicted, with its number (R49). -/
def State.evictedCrew (s : State) (l scrw : Nat) : Option (Nat × Crew) :=
  List.find? (fun (e : Nat × Crew) => e.2.launch == some l && e.2.scrw == scrw && e.2.away == 2) s.hub.crews

/-- Crew scrw of unit u of launch l goes to a core: a new one, or one that was evicted (R49, R285). -/
def State.unitCrew (s : State) (l : Nat) (x : Launch) (u scrw core : Nat) : Option State :=
  match s.evictedCrew l scrw with
  | some (w, y) => (s.crewAgain w core y false).map fun t => t.placeRec x.ctx x.logNo core scrw
  | none => s.newCrew core x.logNo x.need (x.start l u scrw)

/-- The core that a replay's log gives a crew, once its cluster has ended enough chunks (R328 step 5). -/
def State.loggedCore (s : State) (x : Launch) (scrw : Nat) : Option Nat :=
  (s.replaying? x.ctx).bind fun (t, k) =>
    ((s.sess t k).log.find? fun r => recKind r == 0x07 && recField r 16 16 == x.logNo && recField r 64 32 == scrw).bind fun r =>
      let core := recField r 32 10
      let quiet := s.residentOn core x.ctx && x.source.isSome
      if recField r 128 48 ≤ (s.sess t k).ended (cluOf core) && (quiet || s.engReady x.ctx core 2 (boundLoc x.ctx)) then some core else none

/-- The first n crews of unit u in instance d, or in replay on their recorded cores: none when one does not fit. Of an evicted unit, crews that
had ended stay away. -/
def State.trial (s : State) (l : Nat) (x : Launch) (u : Nat) (d : Option Nat) : Nat → Option State
  | 0 => some s
  | n + 1 =>
    match s.trial l x u d n with
    | none => none
    | some t =>
      let scrw := u * x.unitCrews + n
      if x.evicted.contains u && (s.evictedCrew l scrw).isNone then some t
      else match d with
      | some i => t.unitCrew l x u scrw (t.dealCore l x u i n)
      | none => (t.loggedCore x scrw).bind fun core => t.unitCrew l x u scrw core

/-- Free group slots of an instance (R62). -/
def State.instSlots (s : State) (x : Launch) (d : Nat) : Nat := ((x.cores d).filter x.inRange).foldl (fun n c => n + s.freeSlots c) 0

/-- Launch a is reserved before launch x (R64). -/
def Launch.ahead (a x : Launch) : Bool := a.reserved != 0 && (x.reserved == 0 || decide (a.reserved < x.reserved))

/-- A core of the instance lies in the range of an earlier reserved launch (R61, R64). -/
def State.fenced (s : State) (x : Launch) (d : Nat) : Bool :=
  s.hub.launches.any fun e => e.2.ahead x && (x.cores d).any e.2.inRange

/-- The state with a unit placed, where one of its instances takes it (R61, R62): the lowest one for a launch admitted since the last
pass, else the one with most free slots. -/
def State.placeUnit (s : State) (l : Nat) (x : Launch) (u : Nat) : Option (Nat × State) :=
  if (s.replaying? x.ctx).isSome then
    (s.trial l x u none x.unitCrews).map fun t => (0, t)
  else
    let cs := (x.eligible u).filterMap fun d => if s.fenced x d then none else (s.trial l x u (some d) x.unitCrews).map fun t => (d, t)
    if x.fresh then cs.head?
    else cs.foldl (fun (b : Option (Nat × State)) c => match b with
      | none => some c
      | some p => if s.instSlots x p.1 < s.instSlots x c.1 then some c else some p) none

/-- The next unit of a launch: an evicted one first (R49, R61). -/
def Launch.pending (x : Launch) : Option Nat :=
  match x.evicted with
  | u :: _ => some u
  | [] => if x.next < x.units then some x.next else none

/-- A launch whose next unit has been placed in instance d (R61, R63, R64). -/
def Launch.placed (x : Launch) (u d : Nat) (here : Bool) : Launch :=
  let die := match x.dieUnit u with
    | some v => if here && !(x.dies.any (·.1 == v)) then x.dies ++ [(v, dieOf ((x.cores d).headD 0))] else x.dies
    | none => x.dies
  { x with
    evicted := x.evicted.drop 1, next := if x.evicted.isEmpty then x.next + 1 else x.next, dies := die, stuck := 0, reserved := 0 }

/-- A launch's units placed until one does not fit; n bounds them (R61, R64). -/
def State.placeLaunch (s : State) (l : Nat) : Nat → State
  | 0 => s
  | n + 1 =>
    match s.launch? l with
    | none => s
    | some x =>
      match x.pending with
      | none => s.setLaunch l { x with stage := 3 }
      | some u =>
        match s.placeUnit l x u with
        | some (d, t) => (t.setLaunch l (x.placed u d (s.replaying? x.ctx).isNone)).placeLaunch l n
        | none =>
          let y := { x with stuck := x.stuck + 1 }
          if y.stuck = 4096 && y.reserved = 0 then
            (s.setLaunch l { y with reserved := s.hub.nextReserve + 1 }).onHub fun h => { h with nextReserve := h.nextReserve + 1 }
          else s.setLaunch l y

/-- Launches in the order in which a pass tries them (R56, R61, R64). -/
def State.placeOrder (s : State) : List Nat :=
  let ls := s.hub.launches.filter fun e => e.2.stage == 2
  let before := fun (a b : Nat × Launch) =>
    if a.2.reserved ≠ 0 && b.2.reserved ≠ 0 then decide (a.2.reserved ≤ b.2.reserved)
    else if a.2.reserved ≠ 0 then true
    else if b.2.reserved ≠ 0 then false
    else if a.2.prio = b.2.prio then decide (a.1 ≤ b.1) else decide (b.2.prio < a.2.prio)
  (sortBy before ls).map (·.1)

/-! ### Bins and returns -/

/-- What the crew of a closed bin asks for and starts with (R42, R368, R369). -/
def Bin.need (b : Bin) : CrewNeed :=
  { ctx := b.ctx, groups := 1, vregs := 16 * (dbits b.cfg 28 24 + 1), sregs := 8 * (dbits b.cfg 34 30 + 1), tiles := dbits b.cfg 43 36
    cls := clsOf (dbits b.cfg 45 44) }
def Bin.begin (b : Bin) : CrewStart :=
  { entry := b.entry, arg := 0, scrw := 0, sx := [], live := BitVec.ofNat 32 (2 ^ b.args.length - 1), v0 := lanesFn fun i => nth b.args i 0
    launch := none, unit := 0, runahead := b.cfg.getLsbD 47, weight := dbits b.cfg 51 48, acq := false }

/-- In replay, a bin's crew is placed at its PLACE record (R328). -/
def State.binDue (s : State) (core : Nat) (b : Bin) : Bool :=
  match s.replaying? b.ctx with
  | none => true
  | some (t, k) => (s.sess t k).log.any fun r => recKind r == 0x07 && recField r 16 16 == 0xFFFF && recField r 32 10 == core &&
      decide (recField r 128 48 ≤ (s.sess t k).ended (cluOf core))

/-- The buffered bin launches of a core, oldest first, each placed when it fits (R69). -/
def State.placeBins (s : State) (core : Nat) : State :=
  (s.core core).buffer.foldl (fun st b =>
    if !(st.binDue core b) then st else
    match st.newCrew core 0xFFFF b.need b.begin with
    | none => st
    | some t => t.onCore core fun k => Core.moveBins { k with buffer := k.buffer.erase b } 4) s

/-- The crews of a pre-empted placement unit that are called back: a crew of a launch with the others of its unit (R31). -/
def State.unitOf (s : State) (w : Nat) (x : Crew) : List (Nat × Crew) :=
  match x.launch with
  | none => [(w, x)]
  | some l => s.hub.crews.filter fun e => e.2.launch == some l && e.2.unit == x.unit

/-- Crews called back return to the cores that they left, unit by unit, when all of a unit fit (R285). -/
def State.placeReturns (s : State) : State :=
  (s.hub.crews.filter fun e => e.2.away == 3).foldl (fun st e =>
    match st.crew? e.1 with
    | none => st
    | some x =>
      if x.away ≠ 3 then st else
        let us := (st.unitOf e.1 x).filter fun p => p.2.away == 3
        match us.foldl (fun (o : Option State) p => o.bind fun t => t.crewAgain p.1 p.2.core p.2 true) (some st) with
        | some t => us.foldl (fun u p => u.binsReturn p.2.core p.2.ctx) t
        | none =>
          match st.savePages x.ctx x.slot .r 16 with
          | (.inl (some va), t) => t.fileFault x.ctx va 0 []
          | (.inl none, t) => t.doom x.ctx 4
          | _ => st) s

/-- Eviction images whose pages are missing or unusable (R284, R285). -/
def State.checkEvicted (s : State) : State :=
  (s.hub.crews.filter fun e => e.2.away == 2).foldl (fun st e =>
    match st.savePages e.2.ctx e.2.slot .r 16 with
    | (.inl (some va), t) => t.fileFault e.2.ctx va 0 []
    | (.inl none, t) => t.doom e.2.ctx 4
    | _ => st) s

/-- One placement pass (R61): crews called back, buffered bin launches, then the launches in order. -/
def State.placePass (s : State) : State :=
  let s1 := s.retireCrews.placeReturns.checkEvicted
  let s2 := (s1.cores.map (·.1)).foldl State.placeBins s1
  let s3 := s2.placeOrder.foldl (fun st l => st.placeLaunch l (((st.launch? l).map fun x => x.units + x.evicted.length + 1).getD 0)) s2
  s3.onHub fun h => { h with launches := h.launches.map fun (e : Nat × Launch) => if e.2.stage = 8 then e else (e.1, { e.2 with fresh := false }) }

/-- PLACEMENT_PASS (R61): submitted launches that a replay may now admit are validated first (R328). -/
def execPlacementPass (s : State) : Host.Outcome State Fault Refusal :=
  let waiting := (s.hub.launches.filter fun e => e.2.stage == 8).map (·.1)
  .next ((waiting.foldl State.validate s).placePass).reap

/-! ### Progress eviction -/

/-- Group g has been parked in its wait, which has not ended, for more than 65,536 issue cycles of its context (R49). -/
def State.parkedLong (s : State) (g : Nat) : Bool := decide (65536 < (s.grp g).parked) && !(s.holds g (s.grp g).wait.cond)

/-- Every resident group of a context on a core has been parked so long (R49). -/
def State.allParked (s : State) (core c : Nat) : Bool := ((s.gidsOn core).filter fun g => (s.grp g).ctx == c).all s.parkedLong

/-- How long all the groups of a placement unit have been parked: the least time of one of them (R49, log entry 88). -/
def State.parkedFor (s : State) (us : List (Nat × Crew)) : Nat := ((crewGids us).map fun g => (s.grp g).parked).foldl min (2 ^ 64)

/-- A placement unit's crews stand as the log of a replay has them when the unit was evicted: each of their groups is at a recorded eviction
(R50, R328 step 7). -/
def State.evictLogged (s : State) (us : List (Nat × Crew)) : Bool :=
  !(crewGids us).isEmpty && (crewGids us).all fun g => (s.traptDue g (· == 1)).isSome

/-- A crew on a core may leave it for progress: its launch allows that, and has another unit to place that may go to the core; all groups of
its context there are parked, and 65,536 issue cycles have passed since the last time (R49, log entries 82 and 88). -/
def State.mayEvict (s : State) (core : Nat) (x : Crew) : Bool :=
  s.allParked core x.ctx &&
  ((List.range 4).any fun i => vat (s.core core).resident i none == some x.ctx && decide (65536 ≤ vat (s.core core).sinceEvict i 0)) &&
  (x.launch.bind s.launch?).any fun l => l.pevict && decide (l.next < l.units) && (l.eligible l.next).any fun d => (l.cores d).contains core

/-- The unit that progress eviction takes from a core, shown by one of its crews there: of those that may leave, the one parked longest, ties
going to the lowest scrw (R49); in replay, one that the log has at this point (R50). -/
def State.evictee (s : State) (core : Nat) : Option (Nat × Crew) :=
  let here := s.hub.crews.filter fun e => e.2.core == core && e.2.away == 0 && !(crewGids (s.unitOf e.1 e.2)).isEmpty
  let ok := here.filter fun e =>
    if (s.replaying? e.2.ctx).isSome then s.evictLogged (s.unitOf e.1 e.2) else s.mayEvict core e.2
  ok.foldl (fun (b : Option (Nat × Crew)) e => match b with
    | none => some e
    | some p =>
      let m := s.parkedFor (s.unitOf p.1 p.2)
      let n := s.parkedFor (s.unitOf e.1 e.2)
      if m < n || (m == n && decide (e.2.scrw < p.2.scrw)) then some e else some p) none

/-- Eviction slots of a context that hold no image (R278, R285). -/
def State.evictSlots (s : State) (c : Nat) : List Nat :=
  ((List.range (s.ctx c).evslots).map ((s.ctx c).scount + ·)).filter fun n => !(s.hub.crews.any fun e => e.2.ctx == c && e.2.away == 2 && e.2.slot == n)

/-- The crews of a unit leave for eviction slots, one for each core (R49, R285); nothing happens while a page is missing. -/
def State.evictUnit (s : State) (c l u : Nat) (us : List (Nat × Crew)) : State :=
  let cores := (us.map (·.2.core)).eraseDups
  let out := (cores.zip (s.evictSlots c)).foldl (fun (o : (Option Dword) ⊕ State) p => match o with
    | .inl r => .inl r
    | .inr st => match st.savePages c p.2 .w 16 with
      | (.inr pages, st1) => .inr (st1.leaveWith p.1 c 2 p.2 (us.filter fun e => e.2.core == p.1) pages)
      | (.inl r, _) => .inl r) (.inr s)
  match out with
  | .inl (some va) => s.fileFault c va 1 []
  | .inl none => s.doom c 4
  | .inr t =>
    let t1 := cores.foldl (fun st core => st.onCore core fun k => {
      k with sinceEvict := Vector.ofFn fun i => if vat k.resident i.val none == some c then 0 else vat k.sinceEvict i.val 0 }) t
    match t1.launch? l with
    | none => t1
    | some x => t1.setLaunch l { x with evicted := x.evicted ++ [u], stage := 2 }

/-- PROGRESS_EVICTION (R49, R50): once its engine commands have completed, the unit's groups stop and it leaves. -/
def execProgressEviction (core : Nat) (s : State) : Host.Outcome State Fault Refusal :=
  if 768 ≤ core then .fault .noSuchUnit
  else match s.evictee core with
    | none => .next s
    | some (w, x) =>
      let us := s.unitOf w x
      let gs := crewGids us
      if (s.evictSlots x.ctx).length < ((us.map (·.2.core)).eraseDups).length || !(gs.all fun g => s.stopReady g 1) then .next s
      else
        let s1 := gs.foldl (fun st g => st.stopGroup g 1) s
        if !(gs.all s1.stopped) || s1.cmdsHold gs then .next s
        else .next ((s1.evictUnit x.ctx (x.launch.getD 0) x.unit us).reap)

end Sys2Proof.Machine
end

