-- ==== Sys2Proof/Machine/Debug.lean ====
section
/-! DEFINITION. The sampler (R333, R334), the debug registers (R338), and the debug units' commands (R342 to R345, R523, R541). -/

namespace Sys2Proof.Machine

/-! ### The sampler -/

/-- A SAMPLE record (R336). -/
def State.sampleRec (s : State) (g : Nat) (issued : Bool) : List Byte :=
  let x := s.grp g
  let stall := if issued && x.runAhead.isNone then 0 else s.stallOf g
  leBytes 8 (0x01 * 2048 + 64 + coreOf g * 2 ^ 16 + slotOf g / 12 * 2 ^ 26 + slotOf g % 12 * 2 ^ 27 + (if issued then 2 ^ 31 else 0) +
    stall * 2 ^ 32 + x.ctx * 2 ^ 37 + x.ordinal % 2 ^ 15 * 2 ^ 43) ++ leBytes 8 (dbits x.pc 55 0)

/-- One issue scheduler's sample (R333): its next slot with a group; the group issued in this cycle when the scheduler has issued and
picked it last. -/
def State.sampleOne (s : State) (core n : Nat) : State :=
  let k := s.core core
  match ((List.range 12).map fun i => (vat k.sampled n 11 + 1 + i) % 12).find? fun i => (s.grp (24 * core + 12 * n + i)).used with
  | none => s
  | some i =>
    let g := 24 * core + 12 * n + i
    let issued := vat k.picked n 11 == i && k.issuedNow n
    (s.setCore core { k with sampled := vset k.sampled n i }).sample (s.grp g).ctx (s.sampleRec g issued)

/-- SAMPLE (R333): at a cycle count that is a multiple of 2^k. -/
def execSample (core : Nat) (s : State) : Host.Outcome State Fault Refusal :=
  if 768 ≤ core then .fault .noSuchUnit
  else
    let k := s.core core
    if k.cycles % 2 ^ k.sampleK ≠ 0 || k.cycles = k.sampledAt then .next s
    else .next (((s.setCore core { k with sampledAt := k.cycles }).sampleOne core 0).sampleOne core 1)

/-! ### Debug registers -/

/-- The context is allotted to tenant t (R351). -/
def State.allotted (s : State) (t c : Nat) : Bool := SMap.look s.hub.allot c 0 == t + 1

/-- The context is an enclave whose attestation lacks DEBUG (R338, R360). -/
def State.noDebug (s : State) (c : Nat) : Bool := (s.ctx c).encl && !(s.ctx c).policy.getLsbD 2

/-- The DERR code of a register write that finds EN and CTX at old and leaves them at new; 0 when it is made (R338). -/
def State.derrCode (s : State) (t : Nat) (old new : Dword) (ok : Bool) : Nat :=
  let ctx := fun (v : Dword) => dbits v 15 10
  if old.getLsbD 0 && !(s.allotted t (ctx old)) then 1
  else if new.getLsbD 0 && !(s.allotted t (ctx new)) then 1
  else if !ok then 2
  else if new.getLsbD 0 && s.noDebug (ctx new) then 3
  else 0

/-- A breakpoint as its registers hold it, and whether it keeps the field rules (R338). -/
def breakOf (a c : Dword) : BreakReg := { bpa := withBits (withBits a 63 56 0) 1 0 0, bpc := withBits c 7 1 0 }
def breakOk (c : Dword) : Bool := dbits c 21 20 != 3

/-- A watchpoint as its registers hold it, and whether it keeps the field rules, which bind it once it is enabled (R338). -/
def watchOf (a l c : Dword) : WatchReg := { wpa := a, wpl := l, wpc := withBits (withBits c 63 16 0) 3 1 0 }
def watchOk (w : WatchReg) : Bool :=
  !(w.wpc.getLsbD 0) || ((if w.wpc.getLsbD 6 then decide (w.wpa.toNat < 2 ^ 25) else canonical w.wpa) && decide (w.wpa.toNat < w.wpl.toNat))

def BreakReg.clear : BreakReg := { bpa := 0, bpc := 0 }
def WatchReg.clear : WatchReg := { wpa := 0, wpl := 0, wpc := 0 }

/-- Breakpoint and watchpoint i of a core. -/
def Core.break_ (k : Core) (i : Nat) : BreakReg := SMap.look k.breaks i BreakReg.clear
def Core.watch (k : Core) (i : Nat) : WatchReg := SMap.look k.watches i WatchReg.clear

/-- A refused write: DERR (R338). -/
def Core.refuse (k : Core) (code : Nat) : Core := { k with derr := withBits (withBits k.derr 15 8 code) 0 0 1 }

/-- A breakpoint written by tenant t: the code of its refusal, and the core (R338). -/
def State.putBreak (s : State) (core t i : Nat) (b : BreakReg) : Nat × Core :=
  let k := s.core core
  let n := s.derrCode t (k.break_ i).bpc b.bpc (breakOk b.bpc)
  (n, if n = 0 then { k with breaks := SMap.put k.breaks i b BreakReg.clear } else k)

/-- A watchpoint written by tenant t. -/
def State.putWatch (s : State) (core t i : Nat) (w : WatchReg) : Nat × Core :=
  let k := s.core core
  let n := s.derrCode t (k.watch i).wpc w.wpc (watchOk w)
  (n, if n = 0 then { k with watches := SMap.put k.watches i w WatchReg.clear } else k)

/-- A write of a debug-block register by tenant t (R338). -/
def State.debugWrite (s : State) (t core off : Nat) (v : Dword) : State :=
  let k := s.core core
  let put := fun (p : Nat × Core) => s.setCore core (if p.1 = 0 then p.2 else p.2.refuse p.1)
  if off % 8 ≠ 0 then s
  else if off < 0x80 then
    let b := k.break_ (off / 16)
    put (s.putBreak core t (off / 16) (if off % 16 = 0 then breakOf v b.bpc else breakOf b.bpa v))
  else if off < 0xE0 then
    let i := (off - 0x80) / 24
    let w := k.watch i
    put (s.putWatch core t i (match (off - 0x80) % 24 / 8 with
      | 0 => watchOf v w.wpl w.wpc
      | 1 => watchOf w.wpa v w.wpc
      | _ => watchOf w.wpa w.wpl v))
  else if off = 0xE8 then (if v.getLsbD 0 then s.setCore core { k with derr := withBits k.derr 0 0 0 } else s)
  else s

/-- DEBUG_REGISTER_WRITE (R338). -/
def execDebugRegisterWrite (t core off : Nat) (v : Dword) (s : State) : Host.Outcome State Fault Refusal :=
  if 16 ≤ t || 768 ≤ core then .fault .noSuchUnit else .next (s.debugWrite t core off v)

/-! ### Commands of a debug unit -/

def DbgCmd.op (d : DbgCmd) : Nat := dbits (vat d.msg 0 0) 15 8
def DbgCmd.about (d : DbgCmd) : Nat := dbits (vat d.msg 0 0) 31 26
def DbgCmd.dw (d : DbgCmd) (i : Nat) : Dword := vat d.msg i 0

/-- The reply of a command, with doublewords 1 to 3 (R345). -/
def DbgCmd.reply (d : DbgCmd) (status : Nat) (l : List Dword) : List Byte :=
  msgBytes (BitVec.ofNat 64 (0x82 + d.op * 2 ^ 8 + status * 2 ^ 16 + dbits (d.dw 0) 63 32 * 2 ^ 32) :: l)

/-- Bytes on a command's account at its reply address plus n (R344, R345). -/
def State.dbgWrite (s : State) (core : Nat) (d : DbgCmd) (n : Nat) (b : List Byte) : State :=
  if d.dw 7 = 0 then s else s.devMsg d.host d.tenant (if d.host then d.about else d.ctx) (d.dw 7 + BitVec.ofNat 64 n) b d.op core

/-- A command is done: its reply is written and the next one's turn comes (R523). -/
def State.dbgDone (s : State) (core : Nat) (d : DbgCmd) (status : Nat) (l : List Dword) : State :=
  (s.onCore core fun k => { k with dbg := k.dbg.drop 1 }).dbgWrite core d 0 (d.reply status l)

/-- What a command may not do: 1 a foreign context, 4 an enclave without DEBUG (R344, R345, R541). -/
def State.dbgBars (s : State) (d : DbgCmd) : Nat :=
  let c := d.about
  if (if d.host then !(s.allotted d.tenant c) else d.ctx != c || !(s.ctx c).used) then 1 else if s.noDebug c then 4 else 0

/-- The head command of a core's debug unit handed to its meaning, when its OP is the event's; an OP that no command has is answered with
STATUS 3 (R344, R345). -/
def runDbg (core op : Nat) (go : DbgCmd → State → State) (s : State) : Host.Outcome State Fault Refusal :=
  if 768 ≤ core then .fault .noSuchUnit
  else match (s.core core).dbg with
    | [] => .next s
    | d :: _ =>
      if d.op = 0 || 8 < d.op then .next (s.dbgDone core d 3 []).reap
      else if d.op ≠ op then .next s
      else if s.dbgBars d ≠ 0 then .next (s.dbgDone core d (s.dbgBars d) []).reap
      else .next (go d s).reap

/-- The group of a command's ordinal on a core, or its number while it is away from it (R279, R287). -/
def State.ordinalOn (s : State) (core c n : Nat) : Option Nat :=
  (s.gidsCtx c).find? fun g => (s.grp g).ordinal == n &&
    (if g < 18432 then coreOf g == core else (s.crew? (s.grp g).crew).any fun w => w.core == core)

/-- The status of a refused register write. -/
def dbgStatus : Nat → Nat
  | 1 => 1
  | 3 => 4
  | _ => 3

/-- A register of a debug unit set by a command. A group may command only about its own context, so an enabled register of another one
is foreign to it (R344). -/
def State.dbgPut (s : State) (core : Nat) (d : DbgCmd) (old new : Dword) (p : Nat × Core) : State :=
  let other := fun (v : Dword) => v.getLsbD 0 && dbits v 15 10 != d.about
  if !d.host && (other old || other new) then s.dbgDone core d 1 []
  else if p.1 ≠ 0 then s.dbgDone core d (dbgStatus p.1) []
  else (s.setCore core p.2).dbgDone core d 0 []

/-- WRBP (R344, R523). -/
def execWrbp (core : Nat) (s : State) : Host.Outcome State Fault Refusal :=
  runDbg core 1 (fun d t =>
    let b := breakOf (d.dw 2) (d.dw 3)
    if 8 ≤ (d.dw 1).toNat then t.dbgDone core d 3 []
    else t.dbgPut core d ((t.core core).break_ (d.dw 1).toNat).bpc b.bpc (t.putBreak core d.tenant (d.dw 1).toNat b)) s

/-- WRWP (R344, R523). -/
def execWrwp (core : Nat) (s : State) : Host.Outcome State Fault Refusal :=
  runDbg core 2 (fun d t =>
    let i := dbits (d.dw 1) 57 56
    let a := BitVec.ofNat 64 (dbits (d.dw 1) 55 0)
    let w := watchOf (if (d.dw 3).getLsbD 6 then a else (a.truncate 56).signExtend 64) (d.dw 2) (d.dw 3)
    if dbits (d.dw 1) 63 58 ≠ 0 then t.dbgDone core d 3 []
    else t.dbgPut core d ((t.core core).watch i).wpc w.wpc (t.putWatch core d.tenant i w)) s

/-- SETEV (R344, R345, R523). -/
def execSetev (core : Nat) (s : State) : Host.Outcome State Fault Refusal :=
  runDbg core 8 (fun d t =>
    if (d.dw 1).toNat % 64 ≠ 0 then t.dbgDone core d 3 []
    else (t.onCore core fun k => {
      k with
      setev := if d.dw 1 = 0 then none
        else some { addr := d.dw 1, host := d.host, tenant := d.tenant, ctx := if d.host then d.about else d.ctx } }).dbgDone core d 0 []) s

/-- The group that a command about one group names, handed on; the command waits while it is away from the core (R343 to R345, R526). -/
def State.dbgGroup (s : State) (core : Nat) (d : DbgCmd) (go : Nat → State) : State :=
  match s.ordinalOn core d.about (dbits (d.dw 1) 14 0) with
  | none => s.dbgDone core d 2 []
  | some g => if 18432 ≤ g then s else go g

/-- HALT (R342, R523): the group halts at its boundary, and its set with it. -/
def execHalt (core : Nat) (s : State) : Host.Outcome State Fault Refusal :=
  runDbg core 3 (fun d t => t.dbgGroup core d fun g => (t.haltSet g (dbits (d.dw 1) 17 16) 4 0 0 false 0).dbgDone core d 0 []) s

/-- RESUME (R340, R523): every halted group of the set goes on; the command waits while one of them is away (log entry 72). -/
def execResume (core : Nat) (s : State) : Host.Outcome State Fault Refusal :=
  runDbg core 4 (fun d t => t.dbgGroup core d fun g =>
    if !(t.grp g).halted then t.dbgDone core d 2 []
    else if (t.haltGroups g (dbits (d.dw 1) 17 16)).any fun h => decide (18432 ≤ h) && (t.grp h).halted then t
    else ((g :: t.haltGroups g (dbits (d.dw 1) 17 16)).foldl (fun st h => st.onGrp h fun x => { x with halted := false }) t).dbgDone core d 0 []) s

/-- STEP (R343, R523): the group runs one bundle or repeat; the reply follows its next halt, its trap or its end. -/
def execStep (core : Nat) (s : State) : Host.Outcome State Fault Refusal :=
  runDbg core 5 (fun d t =>
    if d.begun then (if d.waiting.all fun g => !(t.grp g).used || (t.grp g).step.isNone then t.dbgDone core d 0 [] else t)
    else t.dbgGroup core d fun g =>
      if !(t.grp g).halted then t.dbgDone core d 2 []
      else (t.onGrp g fun x => { x with halted := false, step := some ((d.dw 1).getLsbD 16) }).onCore core fun k =>
        { k with dbg := { d with waiting := [g], begun := true } :: k.dbg.drop 1 }) s

/-- RDST (R345). -/
def execRdst (core : Nat) (s : State) : Host.Outcome State Fault Refusal :=
  runDbg core 6 (fun d t => t.dbgGroup core d fun g =>
    let x := t.grp g
    if !x.halted then t.dbgDone core d 2 []
    else t.dbgDone core d 0 [x.pc, BitVec.ofNat 64 (x.em.toNat + x.live.toNat * 2 ^ 32), BitVec.ofNat 64 (t.stallOf g)]) s

/-- The vector register of a field for group x: none when the field names none (R105, R345). -/
def Group.dbgField (x : Group) (f : Nat) : Option RegId :=
  if f < 96 then (if f < x.wv then some (.v (x.vb + f)) else none)
  else if f < 112 then some (.o (f - 96)) else if f < 120 then some (.h (f - 112)) else none

/-- RDV (R345, R523): the lanes, at the reply address plus 64, go before the reply; a missing page of theirs holds the command. -/
def execRdv (core : Nat) (s : State) : Host.Outcome State Fault Refusal :=
  runDbg core 7 (fun d t => t.dbgGroup core d fun g =>
    let x := t.grp g
    if !x.halted then t.dbgDone core d 2 []
    else match x.dbgField (dbits (d.dw 1) 22 16) with
      | none => t.dbgDone core d 3 []
      | some r =>
        let at_ := d.dw 7 + 64
        match (if d.host || d.dw 7 = 0 then .loc 0 0 false else (t.devSpot d.ctx at_ .w).1) with
        | .park _ => t.fileFault d.ctx at_ 1 []
        | _ => (t.dbgWrite core d 64 ((x.getV r).toList.flatMap fun v => leBytes 4 v.toNat)).dbgDone core d 0 []) s

end Sys2Proof.Machine
end

