-- ==== Sys2Proof/Machine/Engine.lean ====
section
/-! DEFINITION. Engine commands at issue: the checks of R230 and R231, registration and batches (R229, R232, R241, R473); tile
ownership (R190 to R192, R222, R223, R466, R468 to R474); MBATCH, MBWAIT and MQRY (R242 to R245, R415 to R418, R423). -/

namespace Sys2Proof.Machine

/-! ### Operands -/

/-- Fields of a shape word (R246). -/
def shSync (e : Dword) : Nat := dbits e 59 44
def shRows (e : Dword) : Nat := dbits e 43 32
def shLen (e : Dword) : Nat := 16 * (dbits e 31 18 + 1)
def shSstr (e : Dword) : Nat := 64 * dbits e 17 9
def shDstr (e : Dword) : Nat := 64 * dbits e 8 0

/-- The code of an engine class in owner states (R190). -/
def engCode : Eng → Nat
  | .copy => 1
  | .gather => 2
  | .collective => 3
  | .matrix => 4
  | .fabric => 5

/-- What a command does with a range of scratchpad. -/
inductive Use where
  | sync
  | src
  | dst
  /-- a matrix operand on another pair's core (R231) -/
  | far
  deriving DecidableEq, Repr

/-- A range of a command's operand: rows of `len` bytes, `pitch` apart. -/
inductive Rng where
  | sp (a rows pitch len : Nat) (use : Use)
  | va (a : Dword) (rows pitch len : Nat)
  /-- a list in the issuing core's own scratchpad (R251) -/
  | own (off len : Nat)
  deriving DecidableEq, Repr

/-- The cluster scratchpad address of an offset on a core. -/
def csaOf (core off : Nat) : Nat := core % 64 * 2 ^ 19 + off

/-- First addresses of the parts of a scratchpad range that lie in one tile each. -/
def spSegs (a rows pitch len : Nat) : List Nat :=
  (List.range (if pitch = 0 then 1 else rows + 1)).flatMap fun r =>
    let b := a + r * pitch
    (List.range ((b + len - 1) / 4096 - b / 4096 + 1)).map fun i => if i = 0 then b else (b / 4096 + i) * 4096

/-- The first address of a range that R169, R171, R172 or R173 refuses. -/
def State.badRng (s : State) (core c : Nat) : Rng → Option Dword
  | .sp a rows pitch len _ =>
    ((spSegs a rows pitch len).find? fun x => !(decide (x < 2 ^ 25) && s.spadOk c (spadOf (cluOf core) x))).map (BitVec.ofNat 64)
  | .own off len =>
    ((spSegs (csaOf core off) 0 0 len).find? fun x => !(decide (x / 2 ^ 19 = core % 64) && s.spadOk c (spadOf (cluOf core) x))).map (BitVec.ofNat 64)
  | .va a rows pitch len =>
    (List.range (if pitch = 0 then 1 else rows + 1)).findSome? fun r =>
      let b := a + BitVec.ofNat 64 (r * pitch)
      let ap := (s.ctx c).spapb
      if !canonical b || (s.aperture? c b).isSome then some b
      else if b.toNat < ap.toNat && decide (ap.toNat < b.toNat + len) then some ap
      else if b.toNat < 2 ^ 55 && decide (2 ^ 55 < b.toNat + len) then some (BitVec.ofNat 64 (2 ^ 55))
      else none

/-- A parked TTAKE has closed the tile: an issue check finds it in THREAD (R473). -/
def State.tileClosed (s : State) (core t : Nat) : Bool :=
  s.gids.any fun g => match (s.grp g).wait.cond with
    | .tiles k a n => k == core && decide (a ≤ t) && decide (t < a + n)
    | _ => false

/-- The owner state is the one that a use by engine e requires (R231). -/
def useAllows (e : Eng) (u : Use) (owner : Nat) : Bool :=
  match u with
  | .sync => true
  | .src => owner == engCode e || owner == engCode e + 8
  | .dst => owner == engCode e + 8
  | .far => owner == engCode e

/-- Core and tile of a cluster scratchpad address in the cluster of a core. -/
def tileAt (core x : Nat) : Nat × Nat :=
  let (k, t, _) := spadParts (spadOf (cluOf core) x)
  (k, t)

/-- The parts of a range that lie in one tile each and have an owner, with their use. -/
def Rng.owned (core : Nat) : Rng → List (Nat × Use)
  | .sp a rows pitch len u => if u = .sync then [] else (spSegs a rows pitch len).map fun x => (x, u)
  | .own off len => (spSegs (csaOf core off) 0 0 len).map fun x => (x, .src)
  | .va _ _ _ _ => []

/-- The first address of a range whose tile is not in the state that the use requires (R231). -/
def State.ownRng (s : State) (core : Nat) (e : Eng) (r : Rng) : Option Dword :=
  ((r.owned core).find? fun p =>
    let (k, t) := tileAt core p.1
    s.tileClosed k t || !useAllows e p.2 (s.tile k t).owner).map fun p => BitVec.ofNat 64 p.1

/-- Tiles of a range, as core * 128 + tile. -/
def rngTiles (core : Nat) (r : Rng) : List Nat := (r.owned core).map fun p => (tileAt core p.1).1 * 128 + (tileAt core p.1).2

/-- Tiles of a command, rising, each once. -/
def tilesOf (core : Nat) (rs : List Rng) : List Nat := (sortBy (fun p q => decide (p ≤ q)) (rs.flatMap (rngTiles core))).eraseDups

/-- What the issue of a command checks (R230). -/
structure EngChk where
  /-- the first ENGINE reason and the offending operand -/
  reason : Option (Nat × Dword)
  /-- alignments: bytes and address -/
  align : List (Nat × Dword)
  rngs : List Rng
  deriving DecidableEq, Repr

/-- The first of several conditions that holds. -/
def firstOf {α : Type} (l : List (Bool × α)) : Option α := (l.find? (·.1)).map (·.2)

/-- ENGINE at issue (R230): MQRY.LASTERR holds the reason. -/
def engineTrap (reason : Nat) (v : Dword) (t : State) : Eff := .trap 0x10 v (t.onMe fun g => { g with lastErr := reason })

/-- The open batch. -/
def Group.open? (g : Group) : Option Batch := g.batches.find? fun b => !b.closed

/-- The group with one more command in its open batch (R241). -/
def Group.joinBatch (g : Group) (tiles : List Nat) : Group :=
  match g.open? with
  | some _ =>
    { g with batches := g.batches.map fun b =>
        if b.closed then b else { b with count := b.count + 1, left := b.left + 1, tiles := b.tiles ++ tiles.filter fun x => !b.tiles.contains x } }
  | none =>
    { g with batches := g.batches ++ [{
        num := g.batchNum, count := 1, left := 1, arrive := none, status := 0, closed := false, retired := false, reported := false
        tiles := tiles }] }

/-- LOC of a tile's tokens (R470, R473). -/
def tileTok (x : Nat) : Nat := x / 128 * 2 ^ 19 + x % 128 * 4096

/-- One token at each tile, in the order given (R470, R473). -/
def State.tileTokens (s : State) (l : List Nat) : State :=
  l.foldl (fun st x => st.tokenNow st.me.ctx 3 (tileTok x) (.group st.cur) none) s

/-- In replay, every tile's count has reached the logged token. -/
def State.tilesReady (s : State) (l : List Nat) : Bool := l.all fun x => s.tokenReady s.cur 3 (tileTok x) none

/-- The checks of a command in the order of R230; none when it passes. -/
def engChecks (e : Eng) (c : EngChk) (t : State) : Option Eff :=
  let core := coreOf t.cur
  match c.reason with
  | some (n, v) => some (engineTrap n v t)
  | none =>
    if 4096 ≤ (t.me.open?.map (·.count)).getD 0 then some (engineTrap 0x0A (BitVec.ofNat 64 t.me.batchNum) t)
    else match c.align.find? fun p => p.2.toNat % p.1 != 0 with
    | some p => some (.trap 4 p.2 t)
    | none =>
      match c.rngs.findSome? (t.badRng core t.me.ctx) with
      | some a => some (.trap 5 a t)
      | none => (c.rngs.findSome? (t.ownRng core e)).map fun a => .trap 7 a t

/-- The command joins the open batch and its engine's queue, and registers on its tiles (R232, R241, R473). -/
def State.addCmd (s : State) (op : CmdOp) (a b e : Dword) (tiles : List Nat) (landed : List Nat) (msg : List Byte) : State :=
  let core := coreOf s.cur
  let g := s.me
  let q : Cmd := {
    id := (s.core core).nextCmd, gid := s.cur, ctx := g.ctx, batch := g.batchNum, op := op, a := a, b := b, e := e
    landed := landed, tiles := tiles, status := 0, ended := false, debited := false, clamped := false, phase := 0, msg := msg, held := 0
    work := (s.crew? g.crew).bind fun w => w.launch.map fun l => (l, w.scrw) }
  (((s.tileTokens tiles).onCore core fun k => { k with nextCmd := k.nextCmd + 1, cmds := k.cmds ++ [q] })).onMe fun y => y.joinBatch tiles

/-- A flush or a release of the group is outstanding: what it sends home is there before a command's issue (R224, R400). -/
def Group.sendsHome (g : Group) : Bool := g.flights.any fun f => f.kind == .flush || f.releases

/-- The issue of an engine command (R230 to R232): its check reads owner states, in the order of the group's fences and acquires (R223), and its
engine finds what the group has flushed (R224). -/
def engIssue (op : CmdOp) (a b e : Dword) (c : EngChk) (landed : List Nat) (msg : List Byte) (t : State) : Eff :=
  let core := coreOf t.cur
  let tiles := tilesOf core c.rngs
  if t.me.orderWait then .park 31 .order t
  else match engChecks op.eng c t with
  | some x => x
  | none =>
    if t.me.sendsHome then .park 31 .quiet t
    else if queueCap op.eng ≤ (t.core core).queued op.eng then .park (if op.eng = .matrix then 16 else 31) (.engineRoom op.eng) t
    else if !(t.tilesReady tiles) then .park 24 .replay t
    else .next (t.addCmd op a b e tiles landed msg)

/-- An engine command: format X with three scalar operands; it ends its chunk with code 6 (R229, R317). -/
def opEng (x : Pre) (M m : Nat) (a b e : Reg) : Op :=
  opStop (wordR x M m a b e) [⟨.a, .s, .rd, a⟩, ⟨.b, .s, .rd, b⟩, ⟨.e, .s, .rd, e⟩] (some 6)

/-- The sync word of a command in a core, when it names one: a cluster scratchpad address (R246, R247). -/
def syncRng (core : Nat) (e : Dword) : List Rng := if shSync e = 0xFFFF then [] else [.sp (csaOf core (8 * shSync e)) 0 0 8 .sync]

/-- Core of the cluster that a cluster scratchpad address names. -/
def csaCore (v : Dword) : Nat := v.toNat / 2 ^ 19 % 64

/-! ### Copies -/

/-- Destination rows overlap one another (R247). -/
def rowsClash (e : Dword) : Bool := shRows e != 0 && decide (shDstr e < shLen e)

/-- A row of a strided range overlaps [d, d + len). -/
def rowHits (a rows pitch len d : Nat) : Bool :=
  let r := if a + len ≤ d then (if pitch = 0 then rows + 1 else (d - a - len) / pitch + 1) else 0
  decide (r ≤ rows) && decide (a + r * pitch < d + len)

/-- The source and destination rows of a copy overlap on one core (R249). -/
def copyClash (src dst : Nat) (e : Dword) : Bool :=
  (List.range (shRows e + 1)).any fun r => rowHits src (shRows e) (shSstr e) (shLen e) (dst + r * shDstr e)

/-- Destinations of a CPY.S2S: one address, or the offset on each core of a mask (R249). -/
def s2sDests (v : Dword) : List Nat :=
  if dbits v 63 32 = 0 then [v.toNat]
  else ((List.range 32).filter fun i => v.getLsbD (32 + i)).map fun i => (32 * dbits v 19 19 + i) * 2 ^ 19 + dbits v 18 0

/-- CPY.G2S (R385 to R387). -/
def execCpyG2s (x : Pre) (a b e : Reg) (s : State) : Host.Outcome State Fault Refusal :=
  issue x (opEng x 0x2F 0 a b e) (fun r t =>
    let d := t.readS r.a
    let v := t.readS r.b
    let h := t.readS r.e
    engIssue .g2s d v h
      { reason := firstOf [(dbits h 63 60 != 0, (3, h)), (rowsClash h, (4, h))]
        align := [(16, d), (16, v)]
        rngs := [.sp d.toNat (shRows h) (shDstr h) (shLen h) .dst, .va v (shRows h) (shSstr h) (shLen h)] ++ syncRng (csaCore d) h } [] [] t) s

/-- CPY.S2G (R385 to R387). -/
def execCpyS2g (x : Pre) (a b e : Reg) (s : State) : Host.Outcome State Fault Refusal :=
  issue x (opEng x 0x2F 1 a b e) (fun r t =>
    let d := t.readS r.a
    let v := t.readS r.b
    let h := t.readS r.e
    engIssue .s2g d v h
      { reason := firstOf [(dbits h 63 60 != 0, (3, h)), (rowsClash h, (4, h))]
        align := [(16, d), (16, v)]
        rngs := [.va d (shRows h) (shDstr h) (shLen h), .sp v.toNat (shRows h) (shSstr h) (shLen h) .src] ++ syncRng (csaCore v) h } [] [] t) s

/-- CPY.S2S (R249, R385 to R387). -/
def execCpyS2s (x : Pre) (a b e : Reg) (s : State) : Host.Outcome State Fault Refusal :=
  issue x (opEng x 0x2F 2 a b e) (fun r t =>
    let d := t.readS r.a
    let v := t.readS r.b
    let h := t.readS r.e
    let ds := s2sDests d
    engIssue .s2s d v h
      { reason := firstOf [(dbits h 63 60 != 0, (3, h)), (rowsClash h, (4, h)), (ds.any (copyClash v.toNat · h), (4, d)),
          (dbits d 63 32 != 0 && dbits d 31 20 != 0, (6, d))]
        align := (ds.map fun n => (16, BitVec.ofNat 64 n)) ++ [(16, v)]
        rngs := (ds.map fun n => .sp n (shRows h) (shDstr h) (shLen h) .dst) ++ [.sp v.toNat (shRows h) (shSstr h) (shLen h) .src] ++
          ds.flatMap fun n => syncRng (n / 2 ^ 19 % 64) h } [] [] t) s

/-- CPY.X (R250, R385 to R387). -/
def execCpyX (x : Pre) (a b e : Reg) (s : State) : Host.Outcome State Fault Refusal :=
  issue x (opEng x 0x2F 3 a b e) (fun r t =>
    let d := t.readS r.a
    let v := t.readS r.b
    let h := t.readS r.e
    engIssue .x d v h
      { reason := firstOf [(dbits h 63 62 == 3 || dbits h 61 60 == 3, (3, h)), (rowsClash h, (4, h))]
        align := [(16, d), (16, v)]
        rngs := [.va d (shRows h) (shDstr h) (shLen h), .va v (shRows h) (shSstr h) (shLen h)] ++ syncRng (coreOf t.cur) h } [] [] t) s

/-- GTHR (R251, R404, R405). -/
def execGthr (x : Pre) (a b e : Reg) (s : State) : Host.Outcome State Fault Refusal :=
  issue x (opEng x 0x2F 4 a b e) (fun r t =>
    let d := t.readS r.a
    let v := t.readS r.b
    let h := t.readS r.e
    engIssue .gthr d v h
      { reason := firstOf [(dbits h 63 60 != 0, (3, h))]
        align := [(16, d), (16, v)]
        rngs := [.sp d.toNat 0 0 (shLen h * (shRows h + 1)) .dst, .va v 0 0 (shLen h), .own (4 * dbits h 17 0) (4 * (shRows h + 1))] ++
          syncRng (csaCore d) h } [] [] t) s

/-! ### Collectives and sends -/

/-- n words of 4 bytes at a virtual address, read by the device at their homes (R294, R357), or why they cannot be read: a poisoned sector is as
bad as a bad page (log entry 83). -/
def State.devWords (s : State) (c : Nat) (who : Asker) (va : Dword) : Nat → ((Spot × Dword) ⊕ List Nat) × State
  | 0 => (.inr [], s)
  | n + 1 =>
    match s.devSpot c va .r with
    | (.loc l _ _, s1) =>
      match s1.readSector l c va.toNat who with
      | (.poison, s2) => (.inl (.bad, va), s2)
      | (o, s2) =>
        let s3 := if o = .detected then (s2.debit c who).2 else s2
        match s3.devWords c who (va + 4) n with
        | (.inr r, s4) => (.inr (leNat (s3.devReadLoc l 4) :: r), s4)
        | (.inl p, s4) => (.inl p, s4)
    | (p, s1) => (.inl (p, va), s1)

/-- A communicator as read at issue: its table entry, and its ranks as device and core. -/
structure Comm where
  entry : List Nat
  ranks : List (Nat × Nat)
  deriving DecidableEq, Repr

/-- Read communicator m of a context (R357): an entry with rank count 0 has no ranks. -/
def State.comm (s : State) (c : Nat) (who : Asker) (m : Nat) : ((Spot × Dword) ⊕ Comm) × State :=
  match s.devWords c who ((s.ctx c).commp + BitVec.ofNat 64 (16 * m)) 4 with
  | (.inl p, s1) => (.inl p, s1)
  | (.inr ws, s1) =>
    let n := min (nth ws 0 0) 65536
    match s1.devWords c who (BitVec.ofNat 64 (nth ws 2 0 + nth ws 3 0 * 2 ^ 32)) n with
    | (.inl p, s2) => (.inl p, s2)
    | (.inr l, s2) => (.inr { entry := ws, ranks := l.map fun w => (w % 2 ^ 12, w / 2 ^ 12 % 2 ^ 10) }, s2)

/-- Result bytes of a collective on one rank (R383). -/
def collDst (op n len : Nat) : Nat := if op = 4 then n * len else if op = 5 || op = 6 then 4 * len else len

/-- Source bytes of a collective on one rank (R383). -/
def collSrc (op len : Nat) : Nat := if op = 5 || op = 6 then len + len / 32 else len

/-- COLL (R253, R383, R384). A table page that is missing parks the group; one that cannot be read is MEMFAULT. One that joins a collective which
has failed completes at once with the others' status. -/
def execColl (x : Pre) (a b e : Reg) (s : State) : Host.Outcome State Fault Refusal :=
  issue x (opEng x 0x2F 5 a b e) (fun r t =>
    let d := t.readS r.a
    let v := t.readS r.b
    let h := t.readS r.e
    let c := t.me.ctx
    let core := coreOf t.cur
    let op := dbits h 63 60
    let m := dbits h 43 32
    if 7 ≤ op || dbits h 17 0 ≠ 0 then engineTrap 3 h t
    else match t.comm c (.engine core) m with
      | (.inl (.park q, at0), t1) => .park (if q then 18 else 17) .fault (t1.pageFault t1.cur [(at0, q)] 5)
      | (.inl (_, at0), t1) => .trap 5 at0 t1
      | (.inr cm, t1) =>
        let n := cm.ranks.length
        let clash := decide (d.toNat < v.toNat + collSrc op (shLen h)) && decide (v.toNat < d.toNat + collDst op n (shLen h))
        let key := m * 1024 + core
        let num := SMap.look (t1.ctx c).collNum key 0
        match engIssue .coll d v h
          { reason := firstOf [((cm.ranks.filter (· == (t1.hub.device.toNat, core))).length != 1, (9, h)),
              (decide (5 ≤ op) && shLen h % 32 != 0, (5, h)), (clash, (4, d))]
            align := [(16, d), (16, v)]
            rngs := [.sp d.toNat 0 0 (collDst op n (shLen h)) .dst, .sp v.toNat 0 0 (collSrc op (shLen h)) .src] ++ syncRng (csaCore d) h }
          [num] ((cm.entry.map (leBytes 4)).flatten) t1 with
        | .next t2 =>
          let t3 := t2.onCtx c fun y => { y with collNum := SMap.put y.collNum key (num + 1) 0 }
          .next (if (t1.ctx c).collBad.contains (m, num) then t3.onCore core fun k =>
              { k with cmds := k.cmds.map fun q => if q.id = (t1.core core).nextCmd then { q with status := 0x15, ended := true } else q }
            else t3)
        | q => q) s

/-- The order number of the chunk that the current group's instruction ends (R331). -/
def State.chunkOrder (s : State) : Nat :=
  match s.session? s.me.ctx with
  | none => 0
  | some (t, k) => ((s.nextChunk s.cur).map (·.1)).getD ((s.sess t k).ended (cluOf (coreOf s.cur)))

/-- FSEND (R252, R402, R403). -/
def execFsend (x : Pre) (a b e : Reg) (s : State) : Host.Outcome State Fault Refusal :=
  issue x (opEng x 0x2F 6 a b e) (fun r t =>
    let d := t.readS r.a
    let v := t.readS r.b
    let h := t.readS r.e
    engIssue .fsend d v h
      { reason := firstOf [(dbits d 63 44 != 0, (3, d)), (dbits h 63 60 != 0 || dbits h 43 0 != 0, (3, h))]
        align := [(64, v)]
        rngs := [.sp v.toNat 0 0 64 .src] ++ syncRng (coreOf t.cur) h } [t.chunkOrder] [] t) s

/-! ### Matrix operations -/

/-- Bytes of A, of B and of each half of C (R236, R240, R420). -/
def matSizes (f : MatPair) (k parts : Nat) : Nat × Nat × Nat := (128 * k * MatPair.sA f, k * 64 * MatPair.sB f, 16384 * parts)

/-- Block size of a block code (R164). -/
def blockOf (n : Nat) : Nat := 16 * 2 ^ n

/-- A use of a matrix operand on a core: of the pair, or of another (R231). -/
def matUse (core : Nat) (v : Dword) : Use := if csaCore v / 2 = core % 64 / 2 then .src else .far

/-- The halves of C overlap an operand (R237, R420). -/
def matClash (core cOff cLen : Nat) (v : Dword) (len : Nat) : Bool :=
  csaCore v / 2 == core % 64 / 2 && decide (v.toNat % 2 ^ 19 < cOff + cLen) && decide (cOff < v.toNat % 2 ^ 19 + len)

/-- The issue of a matrix operation of K = k in `parts` partial tiles; `more` holds its further ENGINE reasons (R420). -/
def matIssue (op : CmdOp) (f : MatPair) (k parts : Nat) (more : List (Bool × (Nat × Dword))) (a b e : Dword) (t : State) : Eff :=
  let core := coreOf t.cur
  let (la, lb, lc) := matSizes f k parts
  let off := 4096 * dbits e 18 12
  let half := fun (n : Nat) => Rng.sp (n % 64 * 2 ^ 19 + off) 0 0 lc .dst
  engIssue op a b e
    { reason := firstOf ((core % 2 == 1, (1, e)) :: more ++ [(matClash core off lc a la || matClash core off lc b lb, (4, e))])
      align := [(4096, a), (4096, b)]
      rngs := [.sp a.toNat 0 0 la (matUse core a), .sp b.toNat 0 0 lb (matUse core b), half core, half (core + 1)] } [] [] t

/-- MMA (R236 to R239, R419 to R422). -/
def execMma (x : Pre) (f : MatPair) (a b e : Reg) (s : State) : Host.Outcome State Fault Refusal :=
  issue x (opEng x 0x31 f.code.toNat a b e) (fun r t =>
    let h := t.readS r.e
    matIssue (.mma f) f (MatPair.k f) 1 [(dbits h 11 0 != 0 || dbits h 63 19 != 0, (3, h))] (t.readS r.a) (t.readS r.b) h t) s

/-- MMAB (R164, R240, R419 to R422). -/
def execMmab (x : Pre) (f : MatPair) (a b e : Reg) (s : State) : Host.Outcome State Fault Refusal :=
  issue x (opEng x 0x32 f.code.toNat a b e) (fun r t =>
    let h := t.readS r.e
    let l := max (blockOf (dbits h 1 0)) (blockOf (dbits h 3 2))
    let n := l / min (blockOf (dbits h 1 0)) (blockOf (dbits h 3 2))
    matIssue (.mmab f) f l n [(dbits h 11 4 != 0 || dbits h 63 19 != 0, (3, h)), (decide (MatPair.k f < l), (2, h))]
      (t.readS r.a) (t.readS r.b) h t) s

/-! ### Tile ownership -/

/-- The checks shared by TGIVE and TTAKE: count, alignment, range (R469, R472). -/
def tileChecks (a n : Dword) (t : State) : Option Eff :=
  if n.toNat = 0 || 108 < n.toNat then some (engineTrap 5 n t)
  else if a.toNat % 4096 ≠ 0 then some (.trap 4 a t)
  else (t.badRng (coreOf t.cur) t.me.ctx (.sp a.toNat 0 0 (4096 * n.toNat) .sync)).map fun v => .trap 5 v t

/-- Core and first tile of a tile run. -/
def tileRun (clu : Nat) (a : Dword) : Nat × Nat := (clu * 64 + csaCore a, a.toNat % 2 ^ 19 / 4096)

/-- Set the owner state of a run of tiles. -/
def State.setOwners (s : State) (core t n owner : Nat) : State :=
  (List.range n).foldl (fun st i => st.setTile core (t + i) { st.tile core (t + i) with owner := owner }) s

/-- An earlier access of the current group to a run of tiles is outstanding (R469). -/
def State.tilesTouched (s : State) (core t n : Nat) : Bool :=
  s.me.flights.any fun f => f.access && isSpad f.loc && decide (spadLoc core (t * 4096) < f.loc + f.width) &&
    decide (f.loc < spadLoc core ((t + n) * 4096))

/-- The owner states that TGIVE can set (R468). -/
def giveState (v : Dword) : Bool := (decide (1 ≤ v.toNat) && decide (v.toNat ≤ 5)) || (decide (9 ≤ v.toNat) && decide (v.toNat ≤ 13))

/-- TGIVE (R222, R468 to R470). -/
def execTgive (x : Pre) (a b e : Reg) (s : State) : Host.Outcome State Fault Refusal :=
  issue x (opEng x 0x30 0 a b e) (fun r t =>
    let v := t.readS r.a
    let n := t.readS r.b
    let o := t.srcS x r.e
    let (core, t0) := tileRun (cluOf (coreOf t.cur)) v
    if t.me.orderWait then .park 31 .order t
    else if !giveState o then engineTrap 3 o t
    else match tileChecks v n t with
      | some q => q
      | none =>
        let tiles := (List.range n.toNat).map fun i => core * 128 + t0 + i
        match (List.range n.toNat).find? fun i => (t.tile core (t0 + i)).owner != 0 with
        | some i => .trap 7 (v + BitVec.ofNat 64 (4096 * i)) t
        | none =>
          if t.tilesTouched core t0 n.toNat then .park 15 .quiet t
          else if !(t.tilesReady tiles) then .park 24 .replay t
          else .next ((t.tileTokens tiles).setOwners core t0 n.toNat o.toNat)) s

/-- TVAL of a reported status (R243). -/
def statusVal (b : Batch) : Dword := BitVec.ofNat 64 (b.num + b.status * 2 ^ 16)

/-- A status of a batch of the current group is reported: ENGINE, or EXHAUST for 0x18 (R243). -/
def reportEff (b : Batch) (t : State) : Eff :=
  .trap (if b.status = 0x18 then 0x0A else 0x10) (statusVal b)
    (t.onMe fun g => { g with batches := g.batches.filter fun q => !(q.num == b.num && q.retired) })

/-- The lowest-numbered batch with an unreported nonzero status that a test accepts (R417, R473). -/
def Group.toReport (g : Group) (p : Batch → Bool) : Option Batch :=
  (g.batches.filter fun b => b.retired && !b.reported && b.status != 0 && p b).foldl (fun (o : Option Batch) b => match o with
    | none => some b
    | some q => if b.num < q.num then some b else some q) none

/-- TTAKE (R222, R472 to R474). -/
def execTtake (x : Pre) (a b : Reg) (s : State) : Host.Outcome State Fault Refusal :=
  issue x (opStop (wordR x 0x30 1 a b 0) [⟨.a, .s, .rd, a⟩, ⟨.b, .s, .rd, b⟩] (some 6)) (fun r t =>
    let v := t.readS r.a
    let n := t.readS r.b
    let (core, t0) := tileRun (cluOf (coreOf t.cur)) v
    match tileChecks v n t with
    | some q => q
    | none =>
      let tiles := (List.range n.toNat).map fun i => core * 128 + t0 + i
      let closed := match t.me.wait.cond with
        | .handed _ _ => true
        | _ => false
      if !closed && t.me.orderWait then .park 31 .order t
      else if !closed && !(t.tilesReady tiles) then .park 24 .replay t
      else
        let t1 := (if closed then t else t.tileTokens tiles).onMe fun g => { g with wait := Wait.none }
        if t1.tilesBusy core t0 n.toNat then .park 15 (.tiles core t0 n.toNat) t1
        else match t1.me.toReport fun q => q.tiles.any tiles.contains with
          | some q => reportEff q t1
          | none => .next (t1.setOwners core t0 n.toNat 0)) s

/-- TCHK (R466). -/
def execTchk (x : Pre) (a b : Reg) (s : State) : Host.Outcome State Fault Refusal :=
  issue x (opStop (wordR x 0x30 2 a b 0) [⟨.a, .s, .wr, a⟩, ⟨.b, .s, .rd, b⟩] (some 6)) (fun r t =>
    let v := t.readS r.b
    if t.me.orderWait then .park 31 .order t
    else if !t.spadGood t.cur v then .trap 5 v t
    else
      let (core, t0) := tileRun (cluOf (coreOf t.cur)) v
      let (w, t1) := t.crossing t.cur 3 (BitVec.ofNat 64 ((t.tile core t0).owner + if t.tilesBusy core t0 1 then 16 else 0))
      .next (t1.writeS r.a w)) s

/-! ### Batches -/

/-- The lowest nonzero of two statuses (R243). -/
def mergeStatus (a b : Nat) : Nat := if a = 0 then b else if b = 0 then a else min a b

/-- An engine arrival on a barrier object of a context (R197, R198, R242): none when the context does not hold it. -/
def State.arriveObj (s : State) (core c o : Nat) : Option State :=
  let oc := objCore (cluOf core) o
  let b := s.obj oc o
  if b.held && b.ctx == c then some ((s.engToken c core 3 (objTok oc o)).setObj oc o b.arrive)
  else if s.objAway oc o c then some (s.onCore oc fun k => { k with heldArr := k.heldArr ++ [(o % 64, c)] })
  else none

/-- A closed batch without outstanding commands retires, and arrives on its object (R241, R242). -/
def State.retireBatch (s : State) (core c : Nat) (b : Batch) : Batch × State :=
  match b.arrive with
  | none => ({ b with retired := true }, s)
  | some o =>
    match s.arriveObj core c o with
    | some s1 => ({ b with retired := true }, s1)
    | none => ({ b with retired := true, status := mergeStatus b.status 0x11 }, s)

/-- The open batch closed, with its arrival (R242). -/
def Group.closing (g : Group) (v : Dword) : Batch :=
  { (g.open?.getD {
      num := g.batchNum, count := 0, left := 0, arrive := none, status := 0, closed := false, retired := false, reported := false
      tiles := [] }) with closed := true, arrive := if v.getLsbD 12 then some (dbits v 11 0) else none }

/-- The open batch closes; one without outstanding commands retires at once (R241, R242). -/
def State.closeBatch (s : State) (v : Dword) : State :=
  let b := s.me.closing v
  let (b1, s1) := if b.left = 0 then s.retireBatch (coreOf s.cur) s.me.ctx b else (b, s)
  s1.onMe fun g =>
    { g with
      batches := (g.batches.filter (·.closed)) ++ if b1.retired && b1.status == 0 then [] else [b1]
      batchNum := (g.batchNum + 1) % 65536 }

/-- MBATCH (R241, R242, R415, R416). -/
def execMbatch (x : Pre) (d a : Reg) (s : State) : Host.Outcome State Fault Refusal :=
  issue x (opStop (wordR x 0x33 0 d a 0) [⟨.d, .s, .wr, d⟩, ⟨.a, .s, .rd, a⟩] (some 6)) (fun r t =>
    let v := t.readS r.a
    if dbits v 63 13 ≠ 0 then engineTrap 8 v t
    else if 8 ≤ t.me.openBatches then .park 14 .batchRoom t
    else .next ((t.closeBatch v).writeS r.d (BitVec.ofNat 64 t.me.batchNum))) s

/-- MBWAIT (R244, R417, R418). -/
def execMbwait (x : Pre) (d a : Reg) (s : State) : Host.Outcome State Fault Refusal :=
  issue x (opStop (wordR x 0x33 1 d a 0) [⟨.d, .s, .wr, d⟩, ⟨.a, .s, .rd, a⟩] (some 6)) (fun r t =>
    let v := t.readS r.a
    let n := v.toNat % 65536
    if n = t.me.batchNum || 65536 ≤ v.toNat then engineTrap 7 v t
    else if !(t.holds t.cur (.batches n)) then .park 14 (.batches n) t
    else match t.me.toReport (t.me.covers n) with
      | some q => reportEff q t
      | none =>
        let (w, t1) := t.crossing t.cur 2 (BitVec.ofNat 64 t.me.openBatches)
        .next (t1.writeS r.d w)) s

/-- The status word of MQRY (R245). -/
def State.engineStatus (s : State) : Dword :=
  let g := s.me
  let core := coreOf s.cur
  let lead := s.core (core / 2 * 2)
  BitVec.ofNat 64 (g.batchNum * 2 ^ 48 + g.lastErr * 2 ^ 40 + (g.open?.map (·.count)).getD 0 * 2 ^ 16 + g.openBatches * 2 ^ 8 +
    lead.queued .matrix * 2 ^ 3 + (if lead.matrixBusy then 2 else 0) + if s.hub.narrowed.contains (dieOf core) then 1 else 0)

/-- MQRY (R245, R423). -/
def execMqry (x : Pre) (d : Reg) (s : State) : Host.Outcome State Fault Refusal :=
  issue x (opStop (wordR x 0x33 2 d 0 0) [⟨.d, .s, .wr, d⟩] (some 10)) (fun r t =>
    let (w, t1) := t.crossing t.cur 1 t.engineStatus
    .next (t1.writeS r.d w)) s

end Sys2Proof.Machine
end

