-- ==== Sys2Proof/Machine/EngineRun.lean ====
section
/-! DEFINITION. What the engines do after issue: pieces of copies and gathered rows (R233, R234, R248 to R251, R385 to R387, R404,
R405), matrix operations (R237, R238, R240, R421), and the completion of commands (R241 to R243, R473). -/

namespace Sys2Proof.Machine

/-- Command id of a core. -/
def State.cmd? (s : State) (core id : Nat) : Option Cmd := (s.core core).cmds.find? (·.id == id)

/-- The state with a command replaced. -/
def State.setCmd (s : State) (core : Nat) (q : Cmd) : State :=
  s.onCore core fun k => { k with cmds := k.cmds.map fun p => if p.id = q.id then q else p }

/-- The command with a status met, the lowest nonzero standing (R243). -/
def Cmd.meets (q : Cmd) (n : Nat) : Cmd := { q with status := mergeStatus q.status n }

/-- The command stopped with a status; what it has written stays (R234). -/
def Cmd.stop (q : Cmd) (n : Nat) : Cmd := { q.meets n with ended := true }

/-- The crews that hold the command's tiles are on their cores (R235, R285). -/
def State.inPlace (s : State) (q : Cmd) : Bool :=
  q.tiles.all fun x => (s.tile (x / 128) (x % 128)).held && (s.tile (x / 128) (x % 128)).ctx == q.ctx

/-- The command can go on: it has not ended, no page holds it (R234), and its tiles are in place. -/
def State.cmdRuns (s : State) (q : Cmd) : Bool := !q.ended && q.held == 0 && s.inPlace q

/-- A debit on a command's account, once for outcomes of R297 and once for CLAMP (R297, R305). -/
def State.engDebit (s : State) (core : Nat) (q : Cmd) (clamp : Bool) : Cmd × State :=
  if (if clamp then q.clamped else q.debited) then (q, s)
  else
    let (ex, s1) := s.debit q.ctx (.engine core)
    let q1 := { q with debited := q.debited || !clamp, clamped := q.clamped || clamp }
    (if ex then q1.meets 0x18 else q1, s1)

/-! ### Places -/

/-- One end of a piece. -/
inductive EPlace where
  | sp (a : Nat) (use : Use)
  | va (a : Dword)
  deriving DecidableEq, Repr

/-- Where an engine's access goes: a location, a status that stops the command, or a page that holds it. -/
inductive EHit where
  | loc (l : Nat) (hint : Nat)
  | stop (n : Nat)
  | hold (va : Dword)
  deriving DecidableEq, Repr

/-- The PTE class code of an address's page. -/
def State.pageClass (s : State) (c : Nat) (va : Dword) : Nat :=
  match (s.walk 12 c va).1 with
  | .leaf e => dbits e.pte 4 3
  | _ => 3

/-- An engine's access of a command of a core (R191, R234, R250, R358); `cls` is the class that CPY.X asks of the page. -/
def State.engSpot (s : State) (core : Nat) (q : Cmd) (p : EPlace) (acc : Acc) (cls : Option Nat) : EHit × State :=
  match p with
  | .sp a u =>
    let l := spadOf (cluOf core) a
    (if decide (a < 2 ^ 25) && s.spadOk q.ctx l && useAllows q.op.eng u (s.ownerAt l) then .loc l 0 else .stop 0x10, s)
  | .va a =>
    if (s.aperture? q.ctx a).isSome then (.stop 0x13, s)
    else match s.devSpot q.ctx a acc with
      | (.loc l hint _, s1) =>
        if isPeer l && decide (18 ≤ s1.hub.portsDown.length) then (.stop 0x13, s1)
        else if cls.any (· != s1.pageClass q.ctx a) then (.stop 0x14, s1) else (.loc l hint, s1)
      | (.park _, s1) => (.hold a, s1)
      | (_, s1) => (.stop 0x13, s1)

/-- The accesses of several places: their locations, or the first that stops or holds the command. -/
def State.engSpots (s : State) (core : Nat) (q : Cmd) (acc : Acc) (cls : Option Nat) : List EPlace → (EHit ⊕ List (Nat × Nat)) × State
  | [] => (.inr [], s)
  | p :: r =>
    match s.engSpot core q p acc cls with
    | (.loc l h, s1) =>
      match s1.engSpots core q acc cls r with
      | (.inr ls, s2) => (.inr ((l, h) :: ls), s2)
      | o => o
    | (e, s1) => (.inl e, s1)

/-- LOC of an engine's token at a location (R323). -/
def engLoc (l : Nat) : Nat := if isSpad l then 2 ^ 60 + (l / 64 * 64 - spadBase) else l / 512

/-- An engine's request takes its token; a line granted to a cluster in a session is recalled first (R233, R320). -/
def State.engTouch (s : State) (core c l : Nat) (write : Bool) : State :=
  let s0 := if isSpad l || (s.session? c).isNone then s else
    let a := s.recallLine c none (l / 512) (.engine core)
    if write then a.dropOthers 12 (l / 512) else a
  s0.engToken c core 6 (engLoc l)

/-- An engine's request at a location may be performed: in replay, at the tokens that it takes (R233, R320, R328). -/
def State.touchReady (s : State) (core c l : Nat) : Bool :=
  (s.replaying? c).isNone || (s.engReady c core 6 (engLoc l) &&
    (isSpad l || SMap.look s.hub.grants (l / 512) 0 == 0 || s.engReady c core 2 (l / 512)))

/-! ### Reading and landing -/

/-- What an engine read of 16-byte granules found: the bytes, and whether a poisoned sector was among them. -/
structure EData where
  bytes : List Byte
  poison : Bool
  deriving DecidableEq, Repr

/-- Granules of n bytes read at their locations (R297): a detected sector reads zeros and debits once per command;
each global sector takes one token (R233). -/
def State.engRead (s : State) (core : Nat) (q : Cmd) (va n : Nat) (last : Option Nat) : List (Nat × Nat) → EData × Cmd × State
  | [] => ({ bytes := [], poison := false }, q, s)
  | (l, h) :: r =>
    let s0 := if isSpad l || last == some (l / 64) then s else (s.engTouch core q.ctx l false).l3Touch l h false
    let (o, s1) := s0.readSector l q.ctx va (.engine core)
    let (q1, s2) := if o = .detected then s1.engDebit core q false else (q, s1)
    let (v, s2b) := s2.outsideRead q.ctx l n (Memory.le s1.mem l n)
    let (d, q2, s3) := s2b.engRead core q1 va n (some (l / 64)) r
    ({ bytes := leBytes n v ++ d.bytes, poison := decide (o = .poison) || d.poison }, q2, s3)

/-- Data bytes of the sector or row of a location (R289, R298). -/
def State.unitLen (s : State) (l : Nat) : Nat :=
  if isLocal l && decide (s.fmtAt l = .d) && l / 64 % 8 == 7 then 48 else 64

/-- Bytes written at granules of 16 bytes. -/
def State.putGranules (s : State) : List Nat → List Byte → State
  | [], _ => s
  | l :: r, b => (s.setMem (Memory.setBytes s.mem l (b.take 16))).putGranules r (b.drop 16)

/-- An engine's piece lands in one sector or row, at granules `ls` from bound address `a` on, under its page's hint (R180, R224, R295, R297,
R304, R305, R308): a TRAP register stops the command before the piece lands. -/
def State.engPut (s : State) (core : Nat) (q : Cmd) (spad : Bool) (a hint : Nat) (ls : List Nat) (d : EData) : Cmd × State :=
  let l := ls.headD 0
  let n := 16 * ls.length
  let keeps := spad || decide (s.fmtAt l = .p)
  let (q1, s1) := if d.poison && !keeps then s.engDebit core q false else (q, s)
  let b := if d.poison && !keeps then List.replicate n 0 else d.bytes
  let bs := if d.poison && keeps then [] else s1.boundsFor core q.ctx spad
  let v := leNat b
  if (firstFail bs 2 a n v).isSome then (q1.stop 0x12, s1)
  else
    let clamp := (firstFail bs 1 a n v).isSome
    let (q2, s2) := if clamp then s1.engDebit core q1 true else (q1, s1)
    let s3 := if clamp || (firstFail bs 0 a n v).isSome then s2.err (some q.ctx) {
        addr := errAddr (l / 64 * 64), va := if spad then 0 else a, ctx := q.ctx, kind := 0x0A, cls := clsCode (s2.fmtAt l)
        unit := 0x5000 + core, detail := 0, lanes := 0 } else s2
    let s4 := s3.engTouch core q.ctx l true
    let s5 := if isSpad l then s4 else
      let u := s4.writeBack (cluOf core) l
      (u.setSector (cluOf core) l Sector.empty).l3Touch l hint false
    let full := l % 64 == 0 && n == s5.unitLen l
    let (q3, s6) := if !(s5.meetsError l q.ctx (.engine core)) then (q2, s5)
      else if full && s5.secLen l == 64 then (q2, s5.onHub fun h => { h with marks := h.marks.filter fun (e : Nat × Nat) => !(e.1 == l / 64 && e.2 == 3) })
      else match s5.readSector l q.ctx (if spad then 0 else a) (.engine core) with
        | (.detected, u) => u.engDebit core q2 false
        | (_, u) => (q2, u)
    let s7 := (s6.putGranules ls (if clamp then leBytes n (clampAll bs a n v) else b)).l3Dirty l (q.ctx + 1)
    (q3, s7.onHub fun h => {
      h with poison :=
        if d.poison && keeps then (if h.poison.contains (l / 64) then h.poison else l / 64 :: h.poison)
        else if full then h.poison.filter (· != l / 64) else h.poison })

/-- The sync word's update when n bytes land (R194). -/
def syncNext (w n : Nat) : Nat :=
  let t := bitsN w 63 40
  let x := bitsN w 39 16 + n
  if t = 0 then x % 2 ^ 24 * 2 ^ 16 + bitsN w 15 0
  else t * 2 ^ 40 + x % t * 2 ^ 16 + (bitsN w 15 0 + x / t) % 2 ^ 16

/-- SyncAdd on the word at a command's SYNC offset of a core (R194, R247). -/
def State.syncAdd (s : State) (core : Nat) (q : Cmd) (at_ n : Nat) : State :=
  if shSync q.e = 0xFFFF || n = 0 then s else
    let l := spadLoc at_ (8 * shSync q.e)
    let s1 := s.engToken q.ctx core 6 (2 ^ 60 + (l - spadBase))
    let s2 := match s1.readSector l q.ctx 0 (.engine core) with
      | (.detected, u) =>
        let (q1, v) := u.engDebit core ((u.cmd? core q.id).getD q) false
        v.setCmd core q1
      | (_, u) => u
    s2.setMem (Memory.setLe s2.mem l 8 (syncNext (Memory.le s2.mem l 8) n))

/-- The locations of a command's sync words on some cores. -/
def Cmd.syncLocs (q : Cmd) (cores : List Nat) : List Nat := if shSync q.e = 0xFFFF then [] else cores.map fun c => spadLoc c (8 * shSync q.e)

/-- The tokens of a command's sync updates on some cores have come up (R233, R328). -/
def State.syncReady (s : State) (core : Nat) (q : Cmd) (cores : List Nat) : Bool :=
  (s.replaying? q.ctx).isNone || (q.syncLocs cores).all fun l => s.engReady q.ctx core 6 (2 ^ 60 + (l - spadBase))

/-! ### Copies and gathers -/

/-- Bytes of one row, granules of one row, and granules of a command. -/
def Cmd.perRow (q : Cmd) : Nat := shLen q.e / 16
def Cmd.granules (q : Cmd) : Nat := (shRows q.e + 1) * q.perRow

/-- The destinations of granule k of a copy or gather (R248, R249, R251). -/
def Cmd.dsts (q : Cmd) (k : Nat) : List EPlace :=
  let o := k / q.perRow * shDstr q.e + k % q.perRow * 16
  match q.op with
  | .g2s => [.sp (q.a.toNat + o) .dst]
  | .s2s => (s2sDests q.a).map fun d => .sp (d + o) .dst
  | .gthr => [.sp (q.a.toNat + k * 16) .dst]
  | _ => [.va (q.a + BitVec.ofNat 64 o)]

/-- The source of granule k of a copy; `i` is the index that a gather read for its row. -/
def Cmd.src (q : Cmd) (i k : Nat) : EPlace :=
  let o := k / q.perRow * shSstr q.e + k % q.perRow * 16
  match q.op with
  | .s2g => .sp (q.b.toNat + o) .src
  | .s2s => .sp (q.b.toNat + o) .src
  | .gthr => .va (q.b + BitVec.ofNat 64 (i * shLen q.e + k % q.perRow * 16))
  | _ => .va (q.b + BitVec.ofNat 64 o)

/-- The classes that CPY.X asks of its source and destination pages (R250). -/
def Cmd.srcCls (q : Cmd) : Option Nat := if q.op = .x then some (dbits q.e 63 62) else none
def Cmd.dstCls (q : Cmd) : Option Nat := if q.op = .x then some (dbits q.e 61 60) else none

/-- The cores that hold the sync words of a command: one for each destination (R247, R249). -/
def Cmd.syncCores (q : Cmd) (core : Nat) : List Nat :=
  let clu := cluOf core * 64
  match q.op with
  | .s2g => [clu + csaCore q.b]
  | .s2s => (s2sDests q.a).map fun d => clu + d / 2 ^ 19 % 64
  | .x => [core]
  | .fsend => [core]
  | _ => [clu + csaCore q.a]

/-- The sector or row in which granule k lands, at its first destination. -/
def State.landKey (s : State) (core : Nat) (q : Cmd) (k : Nat) : Option Nat :=
  match (q.dsts k).head? with
  | none => none
  | some p => match (s.engSpot core q p .w q.dstCls).1 with
    | .loc l _ => some (l / 64)
    | _ => none

/-- The granules of k's row that land in one sector or row with it. -/
def State.landUnit (s : State) (core : Nat) (q : Cmd) (k : Nat) : List Nat :=
  match s.landKey core q k with
  | none => [k]
  | some x =>
    let r := k / q.perRow * q.perRow
    (((List.range 7).filter (3 ≤ k + ·)).map (k + · - 3)).filter fun j =>
      decide (r ≤ j) && decide (j < r + q.perRow) && s.landKey core q j == some x

/-- A page holds the command: its fault is filed (R234). -/
def State.holdCmd (s : State) (core : Nat) (q : Cmd) (va : Dword) : State :=
  let s1 := s.fileFault q.ctx va 5 []
  s1.setCmd core { q with held := s1.faultFor q.ctx va }

/-- Every destination of a piece written, in turn, until one stops the command; how many were written. -/
def State.landAll (s : State) (core : Nat) (q : Cmd) (d : EData) : List (EPlace × Nat × List Nat) → Nat × Cmd × State
  | [] => (0, q, s)
  | (p, hint, ls) :: r =>
    let (q1, s1) := match p with
      | .sp a _ => s.engPut core q true a 0 ls d
      | .va a => s.engPut core q false a.toNat hint ls d
    if q1.ended then (0, q1, s1)
    else
      let (n, q2, s2) := s1.landAll core q1 d r
      (n + 1, q2, s2)

/-- The granule of a copy or gather that lands at offset o from its destination (R248, R251). -/
def Cmd.granuleAt (q : Cmd) (o : Nat) : Option Nat :=
  if q.op = .gthr then (if o / 16 < q.granules then some (o / 16) else none)
  else
    let r := if shRows q.e = 0 then 0 else o / shDstr q.e
    let i := o - r * shDstr q.e
    if r ≤ shRows q.e && i < shLen q.e then some (r * q.perRow + i / 16) else none

/-- The command still has to write the 16 bytes at a cluster scratchpad address (R233). -/
def Cmd.owes (q : Cmd) (x : Nat) : Bool :=
  let lands := fun (b : Nat) => decide (b ≤ x) && (q.granuleAt (x - b)).any fun k => !q.landed.contains k
  match q.op with
  | .g2s => lands q.a.toNat
  | .gthr => lands q.a.toNat
  | .s2s => (s2sDests q.a).any lands
  | .coll => decide (q.a.toNat ≤ x) && decide (x < q.a.toNat + collDst (dbits q.e 63 60) (min (fieldAt q.msg 0 4) 65536) (shLen q.e))
  | _ => false

/-- No earlier command of the core still has to write 16 bytes at a cluster scratchpad address (R233). -/
def State.writeOrder (s : State) (core : Nat) (q : Cmd) (x : Nat) : Bool :=
  (s.core core).cmds.all fun p => decide (q.id ≤ p.id) || p.ended || !(p.owes x)

/-- What a copy or gather has to note in all: its granules, and for each row of a gather the row itself (R405). -/
def Cmd.goal (q : Cmd) : Nat := q.granules + if q.op = .gthr then shRows q.e + 1 else 0

/-- The command with more noted as landed. -/
def Cmd.lands (q : Cmd) (l : List Nat) : Cmd := { q with landed := q.landed ++ l, ended := decide (q.goal ≤ q.landed.length + l.length) }

/-- The piece that holds granule k lands, whole in its sector or row (R248, R295): `i` is a gather's index and `bad` says that the
index's own row was poisoned. It waits for earlier commands of its core that write the same bytes, and in replay for its tokens (R233). -/
def State.landPiece (s : State) (core id i : Nat) (bad : Bool) (k : Nat) : State :=
  match s.cmd? core id with
  | none => s
  | some q =>
    if !(s.cmdRuns q) || q.landed.contains k || decide (q.granules ≤ k) then s
    else
      let js := s.landUnit core q k
      let ds := js.map q.dsts
      if !(ds.flatten.all fun p => match p with
          | .sp a _ => s.writeOrder core q a
          | .va _ => true) then s
      else match s.engSpots core q .r q.srcCls (js.map (q.src i)) with
      | (.inl (.hold va), s1) => s1.holdCmd core q va
      | (.inl (.stop n), s1) => s1.setCmd core (q.stop n)
      | (.inl (.loc _ _), s1) => s1
      | (.inr src, s1) =>
        match s1.engSpots core q .w q.dstCls ds.flatten with
        | (.inl (.hold va), s2) => s2.holdCmd core q va
        | (.inl (.stop n), s2) => s2.setCmd core (q.stop n)
        | (.inl (.loc _ _), s2) => s2
        | (.inr dst, s2) =>
          let w := (q.dsts k).length
          let outs := (List.range w).map fun m =>
            ((ds.headD []).getD m (.va 0), (dst.getD m (0, 0)).2, (List.range js.length).map fun j => (dst.getD (j * w + m) (0, 0)).1)
          let syncs := if q.op = .gthr then [] else q.syncCores core
          if !((src ++ dst).all fun p => s2.touchReady core q.ctx p.1) || !(s2.syncReady core q syncs) then s
          else
            let va := match q.src i k with
              | .va a => a.toNat
              | .sp _ _ => 0
            let (d, q1, s3) := s2.engRead core q va 16 none src
            let (n, q2, s4) := s3.landAll core q1 { d with poison := d.poison || bad } outs
            let q3 := if q2.ended then q2 else q2.lands js
            (syncs.take n).foldl (fun st c => st.syncAdd core q3 c (16 * js.length)) (s4.setCmd core q3)

/-- COPY_PIECE_LANDS (R248): the granules `first` to `first + count - 1` of a copy land; an event that cannot happen changes
nothing (log entry 8). -/
def execCopyPieceLands (core cmd first count : Nat) (s : State) : Host.Outcome State Fault Refusal :=
  match s.cmd? core cmd with
  | none => .next s
  | some q =>
    if q.op.eng ≠ .copy then .next s
    else .next ((List.range (min count (q.granules - first))).foldl (fun st i => st.landPiece core cmd 0 false (first + i)) s).reap

/-- All of a gathered row has landed. -/
def State.rowLanded (s : State) (core id row : Nat) : Bool :=
  (s.cmd? core id).any fun q => (List.range q.perRow).all fun j => q.landed.contains (row * q.perRow + j)

/-- The sync update of a gathered row, once all of it has landed, in replay at its token (R233, R405); with it the row is done. -/
def State.gatherSync (s : State) (core id row : Nat) : State :=
  match s.cmd? core id with
  | none => s
  | some q =>
    if q.ended || !(s.rowLanded core id row) || q.landed.contains (q.granules + row) || !(s.syncReady core q (q.syncCores core)) then s
    else
      let q1 := q.lands [q.granules + row]
      (q.syncCores core).foldl (fun st c => st.syncAdd core q1 c (shLen q.e)) (s.setCmd core q1)

/-- GATHER_ROW_LANDS (R405): the row's index is read, and its pieces land. -/
def execGatherRowLands (core cmd row : Nat) (s : State) : Host.Outcome State Fault Refusal :=
  match s.cmd? core cmd with
  | none => .next s
  | some q =>
    if q.op ≠ .gthr || !(s.cmdRuns q) || decide (shRows q.e < row) then .next s
    else if s.rowLanded core cmd row then .next (s.gatherSync core cmd row)
    else
      let list := csaOf core (4 * dbits q.e 17 0 + 4 * row)
      match s.engSpot core q (.sp list .src) .r none with
      | (.loc l h, s1) =>
        let (d, q1, s2) := s1.engRead core q 0 4 none [(l, h)]
        let i := leNat d.bytes
        let s3 := (List.range q.perRow).foldl (fun st j => st.landPiece core cmd i d.poison (row * q.perRow + j)) (s2.setCmd core q1)
        .next (s3.gatherSync core cmd row).reap
      | (.stop n, s1) => .next (s1.setCmd core (q.stop n)).reap
      | (_, s1) => .next s1.reap

/-! ### Matrix operations -/

/-- Every row of a scratchpad range read by a command (R294, R297). -/
def State.engScan (s : State) (core : Nat) (q : Cmd) (a len : Nat) : Cmd × State :=
  (List.range (len / 64)).foldl (fun (p : Cmd × State) i =>
    match p.2.readSector (spadOf (cluOf core) (a + 64 * i)) q.ctx 0 (.engine core) with
    | (.detected, u) => u.engDebit core p.1 false
    | (_, u) => (p.1, u)) (q, s)

/-- A poisoned row lies in a scratchpad range. -/
def State.spPoison (s : State) (clu a len : Nat) : Bool :=
  (List.range ((a + len - 1) / 64 - a / 64 + 1)).any fun i => s.hub.poison.contains (spadOf clu (a / 64 * 64 + 64 * i) / 64)

/-- The operands of a matrix operation: its pair, the K of its layout, the k of each partial, and whether it accumulates (R237,
R240). -/
structure MatJob where
  f : MatPair
  k : Nat
  step : Nat
  acc : Bool
  deriving DecidableEq, Repr

/-- The job of a matrix command (R164, R237, R240). -/
def Cmd.job (q : Cmd) : Option MatJob :=
  match q.op with
  | .mma f => some { f := f, k := MatPair.k f, step := MatPair.k f, acc := true }
  | .mmab f =>
    let x := blockOf (dbits q.e 1 0)
    let y := blockOf (dbits q.e 3 2)
    some { f := f, k := max x y, step := min x y, acc := false }
  | _ => none

/-- The n elements of size z of an operand from byte a on (R236). -/
def State.matElems (s : State) (clu a n z : Nat) : List Nat := (List.range n).map fun i => Memory.le s.mem (spadOf clu (a + i * z)) z

/-- Sixteen elements of row i of partial p land, from column 16 u on (R237, R240, R297, R421). -/
def State.matUnit (s : State) (core : Nat) (j : MatJob) (q : Cmd) (p i u : Nat) : Cmd × State :=
  let clu := cluOf core
  let a := q.a.toNat + (i * j.k + p * j.step) * MatPair.sA j.f
  let b := fun (n : Nat) => q.b.toNat + (n * j.k + p * j.step) * MatPair.sB j.f
  let c := (core % 64 + i / 64) * 2 ^ 19 + 4096 * dbits q.e 18 12 + 16384 * p + 256 * (i % 64) + 64 * u
  match s.engSpot core q (.sp c .dst) .w none with
  | (.loc l _, s1) =>
    let cols := (List.range 16).map (16 * u + ·)
    let row := s1.matElems clu a j.step (MatPair.sA j.f)
    let bad := s1.spPoison clu a (j.step * MatPair.sA j.f) || cols.any (fun n => s1.spPoison clu (b n) (j.step * MatPair.sB j.f)) ||
      (j.acc && s1.spPoison clu c 64)
    let x := cols.flatMap fun n =>
      leBytes 4 (matSum j.f row (s1.matElems clu (b n) j.step (MatPair.sB j.f)) (if j.acc then Memory.le s1.mem (l + 4 * (n % 16)) 4 else 0))
    s1.engPut core q true c 0 [l, l + 16, l + 32, l + 48] { bytes := x, poison := bad }
  | (.stop n, s1) => (q.stop n, s1)
  | (_, s1) => (q, s1)

/-- A matrix operation performed (R237, R240). -/
def State.matRun (s : State) (core : Nat) (j : MatJob) (q : Cmd) : Cmd × State :=
  let parts := j.k / j.step
  let off := 4096 * dbits q.e 18 12
  let ranges := [(q.a.toNat, 128 * j.k * MatPair.sA j.f), (q.b.toNat, 64 * j.k * MatPair.sB j.f)] ++
    if j.acc then [(core % 64 * 2 ^ 19 + off, 16384), ((core % 64 + 1) * 2 ^ 19 + off, 16384)] else []
  let (q1, s1) := ranges.foldl (fun (p : Cmd × State) r => p.2.engScan core p.1 r.1 r.2) (q, s)
  let (q2, s2) := (List.range (parts * 512)).foldl (fun (p : Cmd × State) n =>
    if p.1.ended then p else p.2.matUnit core j p.1 (n / 512) (n / 4 % 128) (n % 4)) (q1, s1)
  ({ q2 with ended := true }, s2)

/-- The tokens of the rows of C that a matrix command of a replaying context writes have come up (R233, R328). -/
def State.matReady (s : State) (core : Nat) (j : MatJob) (q : Cmd) : Bool :=
  (s.replaying? q.ctx).isNone || (List.range (j.k / j.step * 512)).all fun n =>
    s.touchReady core q.ctx (spadOf (cluOf core) (csaOf (core + n / 256 % 2) (4096 * dbits q.e 18 12 + 16384 * (n / 512) + 64 * (n % 256))))

/-- MATRIX_OPERATION (R238): an idle pair performs its next queued operation; it is busy until that completes. -/
def execMatrixOperation (pair : Nat) (s : State) : Host.Outcome State Fault Refusal :=
  if 384 ≤ pair then .fault .noSuchUnit else
  let core := 2 * pair
  match (s.core core).cmds.find? fun q => decide (q.op.eng = .matrix) && !q.ended with
  | none => .next s
  | some q =>
    match q.job with
    | none => .next s
    | some j =>
      if (s.core core).matrixBusy || s.hub.matrixHold || !(s.inPlace q) || !(s.matReady core j q) then .next s
      else
        let (q1, s1) := s.matRun core j q
        .next (((s1.setCmd core q1).onCore core fun k =>
          { k with matrixBusy := true, matrixNarrow := s.hub.narrowed.contains (dieOf core) }).bump core q.ctx 15 1).reap

/-! ### Completion -/

/-- A batch after one of its commands has completed with a status. -/
def Batch.done (b : Batch) (status : Nat) : Batch := { b with left := b.left - 1, status := mergeStatus b.status status }

/-- The batch of a command of a group that still runs completes the command; closed and empty, it retires (R241, R243). -/
def State.groupBatch (s : State) (core : Nat) (q : Cmd) : State :=
  match (s.grp q.gid).batches.find? fun b => b.num == q.batch && !b.retired with
  | none => s
  | some b =>
    let b1 := b.done q.status
    let (b2, s1) := if b1.closed && b1.left = 0 then s.retireBatch core q.ctx b1 else (b1, s)
    s1.onGrp q.gid fun g =>
      { g with batches := (g.batches.map fun x => if x.num = b.num && !x.retired then b2 else x).filter fun x => !(x.retired && x.status == 0) }

/-- The batch of a group that has ended (R243, R398): its status goes to the error ring. -/
def State.orphanBatch (s : State) (core : Nat) (q : Cmd) : State :=
  match (s.core core).orphans.find? fun o => o.1 == q.gid && o.2.2.2.num == q.batch with
  | none => s
  | some (key, c, ord, b) =>
    let b1 := b.done q.status
    let rest := (s.core core).orphans.filter fun o => !(o.1 == q.gid && o.2.2.2.num == q.batch)
    if b1.left = 0 then
      let (b2, s1) := (s.onCore core fun k => { k with orphans := rest }).retireBatch core c b1
      if b2.status = 0 then s1 else s1.unreported c core ord b2.num b2.status
    else s.onCore core fun k => { k with orphans := rest ++ [(key, c, ord, b1)] }

/-- A narrowed die whose monitors were quiet for a full arbiter interval leaves narrowed mode, at an operation boundary and below 100
degrees (R16, R20). -/
def State.unnarrow (s : State) (die : Nat) : State :=
  s.onHub fun h =>
    if h.clean.contains die && !(h.hot.contains die) then { h with narrowed := h.narrowed.filter (· != die), clean := h.clean.filter (· != die) } else h

/-- A command completes: it deregisters from its tiles, its batch takes its status, and crews that waited for it retire (R241, R243,
R398, R473). -/
def State.cmdDone (s : State) (core : Nat) (q : Cmd) : State :=
  let s1 := s.onCore core fun k => {
    k with
    cmds := k.cmds.filter (·.id != q.id), matrixBusy := k.matrixBusy && q.op.eng != .matrix }
  let s2 := if q.op.eng = .matrix then s1.unnarrow (dieOf core) else s1
  (if q.gid < 2 ^ 20 then s2.groupBatch core q else s2.orphanBatch core q).retireCrews

/-- ENGINE_COMMAND_COMPLETE (R241, R473): a command with nothing more to land completes. -/
def execEngineCommandComplete (core cmd : Nat) (s : State) : Host.Outcome State Fault Refusal :=
  match s.cmd? core cmd with
  | none => .next s
  | some q => .next (if q.ended then s.cmdDone core q else s).reap

end Sys2Proof.Machine
end

