-- ==== Sys2Proof/Machine/GroupEv.lean ====
section
/-! DEFINITION. Events of groups, cores and crews: outstanding accesses and results (R119, R219, R493), fetches (R80), run-ahead's end
(R206), ends of groups and of units (R27, R33), the chunk limit (R317), turns (R77) and bin timers (R68). An event that cannot happen
changes nothing (log entry 8). -/

namespace Sys2Proof.Machine

/-- A numbered outstanding access or result of a group is performed, if it is of the kind asked for and nothing orders it later. -/
def State.landFlight (s : State) (g i : Nat) (p : Flight → Bool) : State :=
  match (s.grp g).flights.find? fun f => f.id == i && p f with
  | none => s
  | some f => if s.mayPerform g f then (s.performG g f).reap else s

/-- VARIABLE_RESULT_LANDS (R119): a result that a switch marker waits for. -/
def execVariableResultLands (g i : Nat) (s : State) : Host.Outcome State Fault Refusal :=
  if 18432 ≤ g then .fault .noSuchUnit else .next (s.landFlight g i Flight.markerResult)

/-- SPLIT_LOAD_REPLY (R493): one lane's reply of a split-phase load. -/
def execSplitLoadReply (g i : Nat) (s : State) : Host.Outcome State Fault Refusal :=
  if 18432 ≤ g then .fault .noSuchUnit else .next (s.landFlight g i fun f => f.ctr.isSome)

/-- ACCESS_PERFORMED (R219): a store, fence or write-back. -/
def execAccessPerformed (g i : Nat) (s : State) : Host.Outcome State Fault Refusal :=
  if 18432 ≤ g then .fault .noSuchUnit else .next (s.landFlight g i fun f => f.dest.isEmpty && f.ctr.isNone)

/-- RUNAHEAD_END (R206): the awaited load returns, or is no longer outstanding, and the checkpoint is restored. -/
def execRunaheadEnd (g : Nat) (s : State) : Host.Outcome State Fault Refusal :=
  if 18432 ≤ g then .fault .noSuchUnit
  else match (s.grp g).runAhead with
    | none => .next s
    | some r =>
      if !((s.grp g).flights.any (·.seq == r.awaited)) then .next (s.unrun g)
      else match (s.grp g).flights.find? fun f => f.seq == r.awaited && s.mayPerform g f with
        | none => .next s
        | some f => .next (s.performG g f).reap

/-- The sector of the first instruction word from `va` on that the cluster does not hold comes in, over at most n words; an exhausting
detection raises EXHAUST (R80, R183, R294, R300). -/
def State.fetchIn (s : State) (g : Nat) (va : Dword) : Nat → State
  | 0 => s
  | n + 1 =>
    match s.spot g va .x false with
    | (.loc l hint _, s1) =>
      let k := cluOf (coreOf g)
      if (s1.sector k l).valid &&& byteMask (l % 64) 4 = byteMask (l % 64) 4 then s1.fetchIn g (va + 4) n
      else if (s1.grp g).runAhead.isSome then (if s1.failing g l then { s1 with cur := g }.runStop else (s1.fill k l (s1.grp g).ctx va.toNat hint (.group g)).2)
      else match s1.fill k l (s1.grp g).ctx va.toNat hint (.group g) with
        | (.detected, s2) =>
          match s2.bear g true with
          | (true, s3) => { s3 with cur := g }.raise 0x0A va (decide ((s3.grp g).atRep ≠ 0))
          | (false, s3) => s3
        | (_, s2) => s2
    | (_, s1) => s1

/-- FETCH_RETURN (R80): the missing instruction sector arrives and the group is ready again. -/
def execFetchReturn (g : Nat) (s : State) : Host.Outcome State Fault Refusal :=
  if 18432 ≤ g then .fault .noSuchUnit
  else if (s.grp g).wait.cond ≠ .fetch then .next s
  else .next ((s.onGrp g fun x => { x with wait := Wait.none }).fetchIn g (s.grp g).pc 6).reap

/-- GROUP_END (R27): a group without live lanes ends once its earlier accesses have been performed. -/
def execGroupEnd (g : Nat) (s : State) : Host.Outcome State Fault Refusal :=
  if 18432 ≤ g then .fault .noSuchUnit
  else if !(s.grp g).used || (s.grp g).live ≠ 0 then .next s
  else
    let s1 := (s.unrun g).drain g
    .next (if (s1.grp g).flights.isEmpty then s1.groupEnd g else s1).reap

/-- RETIREMENT_RELEASE_DONE (R33, R37, R535): once the unit's engine commands have completed, the unit counts at the next level, unless the
release ended its context; the top unit's launch owes its completion word. -/
def execRetirementReleaseDone (l lv u : Nat) (s : State) : Host.Outcome State Fault Refusal :=
  match s.launch? l with
  | none => .next s
  | some x =>
    if !(x.releases.contains (lv, u)) || s.unitBusy l lv u then .next s
    else .next (((s.releaseAt ((x.levels.getD lv { extent := 1, domain := 0, scope := 0, nofence := false }).scope)).reap.unitReleased l lv u 9).launchDue l).reap

/-- CHUNK_COUNT_LIMIT (R317): a chunk of 16,384 instructions ends with code 0. -/
def execChunkCountLimit (g : Nat) (s : State) : Host.Outcome State Fault Refusal :=
  if 18432 ≤ g then .fault .noSuchUnit
  else .next (if 16384 ≤ (s.grp g).chunk.count then s.endChunk g 0 else s)

/-- TURN_END (R77): the turn's count is reached, or its context has no ready group. -/
def execTurnEnd (core : Nat) (s : State) : Host.Outcome State Fault Refusal :=
  if 768 ≤ core then .fault .noSuchUnit
  else
    .next (s.thisTurn core)

/-- SPAWN_BIN_TIMER (R68): an open bin whose timer has run out closes; in replay a timer has no effect of its own (R328). -/
def execSpawnBinTimer (core bin : Nat) (s : State) : Host.Outcome State Fault Refusal :=
  if 768 ≤ core || 16 ≤ bin then .fault .noSuchUnit
  else
    let k := s.core core
    match k.bins.find? fun b => b.index == bin && b.closing == 0 with
    | none => .next s
    | some b =>
      let timer := dbits ((k.cfgOf b.ctx b.entry).getD 0) 23 0
      .next (if timer = 0 || decide ((k.cycles : Int) - b.start < timer) || (s.replaying? b.ctx).isSome then s else s.timerClose core b)

end Sys2Proof.Machine
end

