-- ==== Sys2Proof/Machine/Submit.lean ====
section
/-! DEFINITION. Submission queues and the dispatcher's fetch (R51 to R56), and what a launch waits for before and after its crews: its
INQ entry, its bound array and its OUTQ put (R36, R39, R302). -/

namespace Sys2Proof.Machine

/-! ### Submission queue registers -/

/-- Submission queue q of tenant t. -/
def State.subq (s : State) (t q : Nat) : SubQueue := vat (s.tenant t).queues q SubQueue.reset

/-- The state with a submission queue replaced. -/
def State.setSubq (s : State) (t q : Nat) (x : SubQueue) : State := s.onTenant t fun y => { y with queues := vset y.queues q x }

/-- Entries of a ring (R52). -/
def SubQueue.size (x : SubQueue) : Nat := 2 ^ (dbits x.qbase 3 0 + 4)

/-- An error of a queue: ERR and CODE are set, codes 0x01 and 0x03 clear EN, and the vector is raised (R52, R54). -/
def State.subqErr (s : State) (t q code : Nat) : State :=
  let x := s.subq t q
  let s1 := s.setSubq t q {
    x with
    qhead := withBits (withBits x.qhead 31 24 code) 15 15 1
    qctl := if code = 1 || code = 3 then withBits x.qctl 0 0 0 else x.qctl }
  if x.qctl.getLsbD 1 then s1.irq t (dbits x.qctl 18 8) else s1

/-- A write of QTAIL (R51, R52). -/
def State.writeQtail (s : State) (t q : Nat) (v : Dword) : State :=
  let x := s.subq t q
  if x.size ≤ dbits v 14 0 then s.subqErr t q 1 else s.setSubq t q { x with qtail := BitVec.ofNat 64 (dbits v 14 0) }

/-- A write of QBASE (R52). -/
def State.writeQbase (s : State) (t q : Nat) (v : Dword) : State :=
  let x := s.subq t q
  if x.qctl.getLsbD 0 then s.subqErr t q 2 else s.setSubq t q { x with qbase := withBits v 11 4 0 }

/-- A write of QCTL (R52, R55): setting EN starts a new order for AFTER. -/
def State.writeQctl (s : State) (t q : Nat) (v : Dword) : State :=
  let x := s.subq t q
  let c := withBits (withBits v 63 19 0) 7 2 0
  let start := c.getLsbD 0 && !x.qctl.getLsbD 0
  let s1 := s.setSubq t q { x with qctl := c, last := if start then none else x.last }
  if start && decide (12 ≤ dbits x.qbase 3 0) then s1.subqErr t q 1 else s1

/-- A write of QHEAD (R52): ERR is cleared with CODE. -/
def State.writeQhead (s : State) (t q : Nat) (v : Dword) : State :=
  let x := s.subq t q
  if v.getLsbD 15 then s.setSubq t q { x with qhead := withBits (withBits x.qhead 31 24 0) 15 15 0 } else s

/-- QTAIL_DOORBELL (R51, R52). -/
def execQtailDoorbell (t q : Nat) (v : Dword) (s : State) : Host.Outcome State Fault Refusal :=
  if 16 ≤ t || 8 ≤ q then .fault .noSuchUnit else .next (s.writeQtail t q v)

/-- QBASE_WRITE (R52). -/
def execQbaseWrite (t q : Nat) (v : Dword) (s : State) : Host.Outcome State Fault Refusal :=
  if 16 ≤ t || 8 ≤ q then .fault .noSuchUnit else .next (s.writeQbase t q v)

/-- QCTL_WRITE (R52, R55). -/
def execQctlWrite (t q : Nat) (v : Dword) (s : State) : Host.Outcome State Fault Refusal :=
  if 16 ≤ t || 8 ≤ q then .fault .noSuchUnit else .next (s.writeQctl t q v)

/-! ### The fetch -/

/-- HEAD passes one entry (R51). -/
def SubQueue.pass (x : SubQueue) (last : Option Nat) : SubQueue :=
  { x with qhead := withBits x.qhead 14 0 ((dbits x.qhead 14 0 + 1) % x.size), last := last }

/-- An entry is skipped with an error (R54). -/
def State.skipEntry (s : State) (t q code : Nat) : State := (s.setSubq t q ((s.subq t q).pass none)).subqErr t q code

/-- n doublewords of a page read by the dispatcher in a context: the bytes, or none at a poisoned sector; a detection debits (R294). -/
def State.unitRead (s : State) (c loc : Nat) (va : Dword) (n : Nat) : Option (List Byte) × State :=
  let (r, s1) := s.unitData c va.toNat .host loc n
  (if r.bad.isEmpty then some r.bytes else none, s1)

/-- LOG2N or TAIL of a queue is out of range (R54). -/
def SubQueue.outOfRange (x : SubQueue) : Bool := decide (12 ≤ dbits x.qbase 3 0) || decide (x.size ≤ dbits x.qtail 14 0)

/-- The entry at the head of a queue taken, or left where it is: an AFTER entry whose predecessor is unfinished, or one whose record page
is missing (R53 to R55); a queue out of range is turned off. -/
def State.takeEntry (s : State) (t q : Nat) : Bool × State :=
  let x := s.subq t q
  let b := Memory.bytes s.mem (hostLoc (x.qbase.toNat / 4096 * 4096 + 16 * dbits x.qhead 14 0)) 16
  let rec_ := BitVec.ofNat 64 (fieldAt b 0 8)
  let c := fieldAt b 8 2
  let flags := fieldAt b 0x0A 2
  if x.outOfRange then (true, s.subqErr t q 1)
  else if 64 ≤ c || !(s.ctx c).used || (s.ctx c).tenant ≠ t || 4 ≤ flags || fieldAt b 0x0C 4 ≠ 0 then (true, s.skipEntry t q 4)
  else if bitN flags 0 && x.last.any fun l => (s.launch? l).any (!·.finished) then (false, s)
  else if rec_.toNat % 256 ≠ 0 then (true, s.skipEntry t q 5)
  else match s.devSpot c rec_ .r with
    | (.park _, s1) => (false, s1.fileFault c rec_ 0 [])
    | (.loc l _ _, s1) =>
      match s1.unitRead c l rec_ 32 with
      | (none, s2) => (true, s2.skipEntry t q 5)
      | (some r, s2) =>
        let (n, s3) := s2.submit c r (some (t, q)) (bitN flags 1) rec_
        (true, s3.setSubq t q ((s3.subq t q).pass (some n)))
    | (_, s1) => (true, s1.skipEntry t q 5)

/-- Queues with entries, in the order of service: tenants after the last one served, and in each the queues after its last (R55). -/
def State.fetchOrder (s : State) : List (Nat × Nat) :=
  ((List.range 16).map fun i => (s.hub.lastTenant + 1 + i) % 16).flatMap fun t =>
    ((List.range 8).map fun i => (t, ((s.tenant t).lastQueue + 1 + i) % 8)).filter fun p =>
      let x := s.subq p.1 p.2
      x.qctl.getLsbD 0 && dbits x.qhead 14 0 != dbits x.qtail 14 0

/-- The first queue in order whose entry can be taken is served (R55). -/
def State.fetchEntry (s : State) (fail : Bool) : List (Nat × Nat) → State
  | [] => s
  | (t, q) :: r =>
    let (took, s1) := if fail then (true, s.skipEntry t q 3) else s.takeEntry t q
    if took then (s1.onTenant t fun y => { y with lastQueue := q }).onHub fun h => { h with lastTenant := t } else s1.fetchEntry fail r

/-- SUBMISSION_ENTRY_FETCH (R54 to R56): `fail` says that the ring read failed at the PCI Express interface. -/
def execSubmissionEntryFetch (fail : Bool) (s : State) : Host.Outcome State Fault Refusal :=
  if 256 ≤ s.admitted then .next s else .next (s.fetchEntry fail s.fetchOrder).reap

/-! ### INQ, BOUNDP and OUTQ -/

/-- INQ_TAKE (R39): an entry that no waiting get has a claim to is taken and discarded. -/
def execInqTake (l : Nat) (s : State) : Host.Outcome State Fault Refusal :=
  match s.launch? l with
  | none => .next s
  | some x =>
    if x.stage ≠ 0 || x.held ≠ 0 then .next s
    else match s.findQueue x.inq.toNat with
      | (.none, s1) => .next (s1.rejectLaunch l x 9).reap
      | (.park _, s1) => .next (s1.holdLaunch l x (queueVa x.inq.toNat) 2).reap
      | (.ok h, s1) =>
        if !(s1.slotFilled h) || !(s1.hubReady x.ctx 4 h.id) then .next s
        else
          let s2 := ((s1.tokenNow x.ctx 4 h.id .host none).setHeader { h with free := h.free + 1, head := (h.head + 1) % 2 ^ 64 }).serve h.id
          .next (s2.setLaunch l { x with stage := if x.boundp ≠ 0 then 1 else 2 }).reap

/-- The sixteen descriptors of a bound array: the bytes of each, a page that is missing, or none when it is unreadable (R36, R302). -/
def State.boundArray (s : State) (c : Nat) (p : Dword) : Nat → (Option Dword ⊕ List (List Byte)) × State
  | 0 => (.inr [], s)
  | n + 1 =>
    match s.boundArray c p n with
    | (.inl r, s1) => (.inl r, s1)
    | (.inr bs, s1) =>
      let va := p + BitVec.ofNat 64 (32 * n)
      match s1.devSpot c va .r with
      | (.loc l _ _, s2) =>
        match s2.unitRead c l va 4 with
        | (some b, s3) => (.inr (bs ++ [b]), s3)
        | (none, s3) => (.inl none, s3)
      | (.park _, s2) => (.inl (some va), s2)
      | (_, s2) => (.inl none, s2)

/-- The bound registers of a context loaded from an array; a refused entry leaves its register cleared and is logged (R302, R303). -/
def State.loadBounds (s : State) (c : Nat) (p : Dword) (bs : List (List Byte)) : State :=
  let s1 := (s.tokenNow c 2 (boundLoc c) .host none).onCtx c fun x =>
    { x with bounds := Vector.ofFn fun i => let b := nth bs i.val []
                                           if fieldAt b 0x1B 1 = 0 || boundRefused b then Bound.clear else boundOf b }
  bs.zipIdx.foldl (fun st e => if fieldAt e.1 0x1B 1 ≠ 0 && boundRefused e.1 then
    st.err (some c) { ErrRec.mk4 0x0A c 0 (p.toNat + 32 * e.2) with cls := 3 } else st) s1

/-- BOUND_ARRAY_LOAD (R36, R302): before the launch's first crew is placed. -/
def execBoundArrayLoad (l : Nat) (s : State) : Host.Outcome State Fault Refusal :=
  match s.launch? l with
  | none => .next s
  | some x =>
    if x.stage ≠ 1 || x.held ≠ 0 || !(s.hubReady x.ctx 2 (boundLoc x.ctx)) then .next s
    else match s.boundArray x.ctx x.boundp 16 with
      | (.inl none, s1) => .next (s1.rejectLaunch l x 10).reap
      | (.inl (some va), s1) => .next (s1.holdLaunch l x va 0).reap
      | (.inr bs, s1) => .next ((s1.loadBounds x.ctx x.boundp bs).setLaunch l { x with stage := 2 }).reap

/-- OUTQ_PUT (R39): a finished launch's entry goes into a free slot that no waiting put has a claim to. -/
def execOutqPut (l : Nat) (s : State) : Host.Outcome State Fault Refusal :=
  match s.launch? l with
  | none => .next s
  | some x =>
    if x.stage ≠ 5 || x.held ≠ 0 then .next s
    else match s.findQueue x.outq.toNat with
      | (.none, s1) => .next ((s1.err (some x.ctx) (ErrRec.mk4 0x10 x.ctx 0 (queueVa x.outq.toNat).toNat)).finishLaunch l x).reap
      | (.park _, s1) => .next (s1.holdLaunch l x (queueVa x.outq.toNat) 2).reap
      | (.ok h, s1) =>
        if !(s1.slotFree h) || !(s1.hubReady x.ctx 4 h.id) then .next s
        else match s1.putWord h x.ctx x.word with
          | (.park _, s2) => .next (s2.holdLaunch l x (h.slot h.tail) 1).reap
          | (.loc _ _ _, s2) => .next ((s2.serve h.id).finishLaunch l x).reap
          | (_, s2) => .next (s2.doom x.ctx 4).reap

end Sys2Proof.Machine
end

