-- ==== Sys2Proof/Machine/Fault.lean ====
section
/-! DEFINITION. Translation's own events: the end of a walk (R256 to R260, R264, R265, R275, R276), shoot-downs (R274, R275), the
fault service units and their answers (R266, R267, R269 to R271), migration (R227, R272) and the cellar (R183). -/

namespace Sys2Proof.Machine

/-! ### Walks -/

/-- A walk on a device unit's account: its entries are read at their homes, and none is kept (R257). -/
def State.devWalk (s : State) (c : Nat) (va : Dword) : WalkRes × State :=
  let (r, s1) := s.walk 12 c va
  (r, s1.onCluster 12 fun q => { q with wcache := [] })

/-- A page's outcome noted for the groups that wait on its walk (R265). -/
def State.noteWalk (s : State) (gids : List Nat) (page : Dword) (code : Nat) : State :=
  gids.foldl (fun st g => st.onGrp g fun x => { x with walked := (page, code) :: x.walked.filter (·.1 != page) }) s

/-- What a finished walk leaves (R258 to R260, R262, R265, R276): a walk of run-ahead only is dropped wherever it would park, fault or
trap, and at NRA; it counts as a walk when it is not (R337). -/
def State.walkEnds (s : State) (w : Walk) (r : WalkRes) : State :=
  match r with
  | .poison => if w.quiet then s else s.doom w.ctx 4
  | .bad => s.noteWalk w.gids w.page 1
  | .absent _ => s.noteWalk w.gids w.page 4
  | .leaf e =>
    if w.quiet then
      match s.leafCheck w.ctx .r e w.page with
      | .ok _ => if e.pte.getLsbD 7 then s else ((s.tlbFill w.core e).noteEnc w.ctx e.pte).bump w.core w.ctx 10 1
      | _ => s
    else if pteParks e.pte then s.noteWalk w.gids w.page (if pteState e.pte = 1 then 3 else 4)
    else ((s.tlbFill w.core e).noteEnc w.ctx e.pte).noteWalk w.gids w.page 0

/-- The range of a shoot-down overlaps n bytes at an address of context c. -/
def Shoot.covers (x : Shoot) (c base n : Nat) : Bool :=
  (x.ctx.isNone || x.ctx == some c) && decide (base < x.base + x.size) && decide (x.base < base + n)

/-- A walk's fill is discarded: a shoot-down completed since it started covers its page, or more than 16 have completed (R275). -/
def State.staleWalk (s : State) (w : Walk) : Bool :=
  let since := (s.hub.shootSeq.toNat + 2 ^ 32 - w.seq) % 2 ^ 32
  decide (16 < since) || s.hub.shot.any fun x => decide ((s.hub.shootSeq.toNat + 2 ^ 32 - x.seq) % 2 ^ 32 < since) && x.covers w.ctx w.page.toNat 65536

/-- WALK_COMPLETE (R264, R275): the oldest walk on a cluster's walkers ends, and its walker takes the next one, or it starts again. -/
def execWalkComplete (k : Nat) (s : State) : Host.Outcome State Fault Refusal :=
  if 12 ≤ k then .fault .noSuchUnit
  else match (s.cluster k).walks.find? (·.begun) with
    | none => .next (s.nextWalker k)
    | some w =>
      let others := fun (q : Cluster) => q.walks.filter (·.id != w.id)
      if s.staleWalk w then .next (s.onCluster k fun q => { q with walks := others q ++ [{ w with seq := s.hub.shootSeq.toNat }] })
      else
        let (o, s1) := s.walk k w.ctx w.page
        .next (((s1.onCluster k fun q => { q with walks := others q }).nextWalker k).walkEnds w o).reap

/-! ### Shoot-downs -/

/-- A shoot-down starts (R274). -/
def State.shoot (s : State) (ctx : Option Nat) (base size : Nat) (tenant : Option Nat) : State :=
  s.onHub fun h => {
    h with
    shoots := h.shoots ++ [{ id := h.nextShoot, ctx := ctx, base := base, size := size, tenant := tenant, seq := 0 }]
    nextShoot := h.nextShoot + 1 }

/-- Groups with an access outstanding in a shoot-down's range. -/
def State.shootWaits (s : State) (x : Shoot) : List Nat :=
  s.gids.filter fun g => (s.grp g).flights.any fun f => f.access && x.covers (s.grp g).ctx f.va.toNat f.width

/-- The raw locations that a leaf's page spans: first, and last. -/
def State.leafSpan (s : State) (e : TlbEntry) : Nat × Nat := (s.pageByte (leafAddr e.pte) 0, s.pageByte (leafAddr e.pte) (e.size - 1))

/-- What clusters hold written of the raw locations lo to hi goes home. -/
def State.writeBackSpan (s : State) (lo hi : Nat) : State :=
  (List.range 12).foldl (fun st k => ((st.cluster k).l2.filter fun (e : Nat × Sector) => decide (lo / 64 ≤ e.1) && decide (e.1 ≤ hi / 64)).foldl
    (fun u e => u.writeBack k (e.1 * 64)) st) s

/-- TLB entries that a shoot-down drops. -/
def State.shotEntries (s : State) (x : Shoot) : List TlbEntry :=
  (s.cores.flatMap fun (k : Nat × Core) => k.2.l1tlb) ++ (s.clusters.flatMap fun (k : Nat × Cluster) => k.2.l2tlb) |>.filter fun e =>
    x.covers e.ctx e.base e.size

/-- A shoot-down's effects (R274): accesses under dropped entries reach their homes, every overlapping entry goes, with the walk-cache
entries of the context; it takes the next sequence number, and its range is kept for R275. None while an access cannot be performed. -/
def State.shootDone (s : State) (x : Shoot) : Option State :=
  let s1 := (s.shootWaits x).foldl State.drain s
  if !(s1.shootWaits x).isEmpty then none
  else
    let s2 := (s1.shotEntries x).foldl (fun st e => st.writeBackSpan (st.leafSpan e).1 (st.leafSpan e).2) s1
    let keep := fun (e : TlbEntry) => !(x.covers e.ctx e.base e.size)
    let s3 : State := {
      s2 with
      cores := SMap.mapAll (fun (k : Core) => { k with l1tlb := k.l1tlb.filter keep }) Core.idle s2.cores
      clusters := SMap.mapAll (fun (k : Cluster) => {
        k with
        l2tlb := k.l2tlb.filter keep, wcache := k.wcache.filter fun w => !(x.covers w.ctx 0 (2 ^ 64)) && !(x.ctx == some w.ctx) })
        Cluster.empty s2.clusters }
    some (s3.onHub fun h => {
      h with
      shoots := h.shoots.filter (·.id != x.id), shootSeq := h.shootSeq + 1
      shot := ({ x with seq := (h.shootSeq + 1).toNat } :: h.shot).take 16 })

/-- A tenant's command is done or refused: its completion word is written, a release at SYS scope, and it is no longer pending (R350). -/
def State.cmdAnswer (s : State) (t code : Nat) : State :=
  match (s.tenant t).cmds with
  | [] => s
  | a :: r =>
    let done := Memory.le s.mem (hostLoc (a.toNat + 56)) 8
    let s1 := s.onTenant t fun x => { x with cmds := r }
    if done = 0 then s1
    else (s1.releaseAt 4).devWriteLoc (hostLoc done) (leBytes 8 (if code = 0 then 1 else 2 + 256 * code))

/-- SHOOTDOWN_COMPLETE (R274): `k` is the shoot-down's number. -/
def execShootdownComplete (k : Nat) (s : State) : Host.Outcome State Fault Refusal :=
  match s.hub.shoots.find? (·.id == k) with
  | none => .next s
  | some x => match s.shootDone x with
    | none => .next s
    | some s1 => .next (match x.tenant with
      | some t => s1.cmdAnswer t 0
      | none => s1).reap

/-! ### Entries and frames -/

/-- The entry of a table for an address, or the first of a larger leaf's run, with its location (R256, R259). -/
def State.entryOf (s : State) (va : Dword) (table lvl : Nat) : Option (Nat × Dword) :=
  if !(isLocal table && decide (s.fmtAt table = .p)) then none
  else
    let at_ := fun (i : Nat) => s.pageByte table (8 * i)
    let e : Dword := BitVec.ofNat 64 (Memory.le s.mem (at_ (vaIndex va lvl)) 8)
    let run := if pteSize e = 1 then 32 else if pteSize e = 2 then 16 else 1
    let l := at_ (vaIndex va lvl / run * run)
    some (l, BitVec.ofNat 64 (Memory.le s.mem l 8))

/-- The entry where the walk of an address ends, with its location: below `table` at a level, a larger leaf's first (R256 to R259). -/
def State.entryAt (s : State) (va : Dword) (table : Nat) : Nat → Option (Nat × Dword)
  | 0 => s.entryOf va table 0
  | n + 1 =>
    match s.entryOf va table (n + 1) with
    | none => none
    | some (l, e) => if e.getLsbD 0 && pteSize e == 3 then s.entryAt va (leafAddr e) n else some (l, e)

/-- The leaf of a page written at its home (R269, R272). -/
def State.setLeaf (s : State) (c : Nat) (va e : Dword) : State :=
  match s.entryAt va (s.ctx c).ptroot.toNat 3 with
  | some (l, _) => s.devWriteLoc l (leBytes 8 e.toNat)
  | none => s

/-- A leaf with another address and state; MOT is cleared in a RESIDENT one. -/
def leafWith (e : Dword) (addr state : Nat) : Dword :=
  let f := withBits (withBits e 51 13 (addr / 8192)) 2 1 state
  if state = 0 then withBits f 12 12 0 else f

/-- Data pages of a frame (R289). -/
def slotsIn : Cls → Nat
  | .p => 28
  | .d => 31
  | .u => 32

/-- Free slots of a tenant's pool of a class (R269, R350). -/
def State.poolOf (s : State) (t : Nat) (cls : Cls) : List Nat :=
  s.hub.pool.filter fun n => SMap.look s.hub.window (n / 32) 0 == t + 1 && decide (SMap.look s.hub.formats (n / 32) .p = cls)

/-- Every slot of frame f is free. -/
def frameFree (pool : List Nat) (cls : Cls) (f : Nat) : Bool := (List.range (slotsIn cls)).all fun k => pool.contains (32 * f + k)

/-- The slots that a page of a size takes, from slot n on. -/
def pageSlots (size n : Nat) : List Nat :=
  match size with
  | 0 => [n]
  | 1 => (List.range 32).map (n + ·)
  | _ => (List.range 16384).map (n + ·)

/-- A page of a leaf's size and class can start at slot n of a pool (R269). -/
def pageFits (pool : List Nat) (cls : Cls) (size n : Nat) : Bool :=
  match size with
  | 0 => true
  | 1 => n % 32 == 0 && frameFree pool cls (n / 32)
  | _ => n % 16384 == 0 && (List.range 512).all fun i => frameFree pool cls (n / 32 + i)

/-- Slots taken from the pool for a page, when it has them (R269); which of them is left open, and free (log entry 7). -/
def State.takeSlot (s : State) (t : Nat) (e : Dword) : Option (Nat × State) :=
  let cls := clsOf (dbits e 4 3)
  let pool := s.poolOf t cls
  let fits := pool.filter (pageFits pool cls (pteSize e))
  if fits.isEmpty then none
  else
    let (v, s1) := s.draw
    let n := nth fits (v.toNat % fits.length) 0
    some (n * 65536, s1.onHub fun h => { h with pool := h.pool.filter fun m => !((pageSlots (pteSize e) n).contains m) })

/-- Slots given back to the pool, unless retired (R269, R272, R309). -/
def State.giveSlot (s : State) (addr size : Nat) : State :=
  let back := (pageSlots size (addr / 65536)).filter fun n =>
    !(s.hub.pool.contains n) && !(s.hub.retiredSlots.contains (n * 65536)) && decide (n % 32 < slotsIn (SMap.look s.hub.formats (n / 32) .p))
  s.onHub fun h => { h with pool := h.pool ++ back }

/-- A page's n data bytes moved from one place to another as their homes read them (R227, R294). -/
def State.movePage (s : State) (c va src dst n : Nat) : State := s.moveData c va .host (s.pageByte src 0) (s.pageByte dst 0) n

/-- Every cluster's copies of the lines of a page leave, what is written going home (R227). -/
def State.dropPage (s : State) (addr n : Nat) : State :=
  let lo := s.pageByte addr 0 / 512
  let hi := s.pageByte addr (n - 1) / 512
  (List.range 12).foldl (fun st k =>
    (((st.cluster k).l2.map fun (e : Nat × Sector) => e.1 / 8).eraseDups.filter fun l => decide (lo ≤ l) && decide (l ≤ hi)).foldl
    (fun u l => u.dropLine k l) st) s

/-- Groups that wait on a word of a page read it again at its new place (R227). -/
def State.unwait (s : State) (addr n : Nat) : State :=
  let lo := s.pageByte addr 0
  let hi := s.pageByte addr (n - 1)
  s.gids.foldl (fun st g => st.onGrp g fun x => match x.wait.cond with
    | .word l _ _ => if lo ≤ l && decide (l ≤ hi) then { x with wait := Wait.none } else x
    | .sync l _ => if lo ≤ l && decide (l ≤ hi) then { x with wait := Wait.none } else x
    | _ => x) s

/-! ### The fault service unit -/

/-- A reply or event is held for the page of a fault (R345). -/
def FaultRec.holds (x : FaultRec) (w : HeldWrite) : Bool := w.ctx == x.ctx && x.covers w.addr

/-- Replies and events held for a page are written (R345). -/
def State.writeHeld (s : State) (x : FaultRec) : State :=
  let mine := s.hub.heldWrites.filter x.holds
  let s1 := s.onHub fun h => { h with heldWrites := h.heldWrites.filter fun w => !(x.holds w) }
  mine.foldl (fun st w => st.devMsg false (st.ctx x.ctx).tenant x.ctx w.addr w.data w.what w.core) s1

/-- A fault is resolved: the counts of its groups fall, and what else it held goes on (R36, R38, R234, R266). -/
def State.pageReady (s : State) (f : Nat) (x : FaultRec) : State :=
  let s1 := s.onHub fun h => { h with faults := SMap.del h.faults f }
  let s2 := (s1.gidsCtx x.ctx).foldl (fun st g => st.onGrp g fun y => { y with missing := y.missing.filter fun p => !(x.covers p.1) }) s1
  let s3 := s2.mapCmds fun q => if q.held = f + 1 then { q with held := 0 } else q
  let s4 := (s3.hub.launches.filter fun (e : Nat × Launch) => e.2.held == f + 1).foldl (fun st e =>
    let st1 := st.setLaunch e.1 { e.2 with held := 0 }
    match e.2.stage with
    | 4 => st1.completeLaunch e.1
    | 6 => st1.checkQueues e.1
    | _ => st1) s3
  s4.writeHeld x

/-- Submission entries whose records lie on an unresolvable page are skipped (R54). -/
def State.skipOn (s : State) (x : FaultRec) : State :=
  (s.fetchOrder).foldl (fun st p =>
    let q := st.subq p.1 p.2
    let b := Memory.bytes st.mem (hostLoc (q.qbase.toNat / 4096 * 4096 + 16 * dbits q.qhead 14 0)) 16
    if fieldAt b 8 2 == x.ctx && (st.ctx x.ctx).tenant == p.1 && x.covers (BitVec.ofNat 64 (fieldAt b 0 8)) && fieldAt b 0 1 == 0
    then st.skipEntry p.1 p.2 5 else st) s

/-- The page of a fault overlaps its context's save area (R278). -/
def State.inSave (s : State) (f : FaultRec) : Bool :=
  let x := s.ctx f.ctx
  decide (x.saveb.toNat < f.page.toNat + f.size) && decide (f.page.toNat < x.saveb.toNat + (x.scount + x.evslots) * 2 ^ 20)

/-- A fault is unresolvable (R36 to R39, R54, R234, R267, R284, R345): its groups raise MEMFAULT at their bundles, and what else it
held is given up as its own rule says. -/
def State.pageGivenUp (s : State) (f : Nat) (x : FaultRec) : State :=
  let s1 := s.onHub fun h => { h with faults := SMap.del h.faults f }
  let s2 := (s1.gidsCtx x.ctx).foldl (fun st g => st.onGrp g fun y =>
    if y.missing.any fun p => x.covers p.1 then { y with missing := [], givenUp := (x.page, x.size) :: y.givenUp } else y) s1
  let s3 := s2.mapCmds fun q => if q.held = f + 1 then { q.stop 0x13 with held := 0 } else q
  let s4 := (s3.hub.launches.filter fun (e : Nat × Launch) => e.2.held == f + 1).foldl (fun st e =>
    let y := { e.2 with held := 0 }
    match y.stage with
    | 1 => st.rejectLaunch e.1 y 10
    | 4 =>
      let st1 := st.err (some y.ctx) (ErrRec.mk4 0x0D y.ctx y.word.toNat y.donep.toNat)
      if y.outq = 0xFFFFFFFF then st1.finishLaunch e.1 y else st1.setLaunch e.1 { y with stage := 5 }
    | 5 => (st.err (some y.ctx) (ErrRec.mk4 0x10 y.ctx 0 (queueVa y.outq.toNat).toNat)).finishLaunch e.1 y
    | _ => st.rejectLaunch e.1 y 9) s3
  let lost := s4.hub.heldWrites.filter x.holds
  let s5 := lost.foldl (fun st w => st.replyLost (st.ctx x.ctx).tenant w.what w.core x.ctx w.addr.toNat false)
    (s4.onHub fun h => { h with heldWrites := h.heldWrites.filter fun w => !(x.holds w) })
  let s6 := s5.skipOn x
  if x.gids.isEmpty && s6.inSave x then s6.doom x.ctx 4 else s6

/-- The 32 bytes of a fault record (R270). -/
def FaultRec.bytes (x : FaultRec) (tag : Nat) : List Byte :=
  leBytes 8 x.page.toNat ++ leBytes 8 x.pte.toNat ++ leBytes 2 x.ctx ++ leBytes 1 x.kind ++ leBytes 1 x.why ++ leBytes 4 tag ++ leBytes 8 0

/-- The state with fault f replaced. -/
def State.setFault (s : State) (f : Nat) (x : FaultRec) : State := s.onHub fun h => { h with faults := SMap.ins h.faults f x }

/-- A fault's record is written to the tenant's ring and is open, or is held for the ring (R270, R352). -/
def State.escalate (s : State) (f : Nat) (x : FaultRec) : State :=
  let t := (s.ctx x.ctx).tenant
  let r := (s.tenant t).faultRing
  if r.fits 1 then
    let tag := r.seq % 2 ^ 32
    let (r1, m) := r.write s.mem (x.bytes tag)
    (((s.onTenant t fun y => { y with faultRing := r1 }).setMem m).setFault f { x with stage := 5, tag := tag }).irq t (dbits r.rctl 26 16)
  else s.setFault f { x with stage := 4 }

/-- The unit walks a fault's page and acts on what it finds (R269). -/
def State.service (s : State) (f : Nat) (x : FaultRec) : State :=
  let (r, s1) := s.devWalk x.ctx x.page
  match r with
  | .bad => s1.pageGivenUp f x
  | .poison => s1.doom x.ctx 4
  | .absent e => s1.escalate f { x with pte := e, why := 0 }
  | .leaf l =>
    let e := l.pte
    let y := { x with pte := e }
    if !pteParks e then s1.pageReady f x
    else if pteState e = 2 then s1.setFault f { y with stage := 3 }
    else match s1.takeSlot (s1.ctx x.ctx).tenant e with
      | none => s1.escalate f { y with why := 1 }
      | some (a, s2) => s2.setFault f { y with stage := if pteState e = 1 then 1 else 2, dst := a }

/-- The driver has answered a fault with outcome 0: the unit walks its page again, and escalates it again where it is still parkable, with WHY
0 for a non-present entry and 1 for any other (R270, log entry 25). -/
def State.answered (s : State) (f : Nat) (x : FaultRec) : State :=
  let (r, s1) := s.devWalk x.ctx x.page
  match r with
  | .bad => s1.pageGivenUp f x
  | .poison => s1.doom x.ctx 4
  | .absent e => s1.escalate f { x with pte := e, why := 0 }
  | .leaf l => if pteParks l.pte then s1.escalate f { x with pte := l.pte, why := 1 } else s1.pageReady f x

/-- FAULT_SERVICE (R269, R352): a new fault, one that waits for a migration, or one whose record is held for the ring. -/
def execFaultService (f : Nat) (s : State) : Host.Outcome State Fault Refusal :=
  match List.find? (fun (e : Nat × FaultRec) => e.1 == f) s.hub.faults with
  | none => .next s
  | some (_, x) =>
    if x.stage = 0 || x.stage = 3 then .next (s.service f x).reap
    else if x.stage = 4 then .next (s.escalate f x)
    else .next s

/-- A page has been brought into the slot taken for it: its entry becomes RESIDENT and its fault is resolved. An entry that has changed
meanwhile is served anew. -/
def State.arrived (s : State) (f : Nat) (x : FaultRec) (fill : State → State) : State :=
  match s.entryAt x.page (s.ctx x.ctx).ptroot.toNat 3 with
  | some (_, e) =>
    if e = x.pte then ((fill s).setLeaf x.ctx x.page (leafWith e x.dst 0)).pageReady f x
    else (s.giveSlot x.dst (pteSize x.pte)).service f x
  | none => (s.giveSlot x.dst (pteSize x.pte)).service f x

/-- The data bytes of a compressed page: those of its image; where no image is known they are left open, and free (log entry 7). -/
def State.cellarData (s : State) (img n : Nat) : List Byte × State :=
  match List.find? (fun (e : Nat × List Byte) => e.1 == img) s.hub.cellar with
  | some (_, b) => (b, s)
  | none => ((List.range (n / 8)).flatMap fun i => leBytes 8 (Config.free (s.fresh + i)).toNat, { s with fresh := s.fresh + n / 8 })

/-- CELLAR_EXPANSION_DONE (R183): the image is decompressed into the frame, bit for bit. -/
def execCellarExpansionDone (f : Nat) (s : State) : Host.Outcome State Fault Refusal :=
  match List.find? (fun (e : Nat × FaultRec) => e.1 == f) s.hub.faults with
  | none => .next s
  | some (_, x) =>
    if x.stage ≠ 1 then .next s
    else .next (s.arrived f x fun t =>
      let img := leafAddr x.pte
      let (b, t1) := t.cellarData img (pageBytes (pteSize x.pte))
      let t2 := t1.devWriteRow (t1.pageByte x.dst 0) b
      (t2.onHub fun h => { h with cellar := SMap.del h.cellar img }).giveSlot img (pteSize x.pte)).reap

/-- MIGRATE_ON_TOUCH_DONE (R269): the page is copied in from the host or a peer. -/
def execMigrateOnTouchDone (f : Nat) (s : State) : Host.Outcome State Fault Refusal :=
  match List.find? (fun (e : Nat × FaultRec) => e.1 == f) s.hub.faults with
  | none => .next s
  | some (_, x) =>
    if x.stage ≠ 2 then .next s
    else .next (s.arrived f x fun t =>
      let n := pageBytes (pteSize x.pte)
      let t1 := t.dropPage (leafAddr x.pte) n
      (t1.movePage x.ctx x.page.toNat (leafAddr x.pte) x.dst n).unwait (leafAddr x.pte) n).reap

/-- A write of a tenant's FRES (R270, R352). -/
def State.writeFres (s : State) (t : Nat) (v : Dword) : State :=
  match List.find? (fun (e : Nat × FaultRec) => e.2.stage == 5 && (s.ctx e.2.ctx).tenant == t && e.2.tag == dbits v 31 0) s.hub.faults with
  | none => s.onTenant t fun x => { x with faultRing := { x.faultRing with rstat := withBits x.faultRing.rstat 63 63 1 } }
  | some (f, x) => if v.getLsbD 32 then s.pageGivenUp f x else s.answered f x

/-- FRES_WRITE (R270, R352): `ring` is true for the error ring, whose FRES is ignored. -/
def execFresWrite (t : Nat) (ring : Bool) (v : Dword) (s : State) : Host.Outcome State Fault Refusal :=
  if 16 ≤ t then .fault .noSuchUnit else if ring then .next s else .next (s.writeFres t v).reap

/-! ### Migration and compression by firmware -/

/-- A RESIDENT page of a context that firmware may move: its entry. -/
def State.resident? (s : State) (c : Nat) (page : Dword) : Option Dword :=
  match (s.devWalk c page).1 with
  | .leaf l => if pteState l.pte = 0 && isLocal (leafAddr l.pte) then some l.pte else none
  | _ => none

/-- The slot can take a page of a leaf: free in its tenant's pool, of the leaf's class and alignment. -/
def State.canMove (s : State) (c : Nat) (e : Dword) (dst : Nat) : Bool :=
  let cls := clsOf (dbits e 4 3)
  let pool := s.poolOf (s.ctx c).tenant cls
  dst % 65536 == 0 && (pageSlots (pteSize e) (dst / 65536)).all pool.contains && pageFits pool cls (pteSize e) (dst / 65536)

/-- Faults of a page that wait for its migration are served again (R269). -/
def State.moved (s : State) (c : Nat) (page : Dword) : State :=
  (s.hub.faults.filter fun (e : Nat × FaultRec) => e.2.ctx == c && e.2.page == page && e.2.stage == 3).foldl (fun st e => st.service e.1 e.2) s

/-- Bytes of the larder (R313). -/
def Session.size (x : Session) : Nat := 2 ^ dbits x.lsize 5 0

/-- The page of n bytes at an address of a context holds part of the larder of its open session (R314, R325). -/
def State.inLarder (s : State) (c a n : Nat) : Bool :=
  match s.session? c with
  | none => false
  | some (t, k) =>
    let x := s.sess t k
    decide (a < x.lbase.toNat + x.size) && decide (x.lbase.toNat < a + n)

/-- PAGE_MIGRATION (R227, R272, R314): firmware's migration of the page at `va` into the slot `dst` starts; once its shoot-down has
completed, the page moves, its entry is RESIDENT again, and the old slot is free. -/
def execPageMigration (ctx : Nat) (va dst : Dword) (s : State) : Host.Outcome State Fault Refusal :=
  let page : Dword := BitVec.ofNat 64 (s.pageSpan ctx va).1
  match s.hub.migrations.find? fun m => m.ctx == ctx && m.page == page with
  | some m =>
    if s.hub.shoots.any (·.id == m.shoot) then .next s
    else
      let s1 := s.onHub fun h => { h with migrations := h.migrations.filter (· != m) }
      match s1.entryAt page (s1.ctx ctx).ptroot.toNat 3 with
      | some (_, e) =>
        if pteState e ≠ 2 then .next (s1.giveSlot m.dst (pteSize e)).reap
        else
          let n := pageBytes (pteSize e)
          let old := leafAddr e
          let s2 := ((s1.dropPage old n).movePage ctx page.toNat old m.dst n).setLeaf ctx page (leafWith e m.dst 0)
          .next (((s2.unwait old n).giveSlot old (pteSize e)).moved ctx page).reap
      | none => .next s1.reap
  | none =>
    match s.resident? ctx page with
    | none => .next s
    | some e =>
      let n := pageBytes (pteSize e)
      if !(s.canMove ctx e dst.toNat) || s.inLarder ctx page.toNat n then .next s
      else
        let s1 := (s.setLeaf ctx page (withBits e 2 1 2)).onHub fun h => {
          h with
          migrations := h.migrations ++ [{ ctx := ctx, page := page, dst := dst.toNat, shoot := h.nextShoot }]
          pool := h.pool.filter fun m => !((pageSlots (pteSize e) (dst.toNat / 65536)).contains m) }
        .next (s1.shoot (some ctx) page.toNat n none)

/-- The data bytes of a page from its homes. -/
def State.pageData (s : State) (addr n : Nat) : List Byte := (List.range (n / 8)).flatMap fun i => Memory.bytes s.mem (s.pageByte addr (8 * i)) 8

/-- No sector of a page is poisoned or marked. -/
def State.pageClean (s : State) (addr n : Nat) : Bool :=
  (List.range (n / 8)).all fun i => !(s.hub.poison.contains (s.pageByte addr (8 * i) / 64)) && SMap.look s.hub.marks (s.pageByte addr (8 * i) / 64) 0 == 0

/-- CELLAR_COMPRESSION (R183, R314): a cold page is compressed into an image, its entry becomes CELLAR, and no translation of it is left. A page
whose accesses cannot all be performed, or with a sector in error, is left alone. -/
def execCellarCompression (ctx : Nat) (va img : Dword) (s : State) : Host.Outcome State Fault Refusal :=
  let page : Dword := BitVec.ofNat 64 (s.pageSpan ctx va).1
  match s.resident? ctx page with
  | none => .next s
  | some e =>
    let n := pageBytes (pteSize e)
    let old := leafAddr e
    let a := img.toNat
    let x : Shoot := { id := s.hub.nextShoot, ctx := some ctx, base := page.toNat, size := n, tenant := none, seq := 0 }
    if (a ≠ old && !(s.canMove ctx e a)) || s.inLarder ctx page.toNat n then .next s
    else match (s.onHub fun h => { h with nextShoot := h.nextShoot + 1 }).shootDone x with
      | none => .next s
      | some s1 =>
        let s2 := s1.dropPage old n
        if !(s2.pageClean old n) then .next s
        else
          let s3 := ((s2.setLeaf ctx page (leafWith e a 1)).unwait old n).onHub fun h => { h with cellar := SMap.ins h.cellar a (s2.pageData old n) }
          .next (if a = old then s3 else
            (s3.onHub fun h => { h with pool := h.pool.filter fun m => !((pageSlots (pteSize e) (a / 65536)).contains m) }).giveSlot old (pteSize e)).reap

end Sys2Proof.Machine
end

