-- ==== Sys2Proof/Machine/Firmware.lean ====
section
/-! DEFINITION. What firmware does to storage: the second-touch filters (R179), pin swaps (R306), pinned sectors (R307), frame formats
(R292), and injected errors in test mode (R312, R531). -/

namespace Sys2Proof.Machine

/-- FILTER_CLEAR (R179): the filter and the count of misses are cleared together once the count has reached 2^W. -/
def execFilterClear (slice : Nat) (s : State) : Host.Outcome State Fault Refusal :=
  if 96 ≤ slice then .fault .noSuchUnit
  else
    let x := SMap.look s.hub.slices slice Slice.reset
    if x.misses < 2 ^ x.w then .next s
    else .next (s.onHub fun h => { h with slices := SMap.put h.slices slice { x with filter := [], misses := 0, clears := x.clears + 1 } Slice.reset })

/-- PIN_SWAP (R306): a failing data pin of a channel is mapped to one of its four redundant lanes; without a free one it stays in place.
What ADDR and DETAIL of the record hold is left open, and free (log entry 7). -/
def execPinSwap (stack channel pin : Nat) (s : State) : Host.Outcome State Fault Refusal :=
  if 12 ≤ stack || 32 ≤ channel || 64 ≤ pin then .fault .noSuchUnit
  else if s.hub.swaps.contains (stack, channel, pin) || 4 ≤ (s.hub.swaps.filter fun e => e.1 == stack && e.2.1 == channel).length then .next s
  else
    let (a, s1) := s.draw
    let (d, s2) := s1.draw
    .next ((s2.onHub fun h => { h with swaps := h.swaps ++ [(stack, channel, pin)] }).err none
      { addr := a.toNat, va := 0, ctx := 0xFFFF, kind := 0x08, cls := 3, unit := 0x3000 + stack, detail := d.toNat % 65536, lanes := 0 })

/-- A sector pinned in its line's way of the L3 set (R180, R307): it is read into the way, with what R294 makes of a stored error, on the account
of the tenant in whose window its frame lies. -/
def State.pinSector (s : State) (loc : Nat) : State :=
  let held := s.hub.pinned.any fun k => k / 8 == loc / 512
  let t : Nat := SMap.look s.hub.window (loc / 2 ^ 21) 0
  let s0 := (s.readSector loc (if t = 0 then 80 else 63 + t) 0 .host).2
  let s1 := if held then s0 else s0.lockWay none loc
  (s1.onSlice loc fun x => { x with lines := if x.lines.contains (loc / 512) then x.lines else loc / 512 :: x.lines }).onHub fun h =>
    { h with pinned := loc / 64 :: h.pinned, marks := SMap.put h.marks (loc / 64) 0 0 }

/-- SECTOR_PIN (R307): the sector goes into a locked way of its L3 set; where that would be the set's third, the page is retired
instead (R309). The way is left open, and free. -/
def execSectorPin (pa : Nat) (s : State) : Host.Outcome State Fault Refusal :=
  if !isLocal pa || s.hub.pinned.contains (pa / 64) then .next s
  else
    let r : ErrRec := {
      addr := pa / 64 * 64, va := 0, ctx := 0xFFFF, kind := 0x09, cls := clsCode (s.fmtAt pa), unit := 0x2000 + sliceOf pa, detail := 0, lanes := 0 }
    if (s.hub.pinned.any fun k => k / 8 == pa / 512) || s.lockedWays none pa < 2 then
      let (w, s1) := s.draw
      .next ((s1.pinSector pa).err none { r with detail := w.toNat % 16 * 4096 + cacheSet none pa })
    else .next ((s.retireSlot (s.slotAt pa)).err none { r with kind := 0x06, unit := unitOf pa })

/-! ### Formats -/

/-- The frame lies in, or overlaps, n bytes at an address. -/
def frameIn (f a n : Nat) : Bool := decide (a < (f + 1) * 2 ^ 21) && decide (f * 2 ^ 21 < a + n)

/-- An entry of a table at a level, or of one below it, names a slot of frame f (R292). -/
def State.namesFrame (s : State) (f table : Nat) : Nat → Bool
  | 0 => (List.range 1024).any fun i =>
    let e : Dword := BitVec.ofNat 64 (Memory.le s.mem (s.pageByte table (8 * i)) 8)
    e.getLsbD 0 && frameIn f (leafAddr e) (pageBytes (pteSize e))
  | n + 1 => (List.range 1024).any fun i =>
    let e : Dword := BitVec.ofNat 64 (Memory.le s.mem (s.pageByte table (8 * i)) 8)
    e.getLsbD 0 && (if pteSize e = 3 then frameIn f (leafAddr e) 8192 || s.namesFrame f (leafAddr e) n else frameIn f (leafAddr e) (pageBytes (pteSize e)))

/-- Frame f is in use: a PTE of a context names a slot of it, or it holds a cellar image (R292, R351). -/
def State.frameHeld (s : State) (f : Nat) : Bool :=
  (s.ctxs.any fun (c : Nat × Ctx) => c.2.used && s.namesFrame f c.2.ptroot.toNat 3) ||
  s.hub.cellar.any fun (e : Nat × List Byte) => frameIn f e.1 e.2.length

/-- FORMAT (R292): a frame that nothing names takes a new format, every line of it is zero, and every mapping is shot down (R273). Its
free slots stay free, as many as the format has. -/
def execFormat (frame : Nat) (fmt : Cls) (s : State) : Host.Outcome State Fault Refusal :=
  if 393216 ≤ frame then .fault .noSuchUnit
  else if s.frameHeld frame then .next s
  else
    let inside := fun (k n : Nat) => decide (k / n = frame)
    let free := s.hub.pool.any fun k => inside k 32
    let s1 : State := {
      s with
      mem := s.mem.filter fun c => !inside c.1 (2 ^ 21)
      clusters := SMap.mapAll (fun (k : Cluster) => { k with l2 := k.l2.filter fun (e : Nat × Sector) => !inside e.1 32768 }) Cluster.empty s.clusters }
    let s2 := s1.onHub fun h => {
      h with
      formats := SMap.put h.formats frame fmt .p
      poison := h.poison.filter fun k => !inside k 32768
      marks := h.marks.filter fun (e : Nat × Nat) => !inside e.1 32768
      l3marks := h.l3marks.filter fun (e : Nat × Nat) => !inside e.1 32768
      pool := (h.pool.filter fun k => !inside k 32) ++
        (if free then ((List.range (slotsIn fmt)).map (32 * frame + ·)).filter fun k => !(h.retiredSlots.contains (k * 65536)) else []) }
    .next (s2.shoot none 0 (2 ^ 64) none)

/-! ### Test mode -/

/-- A context of an enclave exists (R312, R348). -/
def State.anyEnclave (s : State) : Bool := s.ctxs.any fun (c : Nat × Ctx) => c.2.used && c.2.encl

/-- TEST_MODE_ENTRY (R312): refused while any enclave context exists. -/
def execTestModeEntry (s : State) : Host.Outcome State Fault Refusal :=
  if s.anyEnclave then .next s else .next (s.onHub fun h => { h with testMode := true })

/-- INJECT (R312, R531): in test mode one sector or row is marked for an error, or armed in an L2. -/
def execInject (site : Site) (uncorr dirty : Bool) (s : State) : Host.Outcome State Fault Refusal :=
  let m := if uncorr then 2 else 1
  if !s.hub.testMode then .next s
  else match site with
    | .l2 k pa =>
      if 12 ≤ k then .fault .noSuchUnit
      else if !isLocal pa then .next s
      else if dirty then .next (s.onCluster k fun q => { q with armed := (pa / 64, uncorr) :: q.armed.filter fun e => e.1 != pa / 64 })
      else if (s.sector k pa).valid = 0 then .next s
      else .next (s.setSector k pa { s.sector k pa with mark := m })
    | .l3 pa => .next (if isLocal pa then s.onHub fun h => { h with l3marks := SMap.put h.l3marks (pa / 64) m 0 } else s)
    | .hbm pa => .next (if isLocal pa then s.onHub fun h => { h with marks := SMap.put h.marks (pa / 64) m 0 } else s)
    | .row core off =>
      if 768 ≤ core || usable (s.core core).format ≤ off then .fault .noSuchUnit
      else .next (s.onHub fun h => { h with marks := SMap.put h.marks (s.secKey (spadLoc core off)) m 0 })

end Sys2Proof.Machine
end

