-- ==== Sys2Proof/Machine/Session.lean ====
section
/-! DEFINITION. Sessions (R313, R314, R330), the larder (R325 to R327), enclave logs (R332), and the log that a replay reads (R328, R329). -/

namespace Sys2Proof.Machine

/-! ### The larder -/

/-- The context of a session. -/
def Session.ctx (x : Session) : Nat := dbits x.lctl 15 10

/-- The virtual address of running byte n (R325). -/
def Session.at_ (x : Session) (n : Nat) : Dword := x.lbase + BitVec.ofNat 64 (n % x.size)

/-- Bytes of the PAD before a record of n bytes (R325). -/
def Session.pad (x : Session) (n : Nat) : Nat := if x.size < x.lwr.toNat % x.size + n then x.size - x.lwr.toNat % x.size else 0

/-- Writing n bytes would leave fewer than `keep` bytes of the ring free (R327). -/
def Session.full (x : Session) (n keep : Nat) : Bool := decide (x.size < x.lwr.toNat + x.pad n + n - x.lrd.toNat + keep)

/-- Doublewords written in the ring from a running byte on; none when a page may not be written. -/
def State.ringPut (s : State) (x : Session) (n : Nat) (b : List Byte) : Option State :=
  (List.range (b.length / 8)).foldl (fun (o : Option State) i => o.bind fun st => match st.devSpot x.ctx (x.at_ (n + 8 * i)) .w with
    | (.loc l _ _, s1) => some (s1.devWriteLoc l ((b.drop (8 * i)).take 8))
    | _ => none) (some s)

/-- n bytes of the ring from running byte a on; none when a page may not be read, or a sector is poisoned (R294). -/
def State.ringGet (s : State) (x : Session) (a n : Nat) : Option (List Byte) :=
  (List.range (n / 8)).foldl (fun (o : Option (List Byte)) i => o.bind fun b => match s.devSpot x.ctx (x.at_ (a + 8 * i)) .r with
    | (.loc l _ _, s1) => if s1.meetsError l x.ctx .host && (s1.readSector l x.ctx 0 .host).1 == .poison then none else some (b ++ s1.devReadLoc l 8)
    | _ => none) (some [])

/-- The key stream of an enclave session from a running byte on (R332, log entry 15): it encrypts and decrypts alike. -/
def Session.sealed (x : Session) (n : Nat) (r : List Byte) : List Byte :=
  r.zipIdx.map fun p => if p.2 < 2 then p.1 else p.1 ^^^ nth (Config.crypto 9 (leBytes 8 x.nonce.toNat ++ leBytes 8 n)) p.2 0

/-- A record, with its PAD, written at WR, which advances (R325, R326); in an enclave session its bytes behind the header are encrypted,
but for a SEAL's. -/
def State.ringRecord (s : State) (t k : Nat) (r : List Byte) : Option State :=
  let x := s.sess t k
  let p := x.pad r.length
  let w := x.lwr.toNat + p
  let pad := if p = 0 then [] else leBytes p (0x1F * 2048 + (p / 8 - 1) * 64 + recClu r * 4)
  let body := if (s.ctx x.ctx).encl && recKind r != 0x1C then x.sealed w r else r
  ((s.ringPut x x.lwr.toNat pad).bind fun s1 => s1.ringPut x w body).map fun s2 =>
    s2.onSess t k fun y => { y with lwr := BitVec.ofNat 64 (w + r.length), unsealed := if recKind r = 0x1C then 0 else y.unsealed + p + r.length }

/-- The SEAL of what has been written since the last one (R332). -/
def State.sealRecord (s : State) (t k : Nat) : Option State :=
  let x := s.sess t k
  (s.ringGet x (x.lwr.toNat - x.unsealed) x.unsealed).bind fun b =>
    s.ringRecord t k (mkRec 0x1C 24 15 [(16, 48, x.unsealed), (64, 128, leNat ((Config.crypto 10 (leBytes 8 x.nonce.toNat ++ b)).take 16))])

/-- A HORIZON record (R327). -/
def horizonRec (n : Nat) : List Byte := mkRec 0x1D 16 15 [(64, 64, n)]

/-- The oldest record of a recorder goes into the ring, behind the hub's SESSION, or the ring's policy decides (R324, R326, R327, R332).
Nothing happens when the larder cannot be written. -/
def State.spill (s : State) (t k u : Nat) : State :=
  let x := s.sess t k
  match vat x.bufs u [] with
  | [] => s
  | r :: rest =>
    let drop := fun (y : Session) => { y with bufs := vset y.bufs u rest }
    if u ≠ 12 && (vat x.bufs 12 []).any (recKind · == 0x1E) then s
    else if x.horizon then s.onSess t k fun y => { drop y with dropped := y.dropped + 1 }
    else
      let due := (s.ctx x.ctx).encl && decide (x.unsealed ≠ 0) && decide (4096 < x.unsealed + x.pad r.length + r.length)
      let next := if due then mkRec 0x1C 24 15 [] else r
      if x.full next.length 64 then
        if dbits x.lctl 3 2 = 1 then
          match s.ringRecord t k (horizonRec 1) with
          | none => s
          | some s1 => s1.onSess t k fun y => { drop y with dropped := 1, horizon := true, lstat := withBits y.lstat 0 0 1 }
        else s.onSess t k fun y => { y with lstat := withBits y.lstat 1 1 (if y.closing then 0 else 1) }
      else if due then (s.sealRecord t k).getD s
      else match s.ringRecord t k r with
        | none => s
        | some s1 => s1.onSess t k drop

/-- RECORDER_SPILL (R326): recorder `u`, a cluster's or 12 for the hub, of every open recording. -/
def execRecorderSpill (u : Nat) (s : State) : Host.Outcome State Fault Refusal :=
  if 13 ≤ u then .fault .noSuchUnit
  else .next ((List.range 64).foldl (fun st i =>
    let x := st.sess (i / 4) (i % 4)
    if x.en && !x.replay then st.spill (i / 4) (i % 4) u else st) s).reap

/-! ### Opening and closing -/

/-- A larder page is RESIDENT, class P and writable (R314). -/
def State.larderPage (s : State) (c : Nat) (va : Dword) : Bool :=
  match (s.devWalk c va).1 with
  | .leaf e => pteState e.pte == 0 && dbits e.pte 4 3 == 0 && (match s.leafCheck c .w e va with
    | .ok _ => true
    | _ => false)
  | _ => false

/-- The code that refuses EN; 0 for none (R314, R527). -/
def State.openCode (s : State) (t k : Nat) : Nat :=
  let x := s.sess t k
  let c := x.ctx
  let n := dbits x.lsize 5 0
  if n < (if s.hub.testMode then 12 else 30) || 36 < n || 1 < dbits x.lctl 3 2 then 1
  else if !(s.ctx c).used || SMap.look s.hub.allot c 0 ≠ t + 1 then 5
  else if !((List.range ((x.size + 65535) / 65536)).all fun i => s.larderPage c (x.lbase + BitVec.ofNat 64 (65536 * i))) then 2
  else if (s.session? c).isSome || s.hub.crews.any fun e => e.2.ctx == c && e.2.away == 0 then 3
  else if (s.ctx c).encl && !((s.ctx c).policy.getLsbD 0) then 4
  else 0

/-- LSTAT's CODE set. -/
def Session.code (x : Session) (n : Nat) : Session := { x with lstat := withBits x.lstat 15 8 n }

/-- What a replay reads of the ring: RD, the records for the log, and a divergence code or 0. -/
structure Parse where
  rd : Nat
  log : List (List Byte)
  code : Nat
  deriving DecidableEq, Repr

/-- A kind of R323's table. -/
def knownKind (n : Nat) : Bool := (decide (1 ≤ n) && decide (n ≤ 12)) || (decide (0x1C ≤ n) && decide (n ≤ 0x1F))

/-- A kind that the replaying context has to meet, or that ends its replay. -/
def keptKind (n : Nat) : Bool := (decide (1 ≤ n) && decide (n ≤ 12)) || n == 0x1D

/-- Records of the ring from running byte a on, at most n (R323, R328, R332): `acc` and `raw` are what has been read since RD; they
count at once, or in an enclave session once a SEAL over them verifies. -/
def State.parse (s : State) (x : Session) (encl : Bool) (p : Parse) (a : Nat) (acc : List (List Byte)) (raw : List Byte) : Nat → Parse
  | 0 => p
  | n + 1 =>
    if x.lwr.toNat < a + 8 then p
    else match s.ringGet x a 8 with
      | none => p
      | some h =>
        let len := 8 * (recField h 6 5 + 1)
        let kind := recKind h
        if !(knownKind kind) then { p with code := 5 }
        else if x.lwr.toNat < a + len then p
        else match s.ringGet x a len with
          | none => p
          | some b =>
            if encl then
              if kind = 0x1C then
                if Config.verifies 1 (leBytes 8 x.nonce.toNat ++ raw ++ b) then
                  s.parse x encl { p with rd := a + len, log := p.log ++ acc } (a + len) [] [] n
                else { p with code := 7 }
              else s.parse x encl p (a + len) (if keptKind kind then acc ++ [x.sealed a b] else acc) (raw ++ b) n
            else s.parse x encl { p with rd := a + len, log := if keptKind kind then p.log ++ [b] else p.log } (a + len) [] [] n

/-- The order numbers that the chunk records of a log name are the ones they take (R319, R323, R329). -/
def ordersRight (order : Vector Nat 12) : List (List Byte) → Bool
  | [] => true
  | r :: l =>
    let clu := recClu r
    if recKind r = 0x01 || recKind r = 0x02 then
      (recKind r = 0x01 || recField r 64 48 == vat order clu 0) && ordersRight (vset order clu (vat order clu 0 + 1)) l
    else ordersRight order l

/-- A replay reads on in the ring, up to LWR (R328, R329). -/
def State.readLog (s : State) (t k : Nat) : State :=
  let y := s.sess t k
  let p := s.parse y (s.ctx y.ctx).encl { rd := y.lrd.toNat, log := [], code := 0 } y.lrd.toNat [] [] ((y.lwr.toNat - y.lrd.toNat) / 8 + 1)
  let s2 := s.onSess t k fun z => { z with lrd := BitVec.ofNat 64 p.rd, log := z.log ++ p.log }
  let code := if p.code ≠ 0 then p.code else if ordersRight y.order (s2.sess t k).log then 0 else 5
  (if code = 0 then s2 else s2.diverge y.ctx code).horizon y.ctx

/-- An open session as it starts (R314, R319, R324), a replay with what its ring already holds (R328); its nonce is the host tool's, and free (log entry 7). -/
def State.openSession (s : State) (t k : Nat) : State :=
  let (nonce, s1) := s.draw
  let x := s1.sess t k
  let first := mkRec 0x1E 24 15 [(16, 12, s1.hub.device.toNat), (32, 6, x.ctx), (64, 64, nonce.toNat)]
  let s2 := s1.onSess t k fun y => {
    Session.reset with
    lbase := y.lbase, lsize := y.lsize, lctl := withBits y.lctl 0 0 1, lwr := y.lwr, lrd := y.lrd, lstop := y.lstop, nonce := nonce
    bufs := if y.replay then Session.reset.bufs else vset Session.reset.bufs 12 [first] }
  if x.replay then s2.readLog t k else s2

/-- The close of a session starts (R314): a recording's remaining records are spilled, a replay's context ends. -/
def State.shutSession (s : State) (t k : Nat) : State :=
  let x := s.sess t k
  let c := x.ctx
  let s1 := s.onSess t k fun y => { y with closing := true, lstat := withBits y.lstat 1 1 0 }
  if !x.replay then s1
  else if !(s1.gidsCtx c).isEmpty then s1.terminate c 2
  else (s1.hub.launches.filter fun (e : Nat × Launch) => e.2.ctx == c && e.2.stage == 8).foldl (fun st e =>
    ((st.setLaunch e.1 { e.2 with stage := 4, status := 3 }).notify e.2).completeLaunch e.1) s1

/-- A write of LCTL (R313, R314): while EN is 1 only EN acts. -/
def State.writeLctl (s : State) (t k : Nat) (v : Dword) : State :=
  let x := s.sess t k
  let c := withBits (withBits (withBits v 63 16 0) 9 4 0) 0 0 0
  if x.en then
    let s1 := if withBits x.lctl 0 0 0 = c then s else s.onSess t k fun y => y.code 0x11
    if v.getLsbD 0 || x.closing then s1 else s1.shutSession t k
  else
    let s1 := s.onSess t k fun y => { y with lctl := c }
    if !(v.getLsbD 0) then s1
    else if s1.openCode t k = 0 then s1.openSession t k
    else s1.onSess t k fun y => y.code (s1.openCode t k)

/-- SESSION_OPEN (R314): a write of LCTL with EN set. -/
def execSessionOpen (t k : Nat) (v : Dword) (s : State) : Host.Outcome State Fault Refusal :=
  if 16 ≤ t || 4 ≤ k then .fault .noSuchUnit else if v.getLsbD 0 then .next (s.writeLctl t k v).reap else .next s

/-- SESSION_CLOSE (R314): a write of LCTL with EN clear. -/
def execSessionClose (t k : Nat) (v : Dword) (s : State) : Host.Outcome State Fault Refusal :=
  if 16 ≤ t || 4 ≤ k then .fault .noSuchUnit else if v.getLsbD 0 then .next s else .next (s.writeLctl t k v).reap

/-- The session is closed: EN reads 0, and no group of its context has an open chunk. -/
def State.closed (s : State) (t k : Nat) : State :=
  let c := (s.sess t k).ctx
  let s1 := (s.gidsCtx c).foldl (fun st g => st.onGrp g fun x => { x with chunk := Chunk.new }) s
  s1.onSess t k fun y => { y with lctl := withBits y.lctl 0 0 0, closing := false, log := [], bufs := Session.reset.bufs }

/-- SESSION_CLOSE_COMPLETE (R314, R327, R332): a recording closes when every record is in the ring, after a final HORIZON when there is
room, and an enclave's SEAL; a replay when its context's groups and waiting launches have ended. -/
def execSessionCloseComplete (t k : Nat) (s : State) : Host.Outcome State Fault Refusal :=
  if 16 ≤ t || 4 ≤ k then .fault .noSuchUnit
  else
    let x := s.sess t k
    let c := x.ctx
    if !x.closing then .next s
    else if !((s.ctx c).used) then .next (s.closed t k)
    else if x.replay then
      .next (if (s.gidsCtx c).isEmpty && !(s.hub.launches.any fun e => e.2.ctx == c && e.2.stage == 8) then s.closed t k else s)
    else if !(x.bufs.toList.all (·.isEmpty)) then .next s
    else
      let s1 := if x.horizon && !(x.full 16 24) then (s.ringRecord t k (horizonRec x.dropped)).getD s else s
      let s2 := if (s1.ctx c).encl && (s1.sess t k).unsealed ≠ 0 && !((s1.sess t k).full 24 0) then (s1.sealRecord t k).getD s1 else s1
      .next (s2.closed t k).reap

/-! ### Counts -/

/-- RD may move from a to b: over whole records, through headers already written (R325); n bounds them. -/
def State.reaches (s : State) (x : Session) (a b : Nat) : Nat → Bool
  | 0 => a == b
  | n + 1 =>
    a == b || (decide (a < b) && (match s.ringGet x a 8 with
      | none => false
      | some h => s.reaches x (a + 8 * (recField h 6 5 + 1)) b n))

/-- A write of LRD: read-only in a replay (R313, R325). -/
def State.writeLrd (s : State) (t k : Nat) (v : Dword) : State :=
  let x := s.sess t k
  if x.replay then s
  else if v = x.lwr || (decide (v.toNat ≤ x.lwr.toNat) && s.reaches x x.lrd.toNat v.toNat ((x.lwr.toNat - x.lrd.toNat) / 8 + 1)) then
    s.onSess t k fun y => { y with lrd := v, lstat := withBits y.lstat 1 1 0 }
  else s.onSess t k fun y => y.code 0x10

/-- LRD_WRITE (R325, R327). -/
def execLrdWrite (t k : Nat) (v : Dword) (s : State) : Host.Outcome State Fault Refusal :=
  if 16 ≤ t || 4 ≤ k then .fault .noSuchUnit else .next (s.writeLrd t k v)

/-- A write of LWR: read-only in a recording; in a replay the device reads on (R313, R328, R329). -/
def State.writeLwr (s : State) (t k : Nat) (v : Dword) : State :=
  let x := s.sess t k
  if !x.replay then s
  else
    let s1 := s.onSess t k fun y => { y with lwr := v }
    if x.en then s1.readLog t k else s1

/-- LWR_WRITE (R328). -/
def execLwrWrite (t k : Nat) (v : Dword) (s : State) : Host.Outcome State Fault Refusal :=
  if 16 ≤ t || 4 ≤ k then .fault .noSuchUnit else .next (s.writeLwr t k v).reap

/-- A write of LSTOP: a stop that has already been reached halts the context (R313, R330). -/
def State.writeLstop (s : State) (t k : Nat) (v : Dword) : State :=
  (s.onSess t k fun y => { y with lstop := withBits v 62 52 0 }).stopReached (s.sess t k).ctx

/-- A write of LSTAT (R313, R329, R330): DIVERGE clears with its code; clearing STOPPED resumes the replay when the stop is not armed, or
is armed at a chunk that has not ended. -/
def State.writeLstat (s : State) (t k : Nat) (v : Dword) : State :=
  let x := s.sess t k
  let s1 := if v.getLsbD 2 && x.lstat.getLsbD 2 then s.onSess t k fun y => { y with lstat := withBits (withBits y.lstat 15 8 0) 2 2 0 } else s
  if v.getLsbD 3 && x.lstat.getLsbD 3 then
    let s2 := s1.onSess t k fun y => { y with lstat := withBits y.lstat 3 3 0 }
    if x.lstop.getLsbD 63 && decide (dbits x.lstop 47 0 < x.ended (dbits x.lstop 51 48)) then s2
    else (s2.gidsCtx x.ctx).foldl (fun st g => st.onGrp g fun y => { y with halted := false }) s2
  else s1

/-- REPLAY_RESUME (R330): a write of LSTAT. -/
def execReplayResume (t k : Nat) (v : Dword) (s : State) : Host.Outcome State Fault Refusal :=
  if 16 ≤ t || 4 ≤ k then .fault .noSuchUnit else .next (s.writeLstat t k v)

/-- A write of the session slot's register at an offset (R313, R314). -/
def State.sessionWrite (s : State) (t k off : Nat) (v : Dword) : State :=
  let x := s.sess t k
  match off with
  | 0x00 => s.onSess t k fun y => if x.en then y.code 0x11 else { y with lbase := withBits v 19 0 0 }
  | 0x08 => s.onSess t k fun y => if x.en then y.code 0x11 else { y with lsize := BitVec.ofNat 64 (dbits v 5 0) }
  | 0x10 => s.writeLctl t k v
  | 0x18 => s.writeLwr t k v
  | 0x20 => s.writeLrd t k v
  | 0x28 => s.writeLstat t k v
  | 0x30 => s.writeLstop t k v
  | _ => s

end Sys2Proof.Machine
end

