-- ==== Sys2Proof/Machine/Bar.lean ====
section
/-! DEFINITION. The registers of a tenant's BAR0 (R349): commands (R350), the fault and error rings (R352), the mailbox and the debug and
sample rings (R335, R540, R541); and the operator's settings (R179, R333, R351, log entry 20). -/

namespace Sys2Proof.Machine

/-! ### Fault and error rings -/

/-- The ring of a tenant: `err` says that it is the error ring. -/
def State.ring (s : State) (t : Nat) (err : Bool) : Ring := if err then (s.tenant t).errorRing else (s.tenant t).faultRing

/-- The state with a ring replaced. -/
def State.setRing (s : State) (t : Nat) (err : Bool) (r : Ring) : State :=
  s.onTenant t fun x => if err then { x with errorRing := r } else { x with faultRing := r }

/-- A refused write (R352). -/
def State.ringErr (s : State) (t : Nat) (err : Bool) : State :=
  s.setRing t err { s.ring t err with rstat := withBits (s.ring t err).rstat 63 63 1 }

/-- Fault records held for a tenant's ring are written while it has room (R352). -/
def State.releaseFaults (s : State) (t : Nat) : State :=
  (s.hub.faults.filter fun (e : Nat × FaultRec) => e.2.stage == 4 && (s.ctx e.2.ctx).tenant == t).foldl (fun st e => st.escalate e.1 e.2) s

/-- A write of RRD (R352). -/
def State.writeRrd (s : State) (t : Nat) (err : Bool) (v : Dword) : State :=
  let r := s.ring t err
  if v.toNat % 32 ≠ 0 || v.toNat < r.rrd.toNat || r.rwr.toNat < v.toNat then s.ringErr t err
  else
    let s1 := s.setRing t err { r with rrd := v }
    if err then s1 else s1.releaseFaults t

/-- A write of RCTL (R352). -/
def State.writeRctl (s : State) (t : Nat) (err : Bool) (v : Dword) : State :=
  let s1 := s.setRing t err { s.ring t err with rctl := withBits (withBits v 63 27 0) 15 1 0 }
  if err then s1 else s1.releaseFaults t

/-- RING_RRD_WRITE (R352): `ring` is true for the error ring. -/
def execRingRrdWrite (t : Nat) (ring : Bool) (v : Dword) (s : State) : Host.Outcome State Fault Refusal :=
  if 16 ≤ t then .fault .noSuchUnit else .next (s.writeRrd t ring v)

/-- RING_ENABLE (R352): a write of RCTL. -/
def execRingEnable (t : Nat) (ring : Bool) (v : Dword) (s : State) : Host.Outcome State Fault Refusal :=
  if 16 ≤ t then .fault .noSuchUnit else .next (s.writeRctl t ring v)

/-- A write of a ring register at an offset (R352). -/
def State.ringWrite (s : State) (t : Nat) (err : Bool) (off : Nat) (v : Dword) : State :=
  let r := s.ring t err
  match off with
  | 0x00 => if r.rctl.getLsbD 0 then s.ringErr t err else s.setRing t err { r with rbase := withBits v 11 0 0 }
  | 0x08 =>
    if r.rctl.getLsbD 0 || dbits v 5 0 < 12 || 24 < dbits v 5 0 then s.ringErr t err
    else s.setRing t err { r with rlog2 := BitVec.ofNat 64 (dbits v 5 0) }
  | 0x10 => s.writeRctl t err v
  | 0x20 => s.writeRrd t err v
  | 0x28 => if v.getLsbD 63 then s.setRing t err { r with rstat := withBits r.rstat 63 63 0 } else s
  | 0x30 => if err then s else s.writeFres t v
  | _ => s

/-! ### Commands and the mailbox -/

/-- CMDP (R350): a command is submitted. -/
def State.writeCmdp (s : State) (t : Nat) (v : Dword) : State :=
  s.onTenant t fun x =>
    if 64 ≤ x.cmds.length then { x with ovf := true } else if v.toNat % 64 ≠ 0 then { x with align := true } else { x with cmds := x.cmds ++ [v] }

/-- CMDS (R350). -/
def State.writeCmds (s : State) (t : Nat) (v : Dword) : State :=
  s.onTenant t fun x => { x with ovf := x.ovf && !v.getLsbD 16, align := x.align && !v.getLsbD 17 }

/-- A mailbox register; the last one sends the message (R541). -/
def State.writeMailbox (s : State) (t i : Nat) (v : Dword) : State :=
  let s1 := s.onTenant t fun x => { x with mailbox := vset x.mailbox i v }
  if i ≠ 7 then s1
  else
    let m := (s1.tenant t).mailbox
    let w := vat m 0 0
    let core := dbits w 25 16
    let d : DbgCmd := { msg := m, host := true, tenant := t, ctx := dbits w 31 26, waiting := [], begun := false }
    if dbits w 7 0 = 2 && core ≤ 767 then s1.onCore core fun k => { k with dbg := k.dbg ++ [d] }
    else s1.dbgWrite core d 0 (d.reply 3 [])

/-! ### Debug and sample rings -/

/-- A write of SBASE or SLOG2 of a ring (R335, R540): it acts while the ring is disabled and its size is in range. -/
def SRing.setUp (r : SRing) (off : Nat) (v : Dword) : SRing :=
  if r.sen ≠ 0 then r
  else if off = 0 then { r with sbase := withBits v 11 0 0 }
  else if 16 ≤ dbits v 5 0 && dbits v 5 0 ≤ 30 then { r with slog2 := BitVec.ofNat 64 (dbits v 5 0) } else r

/-- A write of a debug-ring register (R540). -/
def SRing.debugWrite (r : SRing) (off : Nat) (v : Dword) : SRing :=
  match off with
  | 0x10 => if v.toNat ≤ 1 then { r with sen := v } else r
  | 0x18 => r
  | 0x20 => if v.toNat % 64 = 0 && r.srd.toNat ≤ v.toNat && v.toNat ≤ r.swr.toNat then { r with srd := v } else r
  | _ => r.setUp off v

/-- SRD may move from a to b over whole records of the sample ring (R325, R335); n bounds them. -/
def SRing.reaches (r : SRing) (m : Memory) (a b : Nat) : Nat → Bool
  | 0 => a == b
  | n + 1 => a == b || (decide (a < b) && r.reaches m (a + 8 * (recField (Memory.bytes m (hostLoc (r.sbase.toNat / 4096 * 4096 + a % r.size)) 8) 6 5 + 1)) b n)

/-- A write of a sample-ring register (R335). -/
def SRing.sampleWrite (r : SRing) (m : Memory) (off : Nat) (v : Dword) : SRing :=
  match off with
  | 0x10 => { r with sen := v }
  | 0x18 => r
  | 0x20 =>
    if v = r.swr || (decide (v.toNat ≤ r.swr.toNat) && r.reaches m r.srd.toNat v.toNat ((r.swr.toNat - r.srd.toNat) / 8 + 1)) then { r with srd := v } else r
  | _ => r.setUp off v

/-! ### The map -/

/-- A register write of tenant t at an offset of its BAR0 (R349): an offset that the map does not list has no effect. -/
def State.barWrite (s : State) (t off : Nat) (v : Dword) : State :=
  if off % 8 ≠ 0 then s
  else if 0x1000 ≤ off && off < 0x1100 then
    let q := (off - 0x1000) / 32
    match off % 32 with
    | 0x00 => s.writeQbase t q v
    | 0x08 => s.writeQctl t q v
    | 0x10 => s.writeQtail t q v
    | _ => s.writeQhead t q v
  else if off = 0x2000 then s.writeCmdp t v
  else if off = 0x2008 then s.writeCmds t v
  else if 0x3000 ≤ off && off < 0x3080 then s.ringWrite t (decide (0x3040 ≤ off)) (off % 64) v
  else if 0x4000 ≤ off && off < 0x4100 then s.sessionWrite t ((off - 0x4000) / 64) (off % 64) v
  else if 0x5000 ≤ off && off < 0x5040 then s.writeMailbox t ((off - 0x5000) / 8) v
  else if 0x5040 ≤ off && off ≤ 0x5060 then s.onTenant t fun x => { x with debugRing := x.debugRing.debugWrite (off - 0x5040) v }
  else if 0x6000 ≤ off && off ≤ 0x6020 then s.onTenant t fun x => { x with sampleRing := x.sampleRing.sampleWrite s.mem (off - 0x6000) v }
  else if 0x100000 ≤ off && off < 0x100000 + 0x200 * 768 then s.debugWrite t ((off - 0x100000) / 0x200) (off % 0x200) v
  else s

/-- A write of the operator's settings (log entry 20): the tenant of a context number, a core's sampling exponent (R333), a slice's W
(R179), and the window that a frame belongs to (R351), which changes only while no entry names a slot of the frame. -/
def State.pfWrite (s : State) (off : Nat) (v : Dword) : State :=
  if off % 8 ≠ 0 then s
  else if off < 0x200 then (if v.toNat ≤ 16 && !(s.ctx (off / 8)).used then s.onHub fun h => { h with allot := SMap.put h.allot (off / 8) v.toNat 0 } else s)
  else if 0x8000 ≤ off && off < 0x8000 + 8 * 768 then
    (if 6 ≤ v.toNat && v.toNat ≤ 20 then s.onCore ((off - 0x8000) / 8) fun k => { k with sampleK := v.toNat } else s)
  else if 0xC000 ≤ off && off < 0xC000 + 8 * 96 then
    (if 12 ≤ v.toNat && v.toNat ≤ 20 then s.onHub fun h =>
      { h with slices := SMap.put h.slices ((off - 0xC000) / 8) { SMap.look h.slices ((off - 0xC000) / 8) Slice.reset with w := v.toNat } Slice.reset } else s)
  else if 0x1000000 ≤ off && off < 0x1000000 + 8 * 393216 then
    let f := (off - 0x1000000) / 8
    (if v.toNat ≤ 16 && !(s.frameHeld f) then s.onHub fun h => { h with window := SMap.put h.window f v.toNat 0 } else s)
  else s

/-- REGISTER_WRITE (R349): of tenant t's BAR0, or, for t = 16, of the operator's settings (log entry 20). -/
def execRegisterWrite (t off : Nat) (v : Dword) (s : State) : Host.Outcome State Fault Refusal :=
  if 16 < t then .fault .noSuchUnit
  else if t = 16 then .next (s.pfWrite off v)
  else .next (s.barWrite t off v).reap

end Sys2Proof.Machine
end

