-- ==== Sys2Proof/Machine/Device.lean ====
section
/-! DEFINITION. The package's own events: reset and self-test (R7 to R10, R307, R354, R361), the power arbiter, alarms and thermal limits
(R14 to R20), the TDI states and the host link (R346 to R348), and the end of test mode (R527, R531). -/

namespace Sys2Proof.Machine

/-! ### Test mode, TDI and the link -/

/-- TEST_MODE_EXIT (R312, R527, R531): armed marks that have not attached are dropped, and sessions on small larders close as if EN had
been cleared. -/
def execTestModeExit (s : State) : Host.Outcome State Fault Refusal :=
  if !s.hub.testMode then .next s
  else
    let s1 := s.onHub fun h => { h with testMode := false }
    let s2 : State := { s1 with clusters := SMap.mapAll (fun (k : Cluster) => { k with armed := [] }) Cluster.empty s1.clusters }
    .next ((List.range 64).foldl (fun st i =>
      let x := st.sess (i / 4) (i % 4)
      if x.en && decide (dbits x.lsize 5 0 < 30) then st.writeLctl (i / 4) (i % 4) (withBits x.lctl 0 0 0) else st) s2).reap

/-- TDI_STATE_CHANGE (R348): a virtual function's TDI moves between CONFIG_UNLOCKED, CONFIG_LOCKED and RUN. -/
def execTdiStateChange (t : Nat) (st : Tdi) (s : State) : Host.Outcome State Fault Refusal :=
  if 16 ≤ t then .fault .noSuchUnit
  else if st = .error then .next s
  else .next (s.onTenant t fun x => { x with tdi := st })

/-- TDI_ERROR (R348): the TDI enters ERROR, and every enclave context of the tenant is terminated with reason 2. -/
def execTdiError (t : Nat) (s : State) : Host.Outcome State Fault Refusal :=
  if 16 ≤ t then .fault .noSuchUnit
  else .next ((List.range 64).foldl (fun st c => if (st.ctx c).encl && (st.ctx c).tenant == t then st.doom c 2 else st)
    (s.onTenant t fun x => { x with tdi := .error })).reap

/-- HOST_LINK_DOWN (R346): the link goes down, and the core dumps not yet copied are read through the management controller's port. -/
def execHostLinkDown (s : State) : Host.Outcome State Fault Refusal :=
  .next ((List.range 16).foldl (fun st t =>
    let d := (st.tenant t).dump
    if d.isEmpty then st else (st.onTenant t fun x => { x with dump := [] }).onHub fun h => { h with dumped := h.dumped ++ [(t, d)] })
    (s.onHub fun h => { h with linkUp := false }))

/-! ### Power and temperature -/

/-- A C-die enters narrowed mode (R15, R20): running operations complete in normal mode. -/
def State.narrow (s : State) (die : Nat) : State :=
  s.onHub fun h => {
    h with
    narrowed := if h.narrowed.contains die then h.narrowed else h.narrowed ++ [die]
    alarmed := if h.alarmed.contains die then h.alarmed else h.alarmed ++ [die]
    clean := h.clean.filter (· != die) }

/-- POWER_ALARM (R15). -/
def execPowerAlarm (die : Nat) (s : State) : Host.Outcome State Fault Refusal :=
  if 6 ≤ die then .fault .noSuchUnit else .next (s.narrow die)

/-- A matrix operation runs on a die. -/
def State.dieBusy (s : State) (die : Nat) : Bool := s.cores.any fun (k : Nat × Core) => dieOf k.1 == die && k.2.matrixBusy

/-- JUNCTION_TEMPERATURE_ALARM (R20): a reading of a C-die's junction temperature, in degrees. At 105 the die is narrowed as if alarmed; it
may leave once it reads below 100. -/
def execJunctionTemperatureAlarm (die temp : Nat) (s : State) : Host.Outcome State Fault Refusal :=
  if 6 ≤ die then .fault .noSuchUnit
  else if 105 ≤ temp then .next ((s.narrow die).onHub fun h => { h with hot := if h.hot.contains die then h.hot else h.hot ++ [die] })
  else if 100 ≤ temp then .next s
  else
    let s1 := s.onHub fun h => { h with hot := h.hot.filter (· != die) }
    .next (if s1.dieBusy die then s1 else s1.unnarrow die)

/-- Grants, in milliwatts and in the order of the power budget, that the arbiter may make after the present ones (R13, R14): together at most
15,000 W, none of a consumer below its budget less 20 %, and at most the 1,000 W of headroom moved. -/
def Hub.mayGrant (h : Hub) (g : Vector Nat 7) : Bool :=
  decide (g.toList.sum ≤ 15000000) &&
  ((List.range 6).all fun i => decide (vat powerBudget i 0 * 4 ≤ vat g i 0 * 5)) &&
  decide (((List.range 6).map fun i => vat g i 0 - vat h.power i 0).sum ≤ 1000000)

/-- ARBITER_INTERVAL (R13, R14, R16, R18): an interval ends, with the package's 1 ms average in milliwatts and the arbiter's grants, which
count where R14 allows them. Dies without an alarm in it leave narrowed mode at an operation boundary. At 15,000 W with every C-die
narrowed, matrix issue is held, and reported, until the average is below 14,500 W. -/
def execArbiterInterval (v : Interval) (s : State) : Host.Outcome State Fault Refusal :=
  let s1 := s.onHub fun h =>
    { h with
      clean := h.narrowed.filter fun d => !(h.alarmed.contains d), alarmed := []
      power := if h.mayGrant v.grants then v.grants else h.power }
  let s2 := (List.range 6).foldl (fun st d => if st.dieBusy d then st else st.unnarrow d) s1
  .next (s2.onHub fun h =>
    if 15000000 ≤ v.mw && decide (h.narrowed.length = 6) then
      { h with
        matrixHold := true, powerEvents := if h.matrixHold then h.powerEvents else h.powerEvents + 1
        mcLog := if h.matrixHold then h.mcLog else h.mcLog ++ [leBytes 8 v.mw] }
    else if v.mw < 14500000 then { h with matrixHold := false } else h)

/-! ### Reset -/

/-- The machine after a reset or a loss of power, with what lies outside the device or is kept in non-volatile storage: host and peer
memory, the retirement list with its pinned sectors, and the management controller's log (R8, R307); and the model's own agenda and count
of free values. -/
def State.afterReset (s : State) : State :=
  { State.reset with
    hub := { Hub.reset with retiredCores := s.hub.retiredCores, mappedCores := s.hub.retiredCores, mcLog := s.hub.mcLog }
    mem := s.mem.filter fun c => isHost c.1 || isPeer c.1
    agenda := s.agenda
    fresh := s.fresh }

/-- Physical cores of cluster k that are not in a list (R7). -/
def goodCores (bad : List Nat) (k : Nat) : List Nat := ((List.range 68).map (68 * k + ·)).filter fun p => !(bad.contains p)

/-- RESET (R7 to R10, R307, R354, R361): self-test finds the physical cores `bad`; the device comes up when its firmware verifies and every
cluster has 64 good cores, with device number `dev` and the pinned sectors applied anew. Otherwise it stays in reset, its link does not
train, and the management controller reports why. -/
def execReset (bad : List Nat) (bootOk : Bool) (dev : BitVec 12) (s : State) : Host.Outcome State Fault Refusal :=
  let all := s.hub.retiredCores ++ (bad.filter fun p => decide (p < 816) && !(s.hub.retiredCores.contains p)).eraseDups
  let s1 := (s.onHub fun h => { h with retiredCores := all }).afterReset
  let short := (List.range 12).filter fun k => decide ((goodCores all k).length < 64)
  let s2 := (s.hub.pinned.foldr (fun k st => st.pinSector (64 * k)) s1).onHub fun h => { h with device := dev }
  if !bootOk then .next (s1.onHub fun h => { h with up := false, linkUp := false, pinned := s.hub.pinned, mcLog := h.mcLog ++ [leBytes 8 0] })
  else if short.isEmpty then .next s2
  else .next (s1.onHub fun h => {
    h with
    up := false, linkUp := false, pinned := s.hub.pinned
    mcLog := h.mcLog ++ short.map fun k => leBytes 2 k ++ leBytes 2 (goodCores all k).length })

/-- HOST_SELF_TEST (R8, R9): the host's self-test of a core without a resident context. A core that fails is entered in the retirement list and
is unavailable until the next reset; it is the physical core that carries the logical one, which is left to firmware (R7, log entry 91). -/
def execHostSelfTest (core : Nat) (pass : Bool) (s : State) : Host.Outcome State Fault Refusal :=
  if 768 ≤ core then .fault .noSuchUnit
  else if (s.core core).resident.toList.any (·.isSome) || pass || (s.core core).unavailable then .next s
  else
    let p := nth (goodCores s.hub.mappedCores (core / 64)) (core % 64) 0
    .next ((s.onCore core fun k => { k with unavailable := true }).onHub fun h => { h with retiredCores := h.retiredCores ++ [p] })

/-- OVERTEMPERATURE_CUTOFF (R20): at 115 degrees on any die the package loses its power and all state, and the link goes down. -/
def execOvertemperatureCutoff (die temp : Nat) (s : State) : Host.Outcome State Fault Refusal :=
  if 8 ≤ die then .fault .noSuchUnit
  else if temp < 115 then .next s
  else .next (s.afterReset.onHub fun h =>
    { h with up := false, powered := false, linkUp := false, pinned := s.hub.pinned, mcLog := h.mcLog ++ [leBytes 2 die ++ leBytes 2 temp] })

end Sys2Proof.Machine
end

