-- ==== Sys2Proof/Machine/Fabric.lean ====
section
/-! DEFINITION. Collectives (R253 to R255, R357, R384), the fabric send engine and its messages (R75, R252, R355, R403, R436), links,
and the windows of pod peers (R353, R356). -/

namespace Sys2Proof.Machine

/-! ### Collectives -/

/-- The collective commands of a context's communicator that have not ended, with their cores. -/
def State.collCmds (s : State) (c m : Nat) : List (Nat × Cmd) :=
  s.cores.flatMap fun k => (k.2.cmds.filter fun q => decide (q.op = .coll) && q.ctx == c && dbits q.e 43 32 == m && !q.ended).map fun q => (k.1, q)

/-- What one rank contributes: its bytes, and which 16-byte granules of them were poisoned. -/
structure Share where
  bytes : List Byte
  bad : List Bool
  deriving DecidableEq, Repr

/-- Word i of a contribution. -/
def Share.word (x : Share) (i : Nat) : Nat := fieldAt x.bytes (4 * i) 4

/-- One step of the tree over ranks (R254). -/
def rankStep (op : Nat → Nat → Nat) (off : Nat) (x : List Nat) : List Nat :=
  (List.range x.length).map fun q =>
    let p := Nat.xor q off
    if p < x.length then op (nth x (min p q) 0) (nth x (max p q) 0) else nth x q 0

/-- The tree over the ranks' values: the value that rank 0 ends with holds every rank's (R254, log entry 34). -/
def rankTree (op : Nat → Nat → Nat) (x : List Nat) : Nat :=
  (((List.range 17).map (2 ^ ·)).filter (· < x.length)).foldl (fun y off => rankStep op off y) x |>.headD 0

/-- The step of a reduction: SUM.F32, MAX.F32 or MIN.F32 (R149, R254). -/
def collStep (op : Nat) (a b : Nat) : Nat :=
  match op with
  | 0 => (fF32.add .rne false a b).bits
  | 2 => (fF32.minmax false true a b).bits
  | _ => (fF32.minmax false false a b).bits

/-- Element i of a SUMMX contribution of L element bytes: its value times its block's scale; none for a NaN (R255). -/
def mxElem (e4 : Bool) (len i : Nat) (x : Share) : FVal :=
  let sc := (nth x.bytes (len + i / 32) 0).toNat
  if sc = 255 then .nan false
  else match (if e4 then fE4M3 else fE5M2).dec (nth x.bytes i 0).toNat with
    | .num s m e => .num s m (e + sc - 127)
    | v => v

/-- The F32 sum of SUMMX values, exact and rounded once (R255). -/
def mxSum (vs : List FVal) : Nat :=
  let pos := vs.any (· == .inf false)
  let neg := vs.any (· == .inf true)
  if vs.any FVal.isNan || (pos && neg) then 0x7FC00000
  else if pos || neg then fF32.sgn neg fF32.infCode
  else (fF32.roundInt .rne false (vs.foldl (fun (n : Int) v => match v with
    | .num s m e => n + sumAt s m e (-160)
    | _ => n) 0) (-160) false).bits

/-- A granule is poisoned in some contribution. -/
def anyBad (xs : List Share) (g : Nat) : Bool := xs.any fun x => x.bad.getD g false

/-- The result of a collective of operation op on L bytes of each rank (R253 to R255). -/
def collResult (op len : Nat) (xs : List Share) : Share :=
  match op with
  | 4 => { bytes := xs.flatMap (·.bytes), bad := xs.flatMap (·.bad) }
  | 1 =>
    { bytes := (List.range (len / 4)).flatMap fun i => leBytes 4 (xs.foldl (fun n x => n + x.word i) 0 % 2 ^ 32)
      bad := (List.range (len / 16)).map (anyBad xs) }
  | 5 | 6 =>
    { bytes := (List.range len).flatMap fun i => leBytes 4 (mxSum (xs.map (mxElem (op == 5) len i)))
      bad := (List.range (len / 4)).map fun g => anyBad xs (g / 4) || anyBad xs ((len + g / 8) / 16) }
  | _ =>
    { bytes := (List.range (len / 4)).flatMap fun i => leBytes 4 (rankTree (collStep op) (xs.map (·.word i)))
      bad := (List.range (len / 16)).map (anyBad xs) }

/-- A scratchpad range that an engine lands from address a on, row by row, with its sync updates; n bounds the rows (R194, R384). -/
def State.landRange (s : State) (core : Nat) (q : Cmd) (a : Nat) (x : Share) : Nat → Cmd × State
  | 0 => (q, s)
  | n + 1 =>
    if x.bytes.isEmpty then (q, s) else
      let t := min (4 - a / 16 % 4) (x.bytes.length / 16)
      match s.engSpot core q (.sp a .dst) .w none with
      | (.loc l _, s1) =>
        let (q1, s2) := s1.engPut core q true a 0 ((List.range t).map (l + 16 * ·)) { bytes := x.bytes.take (16 * t), poison := (x.bad.take t).any id }
        if q1.ended then (q1, s2)
        else
          let s3 := (q1.syncCores core).foldl (fun st c => st.syncAdd core q1 c (16 * t)) s2
          s3.landRange core q1 (a + 16 * t) { bytes := x.bytes.drop (16 * t), bad := x.bad.drop t } n
      | (.stop k, s1) => (q.stop k, s1)
      | (_, s1) => (q, s1)

/-- A member's own contribution (R253, R297). -/
def State.ownShare (s : State) (core : Nat) (q : Cmd) : Share × Cmd × State :=
  let n := roundUp (collSrc (dbits q.e 63 60) (shLen q.e)) 16 / 16
  let ls := (List.range n).map fun i => spadOf (cluOf core) (q.b.toNat + 16 * i)
  let (q1, s1) := ls.foldl (fun (p : Cmd × State) l => match p.2.readSector l q.ctx 0 (.engine core) with
    | (.detected, u) => u.engDebit core p.1 false
    | (_, u) => (p.1, u)) (q, s)
  ({ bytes := (ls.flatMap fun l => Memory.bytes s1.mem l 16).take (collSrc (dbits q.e 63 60) (shLen q.e))
     bad := ls.map fun l => s1.hub.poison.contains (l / 64) }, q1, s1)

/-- The contributions of ranks, in order: a member's of this device, or a peer's; none when one is missing (R253). -/
def State.shares (s : State) (ms : List (Nat × Cmd)) (peers : List (Nat × List Byte)) (need : Nat) :
    List ((Nat × Nat) × Nat) → Option (List Share) × State
  | [] => (some [], s)
  | ((dev, core), q) :: r =>
    let mine := if dev = s.hub.device.toNat then ms.find? (·.1 == core) else none
    let (x, s1) := match mine with
      | some m =>
        let (y, c1, u) := s.ownShare core m.2
        (some y, u.setCmd core c1)
      | none => ((List.find? (fun (p : Nat × List Byte) => p.1 == q && p.2.length == need) peers).map fun (p : Nat × List Byte) =>
          ({ bytes := p.2, bad := List.replicate (roundUp need 16 / 16) false } : Share), s)
    let (xs, s2) := s1.shares ms peers need r
    (match x, xs with
      | some y, some ys => some (y :: ys)
      | _, _ => none, s2)

/-- Every member of a collective ends with status 0x15, and so does one that joins it later (R253, R384). -/
def State.collFails (s : State) (c m : Nat) (ms : List (Nat × Cmd)) : State :=
  (ms.foldl (fun st x => match st.cmd? x.1 x.2.id with
    | some q => st.setCmd x.1 (q.stop 0x15)
    | none => st) s).onCtx c fun y => { y with collBad := (m, (ms.head?.map (·.2.landed.headD 0)).getD 0) :: y.collBad }

/-- Scratchpad addresses of the result of a COLL, and their number. -/
def Cmd.collRange (q : Cmd) : Nat × Nat := (q.a.toNat, collDst (dbits q.e 63 60) (min (fieldAt q.msg 0 4) 65536) (shLen q.e))

/-- The result of a COLL may land: no earlier COLL of the core still has to write a byte of it, and in replay the tokens of its rows and of its
sync updates have come up (R233, R328). -/
def State.collReady (s : State) (core : Nat) (q : Cmd) : Bool :=
  let (a, n) := q.collRange
  ((s.core core).cmds.all fun p => decide (q.id ≤ p.id) || p.ended || decide (p.op ≠ .coll) ||
    decide (p.collRange.1 + p.collRange.2 ≤ a) || decide (a + n ≤ p.collRange.1)) &&
  s.syncReady core q (q.syncCores core) &&
  ((s.replaying? q.ctx).isNone || (List.range (n / 64 + 1)).all fun i => s.touchReady core q.ctx (spadOf (cluOf core) (a + 64 * i)))

/-- The first of the two phases of a SUMMX ends at each member, which has agreed on the largest scale codes (R235, R255, log entry 84). -/
def State.collPhase (s : State) (ms : List (Nat × Cmd)) : State :=
  ms.foldl (fun st x => match st.cmd? x.1 x.2.id with
    | some q => st.setCmd x.1 { q with phase := 1 }
    | none => st) s

/-- The result of a collective lands at each member (R253, R384). -/
def State.collLands (s : State) (ms : List (Nat × Cmd)) (x : Share) : State :=
  ms.foldl (fun st m => match st.cmd? m.1 m.2.id with
    | some q =>
      let (q1, st1) := st.landRange m.1 q q.a.toNat x (x.bytes.length / 16 + 1)
      st1.setCmd m.1 { q1 with ended := true }
    | none => st) s

/-- The members of one collective on this device end a phase or complete, with the peers' contributions by rank (R253 to R255, R357, R384). -/
def State.collective (s : State) (c m : Nat) (ms : List (Nat × Cmd)) (peers : List (Nat × List Byte)) : State :=
  match s.comm c (.engine ((ms.head?.map (·.1)).getD 0)) m with
  | (.inl (.park _, va), s1) => s1.fileFault c va 5 []
  | (.inl _, s1) => s1.collFails c m ms
  | (.inr cm, s1) =>
    let entry := (cm.entry.map (leBytes 4)).flatten
    let e0 := (ms.head?.map (·.2.e)).getD 0
    let op := dbits e0 63 60
    if ms.any (fun x => x.2.msg != entry || dbits x.2.e 63 60 != op || shLen x.2.e != shLen e0) then s1.collFails c m ms
    else if !(cm.ranks.all fun r => r.1 != s1.hub.device.toNat || ms.any (·.1 == r.2)) then s1
    else if decide (5 ≤ op) && ms.any (fun x => x.2.phase == 0) then s1.collPhase ms
    else if !(ms.all fun x => s1.collReady x.1 x.2) then s1
    else match s1.shares ms peers (collSrc op (shLen e0)) cm.ranks.zipIdx with
      | (none, s2) => s2.collFails c m ms
      | (some xs, s2) => s2.collLands ms (collResult op (shLen e0) xs)

/-- COLLECTIVE_COMPLETE (R384): the oldest open collective of a communicator, once every member of this device has joined it. -/
def execCollectiveComplete (ctx comm : Nat) (peers : List (Nat × List Byte)) (s : State) : Host.Outcome State Fault Refusal :=
  let all := s.collCmds ctx comm
  match all.foldl (fun (o : Option Nat) q => match o with
      | none => some (q.2.landed.headD 0)
      | some n => some (min n (q.2.landed.headD 0))) none with
  | none => .next s
  | some n =>
    let ms := all.filter fun q => q.2.landed.headD 0 == n
    if !(ms.all fun q => s.inPlace q.2) then .next s else .next (s.collective ctx comm ms peers).reap

/-! ### Messages -/

/-- Destination device and queue of an FSEND (R252). -/
def Cmd.toDev (q : Cmd) : Nat := dbits q.a 43 32
def Cmd.toQueue (q : Cmd) : Nat := dbits q.a 31 0

/-- FSENDs of a tenant to a queue of this device that have no credit, oldest first within each core. -/
def State.wantCredit (s : State) (t q : Nat) : List (Nat × Cmd) :=
  s.cores.flatMap fun k => (k.2.cmds.filter fun x =>
    decide (x.op = .fsend) && !x.ended && x.phase == 0 && x.toDev == s.hub.device.toNat && x.toQueue == q && (s.ctx x.ctx).tenant == t).map fun x => (k.1, x)

/-- An answer to a peer: device or tenant, status and data. -/
def State.answer (s : State) (who status : Nat) (d : Dword) : State := s.onHub fun h => { h with peerReplies := h.peerReplies ++ [(who, status, d)] }

/-- A credit request is turned away: a sender of this device by its status, a peer by an answer (R355, R434). -/
def State.turnAway (s : State) (mine : Option (Nat × Cmd)) (dev q status : Nat) : State :=
  match mine with
  | some (core, x) => s.setCmd core (x.stop status)
  | none => s.answer dev status (BitVec.ofNat 64 q)

/-- Credits of a requester at a queue that wait at the home or are on their way. -/
def State.creditsOut (s : State) (who q : Nat) : Nat :=
  s.hub.credits.count (who, q) + (s.hub.queueReqs.filter fun r => r.queue == q && r.gid == 2 ^ 20 + who).length

/-- The oldest FSEND of a core of this device to a queue, where the core has more FSENDs that want a credit than credits out. -/
def State.creditFor (s : State) (t q : Nat) : Option (Nat × Cmd) :=
  (s.wantCredit t q).find? fun m => decide (s.creditsOut (4096 + m.1) q < ((s.wantCredit t q).filter (·.1 == m.1)).length)

/-- FABRIC_CREDIT_REQUEST (R75, R434, R355): the home gives a free slot, or keeps the request; a header page that is parkable holds the
request with its sender. -/
def execFabricCreditRequest (dev t q : Nat) (s : State) : Host.Outcome State Fault Refusal :=
  let here := dev == s.hub.device.toNat
  let mine := if here then s.creditFor t q else none
  if here && mine.isNone then .next s
  else match s.findQueue q with
    | (.park _, s1) => .next (s1.fileFault (queueCtx q) (queueVa q) 2 [])
    | (.none, s1) => .next (s1.turnAway mine dev q 0x16).reap
    | (.ok h, s1) =>
      if !h.fabric || !h.e64 || h.peer ≠ t then .next (s1.turnAway mine dev q 0x17).reap
      else .next ((s1.onHub fun u =>
        { u with
          queueReqs := u.queueReqs ++
            [{ queue := q, gid := 2 ^ 20 + ((mine.map (4096 + ·.1)).getD dev), put := true, entry := [], dest := 0 }] }).serve q).reap

/-- The port accepts the message of an FSEND that holds a credit (R252, R297, R331, R403): a poisoned row sends nothing and returns the
credit; a detected row sends zeros. The message names its sending chunk. -/
def State.accept (s : State) (core : Nat) (q : Cmd) : State :=
  let l := spadOf (cluOf core) q.b.toNat
  match s.readSector l q.ctx 0 (.engine core) with
  | (.poison, s1) =>
    s1.setCmd core (q.stop 0x19)
  | (o, s1) =>
    let (q1, s2) := if o = .detected then s1.engDebit core q false else (q, s1)
    (s2.setCmd core { q1 with phase := 2, msg := Memory.bytes s2.mem l 64 }).onHub fun h =>
      { h with sent := h.sent ++ [(q.toDev, q.toQueue, core, q.id, q.landed.headD 0)] }

/-- A credit that goes back to its queue: INFLIGHT falls, FREE rises, and a waiting put may take it (R355, R436). No credit goes back
to a queue that is gone. -/
def State.creditBack (s : State) (q : Nat) : State :=
  match s.findQueue q with
  | (.ok h, s1) => (s1.setHeader { h with free := h.free + 1, inflight := h.inflight - 1 }).serve q
  | (_, s1) => s1

/-- The token that a remote queue home returned with its credit (R316, R321): in a recording its number and its flag are that home's, and free
(log entry 7); a foreign one is logged, and in a replay the logged one is consumed. -/
def State.farToken (s : State) (core : Nat) (q : Cmd) : State :=
  if (s.replaying? q.ctx).isSome then s.useCoreToken q.ctx core 4 q.toQueue
  else if (s.recording? q.ctx).isNone then s
  else
    let (v, s1) := s.draw
    if !(v.getLsbD 63) then s1
    else s1.addRec q.ctx (cluOf core) (mkRec 0x03 16 (cluOf core)
      [(16, 6, core % 64), (27, 4, 4), (37, 27, v.toNat % 2 ^ 27), (64, 64, q.toQueue)])

/-- FABRIC_CREDIT_GRANT (R75, R252): the credit of the oldest waiting FSEND of a core to its queue arrives, and its port takes the
message. A credit of this device's own queue must have been granted. -/
def execFabricCreditGrant (core cmd : Nat) (s : State) : Host.Outcome State Fault Refusal :=
  match s.cmd? core cmd with
  | none => .next s
  | some q =>
    let own := q.toDev == s.hub.device.toNat
    let first := !((s.core core).cmds.any fun p => decide (p.op = .fsend) && !p.ended && p.phase == 0 && decide (p.id < q.id) &&
      p.toDev == q.toDev && p.toQueue == q.toQueue)
    if q.op ≠ .fsend || q.phase ≠ 0 || !first || !(s.cmdRuns q) || (own && !(s.hub.credits.contains (4096 + core, q.toQueue))) then .next s
    else
      let s1 := if own then s.onHub fun h => { h with credits := h.credits.erase (4096 + core, q.toQueue) } else s.farToken core q
      let s2 := s1.accept core q
      .next (if (s2.cmd? core cmd).any (·.ended) then
          (if own then s2.creditBack q.toQueue else s2.answer q.toDev 0x19 (BitVec.ofNat 64 q.toQueue)) else s2).reap

/-- Where a message comes from: the sender's device and cluster, the order number of its sending chunk, and whether the sender is outside
the recorded set (R315, R323). -/
structure Sender where
  dev : Nat
  clu : Nat
  order : Nat
  ext : Bool
  deriving DecidableEq, Repr

/-- The FABRIC record of an arrival, written by the cluster that the home slice of the queue's line names, and for a sender outside
the recorded set its payload (R316, R323, R324). -/
def State.fabricRec (s : State) (h : QHdr) (m : Sender) (pa token : Nat) (payload : List Byte) : State :=
  let c := queueCtx h.id
  let clu := sliceOf h.loc % 12
  let s1 := s.addRec c clu (mkRec 0x09 24 clu
    [(16, 12, m.dev), (28, 4, m.clu), (32, 32, h.id), (64, 48, m.order), (128, 27, token), (155, 1, if m.ext then 1 else 0)])
  if m.ext then s1.input c pa token payload else s1

/-- The FABRIC record of a message at a queue: the next one from that device outside the recorded set, or the one that names its sending
chunk (R331). -/
def fabricIs (q : Nat) (m : Sender) (r : List Byte) : Bool :=
  recKind r == 0x09 && recField r 16 12 == m.dev && recField r 32 32 == q &&
    (if m.ext then recField r 155 1 == 1 else recField r 155 1 == 0 && recField r 28 4 == m.clu && recField r 64 48 == m.order)

/-- In replay, the logged token of the arrival of a peer's message at a queue (R328, R331). -/
def State.fabricLogged (s : State) (c q : Nat) (m : Sender) : Option Nat :=
  (s.replaying? c).bind fun (t, k) => ((s.sess t k).log.find? (fabricIs q m)).map fun r => recField r 128 27

/-- The payload record of an arrival from outside the recorded set, at its slot (R315, R323). -/
def payloadIs (pa token : Nat) (p : List Byte) : Bool := recKind p == 0x0A && recField p 64 64 == pa && recField p 128 27 == token

/-- The records of a replayed arrival at a slot are consumed. -/
def State.fabricUsed (s : State) (c q pa : Nat) (m : Sender) : State :=
  match s.replaying? c with
  | none => s
  | some (t, k) =>
    match takeRec (fabricIs q m) (s.sess t k).log with
    | none => s
    | some (r, l) =>
      let l1 := if !m.ext then l else ((takeRec (payloadIs pa (recField r 128 27)) l).map (·.2)).getD l
      s.onSess t k fun x => { x with log := l1 }

/-- A message fills a slot at TAIL with a credit (R436): INFLIGHT falls, TAIL rises, and the oldest waiting get takes it. -/
def State.deliver (s : State) (h : QHdr) (m : Sender) (l : Nat) (b : List Byte) (local_ : Option Nat) : State :=
  let c := queueCtx h.id
  let tok := (s.tok 4 h.id).count.toNat
  let s1 := match local_ with
    | some core => s.engToken c core 4 h.id
    | none => ((if (s.replaying? c).isSome then s.fabricUsed c h.id l m else s.fabricRec h m l tok b).token c 4 h.id (.peer m.dev) none)
  (((s1.devWriteRow l b).l3Dirty l (c + 1)).setHeader { h with inflight := h.inflight - 1, tail := (h.tail + 1) % 2 ^ 64 }).serve h.id

/-- FABRIC_DELIVERY (R252, R355, R436): the oldest accepted message of this device to the queue, or a peer's with its payload, for
which the peer holds a credit. A parkable page holds it; in replay it waits for its record, its token, and the cut of an armed stop (R330,
R331), and a live message from outside the recorded set is discarded (R328 step 8). -/
def execFabricDelivery (dev t q clu order : Nat) (ext : Bool) (payload : BitVec 512) (s : State) : Host.Outcome State Fault Refusal :=
  let sender : Sender := { dev := dev, clu := clu, order := order, ext := ext }
  let here := dev == s.hub.device.toNat
  let mine := s.hub.sent.find? fun m => m.1 == dev && m.2.1 == q
  let held := s.hub.credits.contains (dev, q)
  if (here && mine.isNone) || (!here && !held) then .next s
  else match s.findQueue q with
    | (.park _, s1) => .next (s1.fileFault (queueCtx q) (queueVa q) 2 [])
    | (.none, s1) =>
      if here then
        match mine with
        | some m => .next (match s1.cmd? m.2.2.1 m.2.2.2.1 with
            | some x => (s1.setCmd m.2.2.1 (x.stop 0x16)).onHub fun h => { h with sent := h.sent.erase m }
            | none => s1.onHub fun h => { h with sent := h.sent.erase m }).reap
        | none => .next s1.reap
      else .next ((s1.onHub fun h => { h with credits := h.credits.erase (dev, q) }).answer dev 0x16 (BitVec.ofNat 64 q)).reap
    | (.ok h, s1) =>
      let c := queueCtx q
      let ready := if here then (mine.any fun m => s1.engReady c m.2.2.1 4 q) else match s1.replaying? c with
        | none => true
        | some (tn, k) => (s1.fabricLogged c q sender).any fun n => (s1.tok 4 q).count.toNat == n && s1.arrivalInCut (s1.sess tn k) q n
      if !here && ext && (s1.replaying? c).isSome then .next (s1.answer dev t (BitVec.ofNat 64 q)).reap
      else if !ready then .next s
      else match s1.devSpot c (h.slot h.tail) .w with
        | (.park _, s2) => .next (s2.fileFault c (h.slot h.tail) 1 [])
        | (.loc l _ _, s2) =>
          if here then
            match mine with
            | some m => .next (match s2.cmd? m.2.2.1 m.2.2.2.1 with
                | some x => (((s2.setCmd m.2.2.1 { x with phase := 3 }).onHub fun u => { u with sent := u.sent.erase m }).deliver h sender l x.msg
                    (some m.2.2.1))
                | none => (s2.onHub fun u => { u with sent := u.sent.erase m }).creditBack q).reap
            | none => .next s2.reap
          else
            .next (((s2.onHub fun u => { u with credits := u.credits.erase (dev, q) }).deliver h sender l (leBytes 64 payload.toNat) none).answer dev t
              (BitVec.ofNat 64 q)).reap
        | (_, s2) => .next (s2.doom c 4).reap

/-! ### A replay's logged arrivals -/

/-- An arrival from outside the recorded set as its FABRIC record has it. -/
def extSender (r : List Byte) : Sender := { dev := recField r 16 12, clu := recField r 28 4, order := recField r 64 48, ext := true }

/-- What the log of a replaying context holds for the outside is due (R328 steps 6 and 8, R330): an input at its token, an arrival from
outside the recorded set at its token or one before it while its credit is still to be taken, a timer closing at its place in its
cluster's order. -/
def State.dueRec (s : State) (x : Session) (r : List Byte) : Bool :=
  let before := x.log.takeWhile (· != r)
  let n := recField r 128 27
  match recKind r with
  | 0x06 => recField r 26 2 == 1 && before.all fun p => !((recKind p == 0x01 || recKind p == 0x02) && recClu p == recClu r)
  | 0x09 =>
    let q := recField r 32 32
    let held := s.hub.credits.contains (recField r 16 12, q)
    recField r 155 1 == 1 && s.arrivalInCut x q n &&
      (if held then (s.tok 4 q).count.toNat == n else s.creditsOut (recField r 16 12) q == 0 && (s.tok 4 q).count.toNat + 1 == n)
  | 0x0A => isLocal (recField r 64 64) && (s.tok 0 (recField r 64 64 / 512)).count.toNat == n &&
      !(x.log.any fun p => recKind p == 0x09 && recField p 155 1 == 1 && recField p 128 27 == n)
  | _ => false

/-- A credit for an arrival from outside the recorded set is taken, or the arrival with its logged payload fills its slot (R328 step 8). -/
def State.applyArrival (s : State) (c : Nat) (x : Session) (r : List Byte) : State :=
  let q := recField r 32 32
  let dev := recField r 16 12
  match s.findQueue q with
  | (.ok h, s1) =>
    if !(s1.hub.credits.contains (dev, q)) then
      (s1.onHub fun u => { u with queueReqs := u.queueReqs ++ [{ queue := q, gid := 2 ^ 20 + dev, put := true, entry := [], dest := 0 }] }).serve q
    else match s1.devSpot c (h.slot h.tail) .w with
      | (.loc l _ _, s2) =>
        match x.log.find? (payloadIs l (recField r 128 27)) with
        | some p => (s2.onHub fun u => { u with credits := u.credits.erase (dev, q) }).deliver h (extSender r) l ((p.drop 24).take 64) none
        | none => s2.diverge c 0x02
      | (.park _, s2) => s2.fileFault c (h.slot h.tail) 1 []
      | (_, s2) => s2.doom c 4
  | (_, s1) => s1

/-- What the log of replaying context c holds for the outside is applied, the first record that is due (R328 steps 6 and 8). -/
def State.applyLog (s : State) (c : Nat) : State :=
  match s.replaying? c with
  | none => s
  | some (t, k) =>
    let x := s.sess t k
    match takeRec (s.dueRec x) x.log with
    | none => s
    | some (r, l) =>
      match recKind r with
      | 0x06 => s.timerLogged (64 * recClu r + recField r 16 6) c r
      | 0x09 => s.applyArrival c x r
      | _ => ((s.onSess t k fun y => { y with log := l }).devWriteLoc (recField r 64 64) ((r.drop 24).take (recField r 16 8 + 1))).takeTok 0
          (recField r 64 64 / 512) .host

/-- The log of a replaying context holds something for the outside that is due. -/
def State.logDue (s : State) (c : Nat) : Bool := (s.replaying? c).any fun (t, k) => (s.sess t k).log.any (s.dueRec (s.sess t k))

/-- FABRIC_ACKNOWLEDGEMENT (R252, R355): the sending port releases the message, and the sync word rises by 64. A message to this
device's own queue is acknowledged after its delivery. -/
def execFabricAcknowledgement (core cmd : Nat) (s : State) : Host.Outcome State Fault Refusal :=
  match s.cmd? core cmd with
  | none => .next s
  | some q =>
    let own := q.toDev == s.hub.device.toNat
    if q.op ≠ .fsend || q.ended || q.phase ≠ (if own then 3 else 2) then .next s
    else .next (((s.onHub fun h => { h with sent := h.sent.filter fun m => m.2.2.1 != core || m.2.2.2.1 != cmd }).setCmd core
      { q with ended := true }).syncAdd core q core 64)

/-- FABRIC_FAILURE_NOTICE (R243, R355, R434): a message that was not delivered fails its FSEND with status 0x16, and its credit goes back; a
request for a credit that a peer's home refused fails it with 0x16, or with 0x17 for a queue that is no fabric endpoint of 64-byte entries. -/
def execFabricFailureNotice (core : Nat) (n : Notice) (s : State) : Host.Outcome State Fault Refusal :=
  match s.cmd? core n.cmd with
  | none => .next s
  | some q =>
    let asked := q.phase == 0 && q.toDev != s.hub.device.toNat
    if q.op ≠ .fsend || q.ended || (if n.refused then !asked else q.phase ≠ 2 && !asked) then .next s
    else
      let s1 := (s.setCmd core (q.stop (if n.refused then 0x17 else 0x16))).onHub fun h =>
        { h with sent := h.sent.filter fun m => m.2.2.1 != core || m.2.2.2.1 != n.cmd }
      .next (if q.phase = 2 && q.toDev = s.hub.device.toNat then s1.creditBack q.toQueue else s1).reap

/-! ### Links and windows -/

/-- FABRIC_LINK_DOWN (R353): the link is taken down and reported to physical function 0, here in the management controller's log. -/
def execFabricLinkDown (port : Nat) (s : State) : Host.Outcome State Fault Refusal :=
  if 18 ≤ port then .fault .noSuchUnit
  else .next (if s.hub.portsDown.contains port then s else s.onHub fun h =>
    { h with portsDown := h.portsDown ++ [port], mcLog := h.mcLog ++ [leBytes 8 port] })

/-- The raw address that the export table gives a tenant for a window offset (R356). -/
def State.exported (s : State) (t off n : Nat) : Option Nat :=
  (List.find? (fun (e : Nat × Export) => e.2.valid && e.2.tenant == t && decide (e.2.wbase ≤ off) && decide (off + n ≤ e.2.wbase + e.2.len))
    s.hub.exports).map fun e => e.2.rbase + (off - e.2.wbase)

/-- External input at a location (R316, R321, R328): it takes its token at the home and is written there, and every recording context of the
tenant whose window holds the frame logs it; where a context of that tenant replays, it is discarded. -/
def State.outsideWrite (s : State) (loc : Nat) (who : Asker) (b : List Byte) : State :=
  let mine := s.ctxs.filter fun e => isLocal loc && SMap.look s.hub.window (loc / 2 ^ 21) 0 == e.2.tenant + 1
  if mine.any fun e => (s.replaying? e.1).isSome then s
  else ((mine.filter fun e => (s.recording? e.1).isSome).foldl (fun st e => st.input e.1 loc (s.tok 0 (loc / 512)).count.toNat b)
    (s.devWriteLoc loc b)).takeTok 0 (loc / 512) who

/-- PEER_WINDOW_REQUEST (R260, R356): a read or write of n bytes of a peer's tenant through the export table; refused where the table does
not cover it, and where the frame has another class than the peer's page. The answer is to tenant t: status 1 with the data read, 2 for
MEMFAULT, or 3 for PERM. -/
def execPeerWindowRequest (t : Nat) (p : PeerAccess) (off n : Nat) (data : Dword) (s : State) : Host.Outcome State Fault Refusal :=
  if n = 0 || 8 < n || off % n ≠ 0 then .next (s.answer t 2 0)
  else match s.exported t off n with
    | none => .next (s.answer t 2 0)
    | some a =>
      if s.fmtAt a ≠ p.cls then .next (s.answer t 3 0)
      else if p.wr then .next ((s.outsideWrite a (.peer t) (leBytes n data.toNat)).answer t 1 0)
      else match s.readSector a (64 + t) 0 (.peer t) with
        | (.poison, s1) => .next (s1.answer t 2 0)
        | (_, s1) => .next (s1.answer t 1 (BitVec.ofNat 64 (leNat ((List.range n).map fun i => s1.rawByte (a + i)))))

/-- The entry breaks the table of R356. -/
def badExport (wbase rbase len t valid : Nat) : Bool :=
  wbase % 2 ^ 21 != 0 || rbase % 2 ^ 21 != 0 || len % 2 ^ 21 != 0 || len == 0 || decide (2 ^ 39 < wbase + len) ||
  decide (0xC000000000 < rbase + len) || decide (15 < t) || decide (1 < valid)

/-- EXPORT_TABLE_WRITE (R356): a write that breaks the table or overlaps another valid entry changes nothing. -/
def execExportTableWrite (k : Nat) (wbase rbase len : Dword) (t valid : Byte) (s : State) : Host.Outcome State Fault Refusal :=
  if 256 ≤ k then .fault .noSuchUnit
  else if valid = 0 then .next (s.onHub fun h => { h with exports := SMap.del h.exports k })
  else
    let clash := s.hub.exports.any fun e => e.1 != k && e.2.valid && decide (e.2.wbase < wbase.toNat + len.toNat) &&
      decide (wbase.toNat < e.2.wbase + e.2.len)
    if badExport wbase.toNat rbase.toNat len.toNat t.toNat valid.toNat || clash then .next s
    else .next (s.onHub fun h =>
      { h with exports := SMap.put h.exports k { wbase := wbase.toNat, rbase := rbase.toNat, len := len.toNat, tenant := t.toNat, valid := true } Export.unused })

end Sys2Proof.Machine
end

