-- ==== Sys2Proof/Machine/Tenant.lean ====
section
/-! DEFINITION. Tenant commands (R350): CREATE (R277), TERMINATE (R288), PREEMPT and RETURN (R284, R285), REFILL (R299), SHOOT (R274),
POOL (R269), SHARE (R309), SEALIN (R359), REKEY (R358) and ATTEST (R360). -/

namespace Sys2Proof.Machine

/-- The context number is allotted to tenant t (R351). -/
def State.owns (s : State) (t c : Nat) : Bool := SMap.look s.hub.allot c 0 == t + 1

/-- The eight doublewords of a command at a host I/O address. -/
def State.cmdWords (s : State) (a : Dword) : List Dword := (List.range 8).map fun i => BitVec.ofNat 64 (Memory.le s.mem (hostLoc (a.toNat + 8 * i)) 8)

/-- The head command of a tenant performed by `go`, when its OP is the event's. Its first refusal by code, of those that every command
shares, is made here: an OP that no command has (0x06), the context (0x01), and doublewords that are not zero (0x02). `used` counts the
operands. A tenant's next command waits for a shoot-down of the one before (R350). -/
def runCmd (t op used : Nat) (go : List Dword → Nat → State → State) (s : State) : Host.Outcome State Fault Refusal :=
  if 16 ≤ t then .fault .noSuchUnit
  else match (s.tenant t).cmds with
    | [] => .next s
    | a :: r =>
      if !s.hub.linkUp || s.hub.shoots.any (·.tenant == some t) then .next s
      else
        let m := s.cmdWords a
        let w0 := nth m 0 0
        let c := dbits w0 13 8
        if (nth m 7 0).toNat % 8 ≠ 0 then .next (s.onTenant t fun x => { x with cmds := r, align := true })
        else if dbits w0 7 0 = 0 || 11 < dbits w0 7 0 then .next (s.cmdAnswer t 6)
        else if dbits w0 7 0 ≠ op then .next s
        else if !(s.owns t c) || (s.ctx c).used == (op == 1) then .next (s.cmdAnswer t 1)
        else if dbits w0 63 14 ≠ 0 || ((List.range 7).any fun i => decide (used < i) && nth m i 0 != 0) then .next (s.cmdAnswer t 2)
        else .next (go m c s).reap

/-! ### Contexts -/

/-- A descriptor that breaks R277 for tenant t. -/
def badDescriptor (t : Nat) (b : List Byte) : Bool :=
  let f := fieldAt b
  let tvec : Dword := BitVec.ofNat 64 (f 8 8)
  f 0 8 % 8192 != 0 || !isLocal (f 0 8) || f 8 8 % 4 != 0 || !canonical tvec || decide (f 0x18 1 < 12) || decide (24 < f 0x18 1) ||
  f 0x10 8 % 2 ^ f 0x18 1 != 0 || f 0x19 1 != t || decide (1 < f 0x1A 1) || f 0x20 8 % 2 ^ 25 != 0 || f 0x28 8 % 2 ^ 20 != 0 ||
  f 0x32 2 == 0 || decide (768 < f 0x32 2) || decide (768 < f 0x30 2 + f 0x32 2) || decide (64 < f 0x34 1) ||
  f 0x1B 5 != 0 || f 0x35 3 != 0 || f 0x3C 4 != 0 || f 0x48 184 != 0

/-- The context that a descriptor describes (R277), with the policy of CREATE. -/
def ctxOf (b : List Byte) (policy : BitVec 3) (descr : Nat) : Ctx :=
  let f := fieldAt b
  { Ctx.none with
    used := true, ptroot := BitVec.ofNat 64 (f 0 8), tvec := BitVec.ofNat 64 (f 8 8), attb := BitVec.ofNat 64 (f 0x10 8), atts := f 0x18 1
    tenant := f 0x19 1, encl := f 0x1A 1 == 1, spapb := BitVec.ofNat 64 (f 0x20 8), saveb := BitVec.ofNat 64 (f 0x28 8), sfirst := f 0x30 2
    scount := f 0x32 2, evslots := f 0x34 1, errbud := BitVec.ofNat 32 (f 0x38 4), commp := BitVec.ofNat 64 (f 0x40 8), policy := policy
    descr := descr, bytes := b }

/-- CREATE (R277, R348, R350). -/
def execCreate (t : Nat) (s : State) : Host.Outcome State Fault Refusal :=
  runCmd t 1 2 (fun m c st =>
    let a := (nth m 1 0).toNat
    let b := Memory.bytes st.mem (hostLoc a) 256
    if a % 256 ≠ 0 || 8 ≤ (nth m 2 0).toNat then st.cmdAnswer t 2
    else if badDescriptor t b then st.cmdAnswer t 3
    else if fieldAt b 0x1A 1 = 1 && decide ((st.tenant t).tdi ≠ .run) then st.cmdAnswer t 5
    else (st.setCtx c (ctxOf b ((nth m 2 0).truncate 3) (hostLoc a))).cmdAnswer t 0) s

/-- TERMINATE (R288, R350). -/
def execTerminate (t : Nat) (s : State) : Host.Outcome State Fault Refusal :=
  runCmd t 2 0 (fun _ c st => (st.terminate c 2).cmdAnswer t 0) s

/-- REFILL (R299, R350): an operation at the home of the count. -/
def execRefill (t : Nat) (s : State) : Host.Outcome State Fault Refusal :=
  runCmd t 5 1 (fun m c st =>
    if 2 ^ 32 ≤ (nth m 1 0).toNat then st.cmdAnswer t 2
    else ((st.onCtx c fun x => { x with errbud := (nth m 1 0).truncate 32 }).token c 8 c .host none).cmdAnswer t 0) s

/-! ### Pre-emption -/

/-- Crews of a context on these cores. -/
def State.crewsOn (s : State) (c : Nat) (cores : List Nat) : List (Nat × Crew) :=
  s.hub.crews.filter fun e => e.2.ctx == c && e.2.away == 0 && cores.contains e.2.core

/-- Cores that leave together with these: those of the placement units with crews on them (R46), n links away. -/
def State.unitCores (s : State) (c : Nat) (cores : List Nat) : Nat → List Nat
  | 0 => cores
  | n + 1 => s.unitCores c (cores ++ ((s.crewsOn c cores).flatMap fun e => (s.unitOf e.1 e.2).map (·.2.core))).eraseDups n

/-- Engine commands that keep a context on a core: all but COLL, which stops at a phase end (R235, R284). -/
def State.engineHolds (s : State) (c core : Nat) : Bool := (s.core core).cmds.any fun q => q.ctx == c && decide (q.op ≠ .coll)

/-- The context stops on cores that leave together, and when every group has stopped and its engine commands are done, its state goes to
the cores' slots (R284). A page that is missing holds the save; one that may not be used terminates the context. -/
def State.preemptCores (s : State) (c : Nat) (cores : List Nat) : State :=
  let ws := s.crewsOn c cores
  let gs := crewGids ws
  let s1 := (gs.filter fun g => s.stopReady g 0).foldl (fun st g => st.stopGroup g 0) s
  if ws.isEmpty || !(gs.all s1.stopped) || s1.cmdsHold gs || cores.any (s1.engineHolds c) then s1
  else
    let out := cores.foldl (fun (o : (Option Dword) ⊕ State) core => match o with
      | .inl r => .inl r
      | .inr st =>
        let mine := ws.filter fun e => e.2.core == core
        if mine.isEmpty then .inr st
        else
          let slot := core - (st.ctx c).sfirst
          match st.savePages c slot .w 16 with
          | (.inr pages, st1) => .inr (st1.leaveWith core c 1 slot mine pages)
          | (.inl r, _) => .inl r) (.inr s1)
    match out with
    | .inl (some va) => s1.fileFault c va 1 []
    | .inl none => s1.doom c 4
    | .inr t => t

/-- The cores of a PREEMPT or RETURN, when they are the context's (R278, R350). -/
def State.coreRange (s : State) (c : Nat) (m : List Dword) : Option (List Nat) :=
  let a := (nth m 1 0).toNat
  let n := (nth m 2 0).toNat
  let x := s.ctx c
  if x.sfirst ≤ a && decide (a + n ≤ x.sfirst + x.scount) then some ((List.range n).map (a + ·)) else none

/-- PREEMPT (R284, R350): the command is done when the context has left every core of the set. -/
def execPreempt (t : Nat) (s : State) : Host.Outcome State Fault Refusal :=
  runCmd t 3 2 (fun m c st =>
    match st.coreRange c m with
    | none => st.cmdAnswer t 2
    | some cores =>
      let st1 := cores.foldl (fun u core => if (u.crewsOn c [core]).isEmpty then u else u.preemptCores c (u.unitCores c [core] 64)) st
      if (st1.crewsOn c cores).isEmpty && !(st1.hub.doomed.any (·.1 == c)) then st1.cmdAnswer t 0 else st1) s

/-- RETURN (R285, R350): pre-empted crews of the cores, with the rest of their units, are called back; each returns when it fits. -/
def execReturnCtx (t : Nat) (s : State) : Host.Outcome State Fault Refusal :=
  runCmd t 4 2 (fun m c st =>
    match st.coreRange c m with
    | none => st.cmdAnswer t 2
    | some cores =>
      let back := (st.hub.crews.filter fun e => e.2.ctx == c && e.2.away == 1 && cores.contains e.2.core).flatMap fun e => (st.unitOf e.1 e.2).map (·.1)
      let st1 := st.onHub fun h =>
        { h with crews := h.crews.map fun (e : Nat × Crew) => if back.contains e.1 && e.2.away == 1 then (e.1, { e.2 with away := 3 }) else e }
      st1.placeReturns.cmdAnswer t 0) s

/-! ### Memory -/

/-- SHOOT (R274, R350): the shoot-down starts; its completion is the command's. -/
def execShoot (t : Nat) (s : State) : Host.Outcome State Fault Refusal :=
  runCmd t 6 3 (fun m c st =>
    let va := nth m 1 0
    if va.toNat % 65536 ≠ 0 || !canonical va || 1 < (nth m 3 0).toNat then st.cmdAnswer t 2
    else st.shoot (if (nth m 3 0).getLsbD 0 then none else some c) va.toNat (nth m 2 0).toNat (some t)) s

/-- The frame or slot lies in tenant t's window (R351). -/
def State.frameOf (s : State) (t a : Nat) : Bool := isLocal a && SMap.look s.hub.window (a / 2 ^ 21) 0 == t + 1

/-- Slots of frame f that a pool may hold: those of its format, less the retired ones (R289, R309). -/
def State.goodSlots (s : State) (f : Nat) : List Nat :=
  ((List.range (slotsIn (SMap.look s.hub.formats f .p))).map (32 * f + ·)).filter fun n => !(s.hub.retiredSlots.contains (n * 65536))

/-- POOL (R269, R350, R358): a frame some of whose slots are not free is in use. -/
def execPool (t : Nat) (s : State) : Host.Outcome State Fault Refusal :=
  runCmd t 7 2 (fun m c st =>
    let a := (nth m 1 0).toNat
    let f := a / 2 ^ 21
    let add := (nth m 2 0).getLsbD 0
    let slots := st.goodSlots f
    if a % 2 ^ 21 ≠ 0 || 1 < (nth m 2 0).toNat then st.cmdAnswer t 2
    else if !(st.frameOf t a) then st.cmdAnswer t 4
    else if add && (st.ctx c).encl && decide (SMap.look st.hub.formats f .p ≠ .p) then st.cmdAnswer t 5
    else if add then (st.onHub fun h => { h with pool := h.pool ++ slots.filter fun n => !h.pool.contains n }).cmdAnswer t 0
    else if !(slots.all st.hub.pool.contains) then st.cmdAnswer t 4
    else (st.onHub fun h => { h with pool := h.pool.filter fun n => !slots.contains n }).cmdAnswer t 0) s

/-- SHARE (R309, R350). -/
def execShare (t : Nat) (s : State) : Host.Outcome State Fault Refusal :=
  runCmd t 8 2 (fun m _ st =>
    let a := (nth m 1 0).toNat
    if a % 65536 ≠ 0 then st.cmdAnswer t 2
    else if !(st.frameOf t a) then st.cmdAnswer t 4
    else (st.onHub fun h => { h with shared := SMap.put h.shared a (nth m 2 0) 0 }).cmdAnswer t 0) s

/-! ### Enclaves -/

/-- n bytes of the security processor's for a purpose and an input (log entry 15). -/
def secret (purpose n : Nat) (input : List Byte) : List Byte := (List.range n).map fun i => nth (Config.crypto purpose input) i 0

/-- Bytes written from a virtual address of an enclave context on by the security processor, a page of 64 KiB at a time and at most k of them;
none when a page may not be written or is no enclave page, with its address when it is only missing. -/
def State.enclWrite (s : State) (c : Nat) (va : Dword) (b : List Byte) : Nat → (Option Dword) ⊕ State
  | 0 => .inr s
  | k + 1 =>
    if b.isEmpty then .inr s else
      let n := 65536 - va.toNat % 65536
      match s.devSpot c va .w with
      | (.loc l _ true, s1) => (s1.devWriteRow l (b.take n)).enclWrite c (va + BitVec.ofNat 64 n) (b.drop n) k
      | (.park _, _) => .inl (some va)
      | _ => .inl none

/-- SEALIN (R350, R359): what the security processor unwraps and decrypts is its own (log entry 15); a tag failure writes nothing. -/
def execSealin (t : Nat) (s : State) : Host.Outcome State Fault Refusal :=
  runCmd t 9 3 (fun m c st =>
    let blob := Memory.bytes st.mem (hostLoc (nth m 1 0).toNat) (nth m 3 0).toNat
    let plain := (List.range blob.length).map fun i => nth (Config.crypto 0 blob) i 0
    if !(st.ctx c).encl then st.cmdAnswer t 5
    else if !(Config.verifies 0 blob) then st.cmdAnswer t 2
    else match st.enclWrite c (nth m 2 0) plain (plain.length / 65536 + 2) with
      | .inl (some va) => st.fileFault c va 1 []
      | .inl none => st.cmdAnswer t 2
      | .inr st1 => (st1.onCtx c fun x => { x with digests := x.digests ++ [secret 1 48 blob] }).cmdAnswer t 0) s

/-- REKEY (R350, R358): the counters start again, so the region is no longer exhausted. -/
def execRekey (t : Nat) (s : State) : Host.Outcome State Fault Refusal :=
  runCmd t 10 1 (fun m c st =>
    if !(st.ctx c).encl then st.cmdAnswer t 5
    else match (st.devWalk c (nth m 1 0)).1 with
      | .leaf e =>
        if e.pte.getLsbD 8 && canonical (nth m 1 0) then ((st.onCtx c fun x => { x with exhausted := false }).encFresh c).cmdAnswer t 0
        else st.cmdAnswer t 2
      | _ => st.cmdAnswer t 2) s

/-- The 264 bytes of an attestation report (R360). -/
def State.report (s : State) (c : Nat) (nonce : List Byte) : List Byte :=
  let x := s.ctx c
  let measured := x.bytes ++ x.digests.flatten
  secret 2 16 [] ++ secret 3 48 [] ++ secret 4 48 measured ++ nonce ++ leBytes 8 x.policy.toNat ++ secret 5 8 [] ++ secret 6 97 (leBytes 2 c) ++ leBytes 7 0

/-- ATTEST (R350, R360): the report, then its ECDSA and LMS signatures, the second for the next leaf. -/
def execAttest (t : Nat) (s : State) : Host.Outcome State Fault Refusal :=
  runCmd t 11 2 (fun m c st =>
    if !(st.ctx c).encl || decide (2 ^ 20 ≤ st.hub.reports) then st.cmdAnswer t 5
    else
      let rep := st.report c (Memory.bytes st.mem (hostLoc (nth m 1 0).toNat) 32)
      let signed := rep ++ secret 7 96 rep ++ secret 8 1140 (leBytes 4 st.hub.reports ++ rep)
      ((st.onHub fun h => { h with reports := h.reports + 1 }).devWriteLoc (hostLoc (nth m 2 0).toNat) signed).cmdAnswer t 0) s

end Sys2Proof.Machine
end

