-- ==== Sys2Proof/Machine/Dispatch.lean ====
section
/-! DEFINITION. The one table from instructions and events to their meanings. -/

namespace Sys2Proof.Machine

def exec (i : Instr) (s : State) : Host.Outcome State Fault Refusal :=
  match i with
  | .nop x => Sys2Proof.Machine.execNop x s
  | .exit x => Sys2Proof.Machine.execExit x s
  | .trap x b => Sys2Proof.Machine.execTrap x b s
  | .tfence x => Sys2Proof.Machine.execTfence x s
  | .eret x => Sys2Proof.Machine.execEret x s
  | .yield x => Sys2Proof.Machine.execYield x s
  | .rdflag x d => Sys2Proof.Machine.execRdflag x d s
  | .clrflag x b => Sys2Proof.Machine.execClrflag x b s
  | .rdcyc x d => Sys2Proof.Machine.execRdcyc x d s
  | .sadd x d a b => Sys2Proof.Machine.execSadd x d a b s
  | .ssub x d a b => Sys2Proof.Machine.execSsub x d a b s
  | .smul x d a b => Sys2Proof.Machine.execSmul x d a b s
  | .smulh x d a b => Sys2Proof.Machine.execSmulh x d a b s
  | .sand x d a b => Sys2Proof.Machine.execSand x d a b s
  | .sor x d a b => Sys2Proof.Machine.execSor x d a b s
  | .sxor x d a b => Sys2Proof.Machine.execSxor x d a b s
  | .sshl x d a b => Sys2Proof.Machine.execSshl x d a b s
  | .sshr x d a b => Sys2Proof.Machine.execSshr x d a b s
  | .ssra x d a b => Sys2Proof.Machine.execSsra x d a b s
  | .smin x d a b => Sys2Proof.Machine.execSmin x d a b s
  | .smax x d a b => Sys2Proof.Machine.execSmax x d a b s
  | .sminn x d a b => Sys2Proof.Machine.execSminn x d a b s
  | .smaxn x d a b => Sys2Proof.Machine.execSmaxn x d a b s
  | .ssel x d a b => Sys2Proof.Machine.execSsel x d a b s
  | .smov x d b => Sys2Proof.Machine.execSmov x d b s
  | .sdiv x d a b => Sys2Proof.Machine.execSdiv x d a b s
  | .sdivn x d a b => Sys2Proof.Machine.execSdivn x d a b s
  | .srem x d a b => Sys2Proof.Machine.execSrem x d a b s
  | .sremn x d a b => Sys2Proof.Machine.execSremn x d a b s
  | .sclz x d a => Sys2Proof.Machine.execSclz x d a s
  | .spop x d a => Sys2Proof.Machine.execSpop x d a s
  | .ssext x d a b => Sys2Proof.Machine.execSsext x d a b s
  | .sbfx x d a b => Sys2Proof.Machine.execSbfx x d a b s
  | .scmpEq x d a b => Sys2Proof.Machine.execScmpEq x d a b s
  | .scmpNe x d a b => Sys2Proof.Machine.execScmpNe x d a b s
  | .scmpLt x d a b => Sys2Proof.Machine.execScmpLt x d a b s
  | .scmpLtn x d a b => Sys2Proof.Machine.execScmpLtn x d a b s
  | .scmpLe x d a b => Sys2Proof.Machine.execScmpLe x d a b s
  | .scmpLen x d a b => Sys2Proof.Machine.execScmpLen x d a b s
  | .saddi x d a im => Sys2Proof.Machine.execSaddi x d a im s
  | .sandi x d a im => Sys2Proof.Machine.execSandi x d a im s
  | .sori x d a im => Sys2Proof.Machine.execSori x d a im s
  | .sxori x d a im => Sys2Proof.Machine.execSxori x d a im s
  | .sshiShl x d a im => Sys2Proof.Machine.execSshiShl x d a im s
  | .sshiShr x d a im => Sys2Proof.Machine.execSshiShr x d a im s
  | .sshiSra x d a im => Sys2Proof.Machine.execSshiSra x d a im s
  | .scmpiEq x d a im => Sys2Proof.Machine.execScmpiEq x d a im s
  | .scmpiLt x d a im => Sys2Proof.Machine.execScmpiLt x d a im s
  | .scmpiLtn x d a im => Sys2Proof.Machine.execScmpiLtn x d a im s
  | .scmpiNe x d a im => Sys2Proof.Machine.execScmpiNe x d a im s
  | .slui x d im => Sys2Proof.Machine.execSlui x d im s
  | .smovi x d im => Sys2Proof.Machine.execSmovi x d im s
  | .br x o => Sys2Proof.Machine.execBr x o s
  | .brZ x a o => Sys2Proof.Machine.execBrZ x a o s
  | .brNz x a o => Sys2Proof.Machine.execBrNz x a o s
  | .brNeg x a o => Sys2Proof.Machine.execBrNeg x a o s
  | .brNneg x a o => Sys2Proof.Machine.execBrNneg x a o s
  | .brPany x a o => Sys2Proof.Machine.execBrPany x a o s
  | .brPall x a o => Sys2Proof.Machine.execBrPall x a o s
  | .brPnone x a o => Sys2Proof.Machine.execBrPnone x a o s
  | .brEmz x o => Sys2Proof.Machine.execBrEmz x o s
  | .call x k im => Sys2Proof.Machine.execCall x k im s
  | .ret x => Sys2Proof.Machine.execRet x s
  | .jr x a => Sys2Proof.Machine.execJr x a s
  | .callr x k a => Sys2Proof.Machine.execCallr x k a s
  | .winv x b => Sys2Proof.Machine.execWinv x b s
  | .wins x b => Sys2Proof.Machine.execWins x b s
  | .winq x d => Sys2Proof.Machine.execWinq x d s
  | .pand x d a b => Sys2Proof.Machine.execPand x d a b s
  | .por x d a b => Sys2Proof.Machine.execPor x d a b s
  | .pxor x d a b => Sys2Proof.Machine.execPxor x d a b s
  | .pandn x d a b => Sys2Proof.Machine.execPandn x d a b s
  | .pnot x d a => Sys2Proof.Machine.execPnot x d a s
  | .pset x d b => Sys2Proof.Machine.execPset x d b s
  | .pget x d a => Sys2Proof.Machine.execPget x d a s
  | .emset x a => Sys2Proof.Machine.execEmset x a s
  | .emget x d => Sys2Proof.Machine.execEmget x d s
  | .emand x a => Sys2Proof.Machine.execEmand x a s
  | .ppop x d a => Sys2Proof.Machine.execPpop x d a s
  | .pfirst x d a => Sys2Proof.Machine.execPfirst x d a s
  | .vaddI32 x d a b => Sys2Proof.Machine.execVaddI32 x d a b s
  | .vsubI32 x d a b => Sys2Proof.Machine.execVsubI32 x d a b s
  | .vmulI32 x d a b => Sys2Proof.Machine.execVmulI32 x d a b s
  | .vmulhI32 x d a b => Sys2Proof.Machine.execVmulhI32 x d a b s
  | .vmadI32 x d a b => Sys2Proof.Machine.execVmadI32 x d a b s
  | .vandI32 x d a b => Sys2Proof.Machine.execVandI32 x d a b s
  | .vorI32 x d a b => Sys2Proof.Machine.execVorI32 x d a b s
  | .vxorI32 x d a b => Sys2Proof.Machine.execVxorI32 x d a b s
  | .vshlI32 x d a b => Sys2Proof.Machine.execVshlI32 x d a b s
  | .vshrI32 x d a b => Sys2Proof.Machine.execVshrI32 x d a b s
  | .vsraI32 x d a b => Sys2Proof.Machine.execVsraI32 x d a b s
  | .vminI32 x d a b => Sys2Proof.Machine.execVminI32 x d a b s
  | .vmaxI32 x d a b => Sys2Proof.Machine.execVmaxI32 x d a b s
  | .vminnI32 x d a b => Sys2Proof.Machine.execVminnI32 x d a b s
  | .vmaxnI32 x d a b => Sys2Proof.Machine.execVmaxnI32 x d a b s
  | .vabsI32 x d a => Sys2Proof.Machine.execVabsI32 x d a s
  | .vaddI16 x d a b => Sys2Proof.Machine.execVaddI16 x d a b s
  | .vsubI16 x d a b => Sys2Proof.Machine.execVsubI16 x d a b s
  | .vmulI16 x d a b => Sys2Proof.Machine.execVmulI16 x d a b s
  | .vmulhI16 x d a b => Sys2Proof.Machine.execVmulhI16 x d a b s
  | .vmadI16 x d a b => Sys2Proof.Machine.execVmadI16 x d a b s
  | .vandI16 x d a b => Sys2Proof.Machine.execVandI16 x d a b s
  | .vorI16 x d a b => Sys2Proof.Machine.execVorI16 x d a b s
  | .vxorI16 x d a b => Sys2Proof.Machine.execVxorI16 x d a b s
  | .vshlI16 x d a b => Sys2Proof.Machine.execVshlI16 x d a b s
  | .vshrI16 x d a b => Sys2Proof.Machine.execVshrI16 x d a b s
  | .vsraI16 x d a b => Sys2Proof.Machine.execVsraI16 x d a b s
  | .vminI16 x d a b => Sys2Proof.Machine.execVminI16 x d a b s
  | .vmaxI16 x d a b => Sys2Proof.Machine.execVmaxI16 x d a b s
  | .vminnI16 x d a b => Sys2Proof.Machine.execVminnI16 x d a b s
  | .vmaxnI16 x d a b => Sys2Proof.Machine.execVmaxnI16 x d a b s
  | .vabsI16 x d a => Sys2Proof.Machine.execVabsI16 x d a s
  | .vaddI64 x d a b => Sys2Proof.Machine.execVaddI64 x d a b s
  | .vsubI64 x d a b => Sys2Proof.Machine.execVsubI64 x d a b s
  | .vmulI64 x d a b => Sys2Proof.Machine.execVmulI64 x d a b s
  | .vmulhI64 x d a b => Sys2Proof.Machine.execVmulhI64 x d a b s
  | .vmadI64 x d a b => Sys2Proof.Machine.execVmadI64 x d a b s
  | .vandI64 x d a b => Sys2Proof.Machine.execVandI64 x d a b s
  | .vorI64 x d a b => Sys2Proof.Machine.execVorI64 x d a b s
  | .vxorI64 x d a b => Sys2Proof.Machine.execVxorI64 x d a b s
  | .vshlI64 x d a b => Sys2Proof.Machine.execVshlI64 x d a b s
  | .vshrI64 x d a b => Sys2Proof.Machine.execVshrI64 x d a b s
  | .vsraI64 x d a b => Sys2Proof.Machine.execVsraI64 x d a b s
  | .vminI64 x d a b => Sys2Proof.Machine.execVminI64 x d a b s
  | .vmaxI64 x d a b => Sys2Proof.Machine.execVmaxI64 x d a b s
  | .vminnI64 x d a b => Sys2Proof.Machine.execVminnI64 x d a b s
  | .vmaxnI64 x d a b => Sys2Proof.Machine.execVmaxnI64 x d a b s
  | .vabsI64 x d a => Sys2Proof.Machine.execVabsI64 x d a s
  | .vsel x k d a b => Sys2Proof.Machine.execVsel x k d a b s
  | .vmov x d b => Sys2Proof.Machine.execVmov x d b s
  | .vclz x d a => Sys2Proof.Machine.execVclz x d a s
  | .vpop x d a => Sys2Proof.Machine.execVpop x d a s
  | .vlid x d => Sys2Proof.Machine.execVlid x d s
  | .vcmpEqI32 x d a b => Sys2Proof.Machine.execVcmpEqI32 x d a b s
  | .vcmpNeI32 x d a b => Sys2Proof.Machine.execVcmpNeI32 x d a b s
  | .vcmpLtI32 x d a b => Sys2Proof.Machine.execVcmpLtI32 x d a b s
  | .vcmpLeI32 x d a b => Sys2Proof.Machine.execVcmpLeI32 x d a b s
  | .vcmpLtN32 x d a b => Sys2Proof.Machine.execVcmpLtN32 x d a b s
  | .vcmpLeN32 x d a b => Sys2Proof.Machine.execVcmpLeN32 x d a b s
  | .vcmpEqF32 x d a b => Sys2Proof.Machine.execVcmpEqF32 x d a b s
  | .vcmpLtF32 x d a b => Sys2Proof.Machine.execVcmpLtF32 x d a b s
  | .vcmpLeF32 x d a b => Sys2Proof.Machine.execVcmpLeF32 x d a b s
  | .vcmpUnF32 x d a b => Sys2Proof.Machine.execVcmpUnF32 x d a b s
  | .vcmpEqF64 x d a b => Sys2Proof.Machine.execVcmpEqF64 x d a b s
  | .vcmpLtF64 x d a b => Sys2Proof.Machine.execVcmpLtF64 x d a b s
  | .vcmpLeF64 x d a b => Sys2Proof.Machine.execVcmpLeF64 x d a b s
  | .vcmpUnF64 x d a b => Sys2Proof.Machine.execVcmpUnF64 x d a b s
  | .vfaddF32 x d a b => Sys2Proof.Machine.execVfaddF32 x d a b s
  | .vfsubF32 x d a b => Sys2Proof.Machine.execVfsubF32 x d a b s
  | .vfmulF32 x d a b => Sys2Proof.Machine.execVfmulF32 x d a b s
  | .vfmaF32 x d a b => Sys2Proof.Machine.execVfmaF32 x d a b s
  | .vfnmaF32 x d a b => Sys2Proof.Machine.execVfnmaF32 x d a b s
  | .vfminF32 x d a b => Sys2Proof.Machine.execVfminF32 x d a b s
  | .vfmaxF32 x d a b => Sys2Proof.Machine.execVfmaxF32 x d a b s
  | .vfabsF32 x d a => Sys2Proof.Machine.execVfabsF32 x d a s
  | .vfnegF32 x d a => Sys2Proof.Machine.execVfnegF32 x d a s
  | .vfclassF32 x d a => Sys2Proof.Machine.execVfclassF32 x d a s
  | .vfaddF16 x d a b => Sys2Proof.Machine.execVfaddF16 x d a b s
  | .vfsubF16 x d a b => Sys2Proof.Machine.execVfsubF16 x d a b s
  | .vfmulF16 x d a b => Sys2Proof.Machine.execVfmulF16 x d a b s
  | .vfmaF16 x d a b => Sys2Proof.Machine.execVfmaF16 x d a b s
  | .vfnmaF16 x d a b => Sys2Proof.Machine.execVfnmaF16 x d a b s
  | .vfminF16 x d a b => Sys2Proof.Machine.execVfminF16 x d a b s
  | .vfmaxF16 x d a b => Sys2Proof.Machine.execVfmaxF16 x d a b s
  | .vfnegF16 x d a => Sys2Proof.Machine.execVfnegF16 x d a s
  | .vfaddBf16 x d a b => Sys2Proof.Machine.execVfaddBf16 x d a b s
  | .vfsubBf16 x d a b => Sys2Proof.Machine.execVfsubBf16 x d a b s
  | .vfmulBf16 x d a b => Sys2Proof.Machine.execVfmulBf16 x d a b s
  | .vfmaBf16 x d a b => Sys2Proof.Machine.execVfmaBf16 x d a b s
  | .vfnmaBf16 x d a b => Sys2Proof.Machine.execVfnmaBf16 x d a b s
  | .vfminBf16 x d a b => Sys2Proof.Machine.execVfminBf16 x d a b s
  | .vfmaxBf16 x d a b => Sys2Proof.Machine.execVfmaxBf16 x d a b s
  | .vfnegBf16 x d a => Sys2Proof.Machine.execVfnegBf16 x d a s
  | .vfaddF64 x d a b => Sys2Proof.Machine.execVfaddF64 x d a b s
  | .vfsubF64 x d a b => Sys2Proof.Machine.execVfsubF64 x d a b s
  | .vfmulF64 x d a b => Sys2Proof.Machine.execVfmulF64 x d a b s
  | .vfmaF64 x d a b => Sys2Proof.Machine.execVfmaF64 x d a b s
  | .vfnmaF64 x d a b => Sys2Proof.Machine.execVfnmaF64 x d a b s
  | .vfminF64 x d a b => Sys2Proof.Machine.execVfminF64 x d a b s
  | .vfmaxF64 x d a b => Sys2Proof.Machine.execVfmaxF64 x d a b s
  | .vfabsF64 x d a => Sys2Proof.Machine.execVfabsF64 x d a s
  | .vfnegF64 x d a => Sys2Proof.Machine.execVfnegF64 x d a s
  | .vfclassF64 x d a => Sys2Proof.Machine.execVfclassF64 x d a s
  | .vfrcp x d a => Sys2Proof.Machine.execVfrcp x d a s
  | .vfrsq x d a => Sys2Proof.Machine.execVfrsq x d a s
  | .vfsqrt x d a => Sys2Proof.Machine.execVfsqrt x d a s
  | .vfdiv x d a b => Sys2Proof.Machine.execVfdiv x d a b s
  | .vfexp2 x d a => Sys2Proof.Machine.execVfexp2 x d a s
  | .vflog2 x d a => Sys2Proof.Machine.execVflog2 x d a s
  | .vfsin x d a => Sys2Proof.Machine.execVfsin x d a s
  | .vfcos x d a => Sys2Proof.Machine.execVfcos x d a s
  | .vftanh x d a => Sys2Proof.Machine.execVftanh x d a s
  | .vfrcpF64 x d a => Sys2Proof.Machine.execVfrcpF64 x d a s
  | .vfrsqF64 x d a => Sys2Proof.Machine.execVfrsqF64 x d a s
  | .vcvt x d a c => Sys2Proof.Machine.execVcvt x d a c s
  | .vcvtRz x d a c => Sys2Proof.Machine.execVcvtRz x d a c s
  | .vcvtRn x d a c => Sys2Proof.Machine.execVcvtRn x d a c s
  | .vcvtSr x d a c => Sys2Proof.Machine.execVcvtSr x d a c s
  | .vpack x d a c => Sys2Proof.Machine.execVpack x d a c s
  | .vunpk x d a c => Sys2Proof.Machine.execVunpk x d a c s
  | .vscaccE8m0 x d a b => Sys2Proof.Machine.execVscaccE8m0 x d a b s
  | .vscaccE4m3 x d a b => Sys2Proof.Machine.execVscaccE4m3 x d a b s
  | .vscaccBf16 x d a b => Sys2Proof.Machine.execVscaccBf16 x d a b s
  | .vscaccF32 x d a b => Sys2Proof.Machine.execVscaccF32 x d a b s
  | .vshuf x d a b => Sys2Proof.Machine.execVshuf x d a b s
  | .vvote x d a b => Sys2Proof.Machine.execVvote x d a b s
  | .velect x d a => Sys2Proof.Machine.execVelect x d a s
  | .vredAddF32 x d a => Sys2Proof.Machine.execVredAddF32 x d a s
  | .vredAddI32 x d a => Sys2Proof.Machine.execVredAddI32 x d a s
  | .vredMaxF32 x d a => Sys2Proof.Machine.execVredMaxF32 x d a s
  | .vredMinF32 x d a => Sys2Proof.Machine.execVredMinF32 x d a s
  | .vscanAddI32 x d a => Sys2Proof.Machine.execVscanAddI32 x d a s
  | .ld x w sc d a b => Sys2Proof.Machine.execLd x w sc d a b s
  | .st x w d a b => Sys2Proof.Machine.execSt x w d a b s
  | .vld x c d a b => Sys2Proof.Machine.execVld x c d a b s
  | .vldc x c d a b => Sys2Proof.Machine.execVldc x c d a b s
  | .vld2 x c d a b => Sys2Proof.Machine.execVld2 x c d a b s
  | .vst x d a b => Sys2Proof.Machine.execVst x d a b s
  | .vstc x d a b => Sys2Proof.Machine.execVstc x d a b s
  | .vst2 x d a b => Sys2Proof.Machine.execVst2 x d a b s
  | .spld x d a b => Sys2Proof.Machine.execSpld x d a b s
  | .spst x d a b => Sys2Proof.Machine.execSpst x d a b s
  | .atom x o d a b => Sys2Proof.Machine.execAtom x o d a b s
  | .vatom x o d a b => Sys2Proof.Machine.execVatom x o d a b s
  | .spatom x o d a b => Sys2Proof.Machine.execSpatom x o d a b s
  | .fence x k sc => Sys2Proof.Machine.execFence x k sc s
  | .flush x sc => Sys2Proof.Machine.execFlush x sc s
  | .inval x sc => Sys2Proof.Machine.execInval x sc s
  | .pref x l a b => Sys2Proof.Machine.execPref x l a b s
  | .waitc x c b => Sys2Proof.Machine.execWaitc x c b s
  | .mwait x d a b => Sys2Proof.Machine.execMwait x d a b s
  | .syncw x d a b => Sys2Proof.Machine.execSyncw x d a b s
  | .syncset x a b => Sys2Proof.Machine.execSyncset x a b s
  | .bar x => Sys2Proof.Machine.execBar x s
  | .boarr x d a => Sys2Proof.Machine.execBoarr x d a s
  | .bowait x a b => Sys2Proof.Machine.execBowait x a b s
  | .boinit x a b => Sys2Proof.Machine.execBoinit x a b s
  | .cpyG2s x a b e => Sys2Proof.Machine.execCpyG2s x a b e s
  | .cpyS2g x a b e => Sys2Proof.Machine.execCpyS2g x a b e s
  | .cpyS2s x a b e => Sys2Proof.Machine.execCpyS2s x a b e s
  | .cpyX x a b e => Sys2Proof.Machine.execCpyX x a b e s
  | .gthr x a b e => Sys2Proof.Machine.execGthr x a b e s
  | .coll x a b e => Sys2Proof.Machine.execColl x a b e s
  | .fsend x a b e => Sys2Proof.Machine.execFsend x a b e s
  | .tgive x a b e => Sys2Proof.Machine.execTgive x a b e s
  | .ttake x a b => Sys2Proof.Machine.execTtake x a b s
  | .tchk x a b => Sys2Proof.Machine.execTchk x a b s
  | .mma x f a b e => Sys2Proof.Machine.execMma x f a b e s
  | .mmab x f a b e => Sys2Proof.Machine.execMmab x f a b e s
  | .mbatch x d a => Sys2Proof.Machine.execMbatch x d a s
  | .mbwait x d a => Sys2Proof.Machine.execMbwait x d a s
  | .mqry x d => Sys2Proof.Machine.execMqry x d s
  | .spawn x a b => Sys2Proof.Machine.execSpawn x a b s
  | .bincfg x a b => Sys2Proof.Machine.execBincfg x a b s
  | .binflush x => Sys2Proof.Machine.execBinflush x s
  | .launch x a => Sys2Proof.Machine.execLaunch x a s
  | .dqpush x d b => Sys2Proof.Machine.execDqpush x d b s
  | .dqpop x d => Sys2Proof.Machine.execDqpop x d s
  | .dqsteal x d a => Sys2Proof.Machine.execDqsteal x d a s
  | .dqlen x d a => Sys2Proof.Machine.execDqlen x d a s
  | .qput x a b => Sys2Proof.Machine.execQput x a b s
  | .qget x d a b => Sys2Proof.Machine.execQget x d a b s
  | .qfree x d a => Sys2Proof.Machine.execQfree x d a s
  | .qtryput x d a b => Sys2Proof.Machine.execQtryput x d a b s
  | .qtryget x d a b => Sys2Proof.Machine.execQtryget x d a b s
  | .tbset x d a => Sys2Proof.Machine.execTbset x d a s
  | .tbclr x d => Sys2Proof.Machine.execTbclr x d s
  | .ebud x d => Sys2Proof.Machine.execEbud x d s
  | .liveq x d => Sys2Proof.Machine.execLiveq x d s
  | .bkpt x => Sys2Proof.Machine.execBkpt x s
  | .rmark x b => Sys2Proof.Machine.execRmark x b s
  | .dmbox x a => Sys2Proof.Machine.execDmbox x a s
  | .rdsr x d im => Sys2Proof.Machine.execRdsr x d im s
  | .wrsr x a im => Sys2Proof.Machine.execWrsr x a im s
  | .runaheadEnd g => Sys2Proof.Machine.execRunaheadEnd g s
  | .variableResultLands g im => Sys2Proof.Machine.execVariableResultLands g im s
  | .splitLoadReply g im => Sys2Proof.Machine.execSplitLoadReply g im s
  | .groupEnd g => Sys2Proof.Machine.execGroupEnd g s
  | .retirementReleaseDone l lv u => Sys2Proof.Machine.execRetirementReleaseDone l lv u s
  | .outqPut l => Sys2Proof.Machine.execOutqPut l s
  | .inqTake l => Sys2Proof.Machine.execInqTake l s
  | .boundArrayLoad l => Sys2Proof.Machine.execBoundArrayLoad l s
  | .qtailDoorbell tn q v => Sys2Proof.Machine.execQtailDoorbell tn q v s
  | .qbaseWrite tn q v => Sys2Proof.Machine.execQbaseWrite tn q v s
  | .qctlWrite tn q v => Sys2Proof.Machine.execQctlWrite tn q v s
  | .submissionEntryFetch fail => Sys2Proof.Machine.execSubmissionEntryFetch fail s
  | .placementPass => Sys2Proof.Machine.execPlacementPass s
  | .turnEnd core => Sys2Proof.Machine.execTurnEnd core s
  | .progressEviction core => Sys2Proof.Machine.execProgressEviction core s
  | .spawnBinTimer core bin => Sys2Proof.Machine.execSpawnBinTimer core bin s
  | .dequeService core => Sys2Proof.Machine.execDequeService core s
  | .copyPieceLands core cmd first count => Sys2Proof.Machine.execCopyPieceLands core cmd first count s
  | .gatherRowLands core cmd row => Sys2Proof.Machine.execGatherRowLands core cmd row s
  | .matrixOperation pair => Sys2Proof.Machine.execMatrixOperation pair s
  | .collectiveComplete ctx comm peers => Sys2Proof.Machine.execCollectiveComplete ctx comm peers s
  | .engineCommandComplete core cmd => Sys2Proof.Machine.execEngineCommandComplete core cmd s
  | .fabricCreditRequest dev tn q => Sys2Proof.Machine.execFabricCreditRequest dev tn q s
  | .fabricDelivery dev tn q clu order ext payload => Sys2Proof.Machine.execFabricDelivery dev tn q clu order ext payload s
  | .fabricFailureNotice core cmd => Sys2Proof.Machine.execFabricFailureNotice core cmd s
  | .fabricLinkDown port => Sys2Proof.Machine.execFabricLinkDown port s
  | .peerWindowRequest tn wr off n data => Sys2Proof.Machine.execPeerWindowRequest tn wr off n data s
  | .exportTableWrite k wbase rbase len tn valid => Sys2Proof.Machine.execExportTableWrite k wbase rbase len tn valid s
  | .faultService f => Sys2Proof.Machine.execFaultService f s
  | .cellarExpansionDone f => Sys2Proof.Machine.execCellarExpansionDone f s
  | .migrateOnTouchDone f => Sys2Proof.Machine.execMigrateOnTouchDone f s
  | .fresWrite tn ring v => Sys2Proof.Machine.execFresWrite tn ring v s
  | .walkComplete k => Sys2Proof.Machine.execWalkComplete k s
  | .pageMigration ctx va dst => Sys2Proof.Machine.execPageMigration ctx va dst s
  | .shootdownComplete k => Sys2Proof.Machine.execShootdownComplete k s
  | .filterClear slice => Sys2Proof.Machine.execFilterClear slice s
  | .pinSwap stack channel pin => Sys2Proof.Machine.execPinSwap stack channel pin s
  | .sectorPin pa => Sys2Proof.Machine.execSectorPin pa s
  | .format frame fmt => Sys2Proof.Machine.execFormat frame fmt s
  | .inject site uncorr dirty => Sys2Proof.Machine.execInject site uncorr dirty s
  | .testModeExit => Sys2Proof.Machine.execTestModeExit s
  | .reset bad bootOk dev => Sys2Proof.Machine.execReset bad bootOk dev s
  | .hostSelfTest core pass => Sys2Proof.Machine.execHostSelfTest core pass s
  | .powerAlarm die => Sys2Proof.Machine.execPowerAlarm die s
  | .arbiterInterval mw => Sys2Proof.Machine.execArbiterInterval mw s
  | .junctionTemperatureAlarm die temp => Sys2Proof.Machine.execJunctionTemperatureAlarm die temp s
  | .overtemperatureCutoff die temp => Sys2Proof.Machine.execOvertemperatureCutoff die temp s
  | .tdiError tn => Sys2Proof.Machine.execTdiError tn s
  | .create tn => Sys2Proof.Machine.execCreate tn s
  | .terminate tn => Sys2Proof.Machine.execTerminate tn s
  | .preempt tn => Sys2Proof.Machine.execPreempt tn s
  | .returnCtx tn => Sys2Proof.Machine.execReturnCtx tn s
  | .refill tn => Sys2Proof.Machine.execRefill tn s
  | .shoot tn => Sys2Proof.Machine.execShoot tn s
  | .pool tn => Sys2Proof.Machine.execPool tn s
  | .share tn => Sys2Proof.Machine.execShare tn s
  | .sealin tn => Sys2Proof.Machine.execSealin tn s
  | .rekey tn => Sys2Proof.Machine.execRekey tn s
  | .attest tn => Sys2Proof.Machine.execAttest tn s
  | .ringRrdWrite tn ring v => Sys2Proof.Machine.execRingRrdWrite tn ring v s
  | .ringEnable tn ring v => Sys2Proof.Machine.execRingEnable tn ring v s
  | .sessionOpen tn k v => Sys2Proof.Machine.execSessionOpen tn k v s
  | .sessionClose tn k v => Sys2Proof.Machine.execSessionClose tn k v s
  | .sessionCloseComplete tn k => Sys2Proof.Machine.execSessionCloseComplete tn k s
  | .lrdWrite tn k v => Sys2Proof.Machine.execLrdWrite tn k v s
  | .lwrWrite tn k v => Sys2Proof.Machine.execLwrWrite tn k v s
  | .replayResume tn k v => Sys2Proof.Machine.execReplayResume tn k v s
  | .recorderSpill u => Sys2Proof.Machine.execRecorderSpill u s
  | .chunkCountLimit g => Sys2Proof.Machine.execChunkCountLimit g s
  | .sample core => Sys2Proof.Machine.execSample core s
  | .debugRegisterWrite tn core off v => Sys2Proof.Machine.execDebugRegisterWrite tn core off v s
  | .wrbp core => Sys2Proof.Machine.execWrbp core s
  | .wrwp core => Sys2Proof.Machine.execWrwp core s
  | .halt core => Sys2Proof.Machine.execHalt core s
  | .resume core => Sys2Proof.Machine.execResume core s
  | .step core => Sys2Proof.Machine.execStep core s
  | .rdst core => Sys2Proof.Machine.execRdst core s
  | .rdv core => Sys2Proof.Machine.execRdv core s
  | .setev core => Sys2Proof.Machine.execSetev core s
  | .registerWrite tn off v => Sys2Proof.Machine.execRegisterWrite tn off v s
  | .illegalWord reason word => Sys2Proof.Machine.execIllegalWord reason word s
  | .cellarCompression ctx va img => Sys2Proof.Machine.execCellarCompression ctx va img s
  | .accessPerformed g im => Sys2Proof.Machine.execAccessPerformed g im s
  | .fetchReturn g => Sys2Proof.Machine.execFetchReturn g s
  | .fabricAcknowledgement core cmd => Sys2Proof.Machine.execFabricAcknowledgement core cmd s
  | .fabricCreditGrant core cmd => Sys2Proof.Machine.execFabricCreditGrant core cmd s
  | .tdiStateChange tn st => Sys2Proof.Machine.execTdiStateChange tn st s
  | .testModeEntry => Sys2Proof.Machine.execTestModeEntry s
  | .hostLinkDown => Sys2Proof.Machine.execHostLinkDown s

end Sys2Proof.Machine
end

