-- ==== Sys2Proof/Machine/Sched.lean ====
section
/-! DEFINITION. Fetching a bundle (R101, R124, R126, R183, R260, R265, R294, R539), issuing one group's next bundle (R76 to R79,
R281, R339, R343), and the moves that the machine makes when its agenda names none (log entries 1 and 2). -/

namespace Sys2Proof.Machine

/-- What the fetch of a bundle ends with. -/
inductive Fetch where
  | ok (i : Instr)
  | illegal (e : DecErr)
  | bad (va : Dword)
  | perm (va : Dword)
  | park (va : Dword) (cellar : Bool)
  | walk (va : Dword)
  | miss
  | poison (loc : Nat) (va : Dword)
  deriving DecidableEq, Repr

/-- One instruction word of group g: its value through the cluster's L2, or why there is none. -/
def State.fetchWord (s : State) (g : Nat) (va : Dword) : (Word ⊕ Fetch) × State :=
  match s.spot g va .x false with
  | (.bad, s1) => (.inr (.bad va), s1)
  | (.perm, s1) => (.inr (.perm va), s1)
  | (.park c, s1) => (.inr (.park va c), s1)
  | (.walk, s1) => (.inr (.walk va), s1)
  | (.loc l hint _, s1) =>
    let k := cluOf (coreOf g)
    let x := s1.sector k l
    if x.valid &&& byteMask (l % 64) 4 ≠ byteMask (l % 64) 4 then (.inr .miss, s1)
    else match s1.l2Read k l 4 (s1.grp g).ctx va.toNat hint (.group g) with
      | (.poison, _, s2) => (.inr (.poison l va), s2)
      | (_, v, s2) => (.inl (BitVec.ofNat 32 v), s2)

/-- The bundle of group g from address va on, behind the words ws with the prefixes px, in at most n words. The group keeps its words. -/
noncomputable def State.fetchFrom (s : State) (g : Nat) (va : Dword) (ws : List Word) (px : Pfx) : Nat → Fetch × State
  | 0 => (.illegal ⟨0x06, 0⟩, s)
  | n + 1 =>
    match s.fetchWord g va with
    | (.inr f, s1) => (f, s1)
    | (.inl w, s1) =>
      match scanWord px w with
      | .bad e => (.illegal e, s1)
      | .done i => (.ok i, s1.onGrp g fun x => { x with bundle := ws ++ [w] })
      | .more p => s1.fetchFrom g (va + 4) (ws ++ [w]) p n

/-- A bundle is under way, at a later repeat or with its wait's result in hand: it is not fetched again (R80, R115). -/
def Group.underWay (x : Group) : Bool :=
  !x.bundle.isEmpty && (x.rep != 0 || (match x.wait.cond with
    | .handed _ _ => true
    | _ => false))

/-- The bundle at group g's pc: at most four prefixes of different kinds and the instruction word (R101). -/
noncomputable def State.fetch (s : State) (g : Nat) : Fetch × State :=
  if (s.grp g).underWay then
    match decodeWords (s.grp g).bundle with
    | .ok i _ => (.ok i, s)
    | _ => s.fetchFrom g (s.grp g).pc [] Pfx.none 6
  else s.fetchFrom g (s.grp g).pc [] Pfx.none 6

/-- A fetch that did not give a bundle, for a group in run-ahead: it stops (R205, R206); otherwise the exception or park. -/
def State.fetchFails (s : State) (g : Nat) (f : Fetch) : State :=
  let x := s.grp g
  let ra := x.runAhead.isSome
  let late := decide (x.atRep ≠ 0)
  match f with
  | .bad va => if ra then s.runStop else (s.raise 5 va late).reap
  | .perm va => if ra then s.runStop else (s.raise 6 va late).reap
  | .park va c => if ra then s.runStop else (s.pageFault g [(va, c)] 3).parkMe (if c then 18 else 17) .fault
  | .walk va => (s.askWalk g va ra).parkMe 19 .walk
  | .miss => s.parkMe 23 .fetch
  | .poison l va => if ra then s.runStop else s.kill g x.live 2 l va
  | _ => s

/-- The group stands at the start of a bundle that it has not yet tried (R281). -/
def Group.fresh (x : Group) : Bool :=
  x.rep == 0 && (match x.wait.cond with
    | .ready => true
    | .marker => true
    | _ => false)

/-- The bundle of the current group, fetched and executed. -/
noncomputable def State.runBundle (s : State) : Host.Outcome State Fault Refusal :=
  match s.fetch s.cur with
  | (.ok i, s1) => exec i s1
  | (.illegal e, s1) => exec (.illegalWord e.reason e.word) s1
  | (f, s1) => .next (s1.fetchFails s.cur f)

/-- A breakpoint that fires at the current group's bundle: the trap or the halt (R281, R339, R342). -/
def State.breakTaken (s : State) (b : Nat × BreakReg × Word × Bool) : State :=
  if b.2.1.bpc.getLsbD 16 then (s.raise 0x0C (BitVec.ofNat 64 b.1) (decide (s.me.atRep ≠ 0))).reap
  else s.haltSet s.cur (dbits b.2.1.bpc 9 8) 1 b.2.2.1.toNat b.1 b.2.2.2 0

/-- After an issue: the scheduler has issued in this cycle, and its pick and the group's age are noted (R78, R79). -/
def State.issued (s : State) (g : Nat) : State :=
  let c := coreOf g
  let n := slotOf g / 12
  let s1 := s.onCore c fun k => { k with picked := vset k.picked n (slotOf g % 12), busy := vset k.busy n (max (vat k.busy n 0) (k.cycles + 1)) }
  if (s1.grp g).used then s1.onGrp g fun x => { x with age := max (s1.core c).cycles x.skip } else s1

/-- Group g is the one that its scheduler issues in this cycle (R76 to R79). -/
def State.mayIssue (s : State) (g : Nat) : Bool := s.choice (coreOf g) (slotOf g / 12) == some g

/-- The current group as it stands when its bundle starts: awake, and a single step noting its bundle (R343). -/
def State.atBundle (s : State) (g : Nat) : State :=
  let s2 := { s.wake g with cur := g }
  if (s.grp g).fresh then s2.onMe fun x => { x with stepPc := x.pc } else s2

/-- In replay, the halt that the log has at group g's position: the group halts, for a reason that the log does not hold and that is free
(R328 step 7, log entry 7). -/
def State.replayHalt (s : State) (g : Nat) : State :=
  let (v, s1) := s.draw
  s1.haltOne g (v.toNat % 5 + 1) 0 0 false 0

/-- A halt of the replay log is due for group g. -/
def State.haltDue (s : State) (g : Nat) : Bool :=
  (s.grp g).used && !(s.grp g).halted && !(s.grp g).leaving && (s.traptDue g (· == 4)).isSome

/-- Group g issues its next bundle, its next repeat, or the bundle it was parked at, in the first cycle in which a scheduler can issue; a
group that is not its scheduler's choice then does not. -/
noncomputable def State.issueGroup (s : State) (g : Nat) : Host.Outcome State Fault Refusal :=
  if s.haltDue g then .next (s.replayHalt g)
  else
    let s0 := s.toIssue g 3
    if !s0.mayIssue g then .next s0
    else
      let s1 := (s0.atBundle g).replayKill g
      if !(s1.ready g) then .next s1
      else match (if (s0.grp g).fresh then s1.breakAt g else none) with
        | some b => .next (s1.breakTaken b)
        | none =>
          match s1.runBundle with
          | .next t => .next (t.issued g)
          | o => o

/-- n idle cycles of a core: in a cycle in which a scheduler has a group to issue none is idle, and with a group about to be ready they
pass one at a time (R78). -/
def State.idleCycles (s : State) (core n : Nat) : State :=
  let s1 := s.thisTurn core
  if s1.mustIssue core then s1
  else if (s1.gidsOn core).any s1.ready then s1.nextCycle core
  else (s1.cyclesPass core n).settleTurn core

/-- Another device of the pod reaches this one: a fabric port is up (R353, R354). -/
def State.podUp (s : State) : Bool := decide (s.hub.portsDown.length < 18)

/-- A command of a core sends to this device's own queue (R403). -/
def State.sendsHome (s : State) (core cmd : Nat) : Bool := (s.cmd? core cmd).any fun q => q.toDev == s.hub.device.toNat

/-- A device held in reset, or without power, acts on nothing but a reset (R10, R20); while its link is down nothing that the host does
reaches it (R10, R346), and while every fabric port is down nothing that another device does (R353, R354). -/
def State.reached (s : State) (i : Instr) : Bool :=
  match i with
  | .reset .. => true
  | .overtemperatureCutoff .. => s.hub.powered
  | .qtailDoorbell .. | .qbaseWrite .. | .qctlWrite .. | .fresWrite .. | .ringRrdWrite .. | .ringEnable .. | .sessionOpen .. | .sessionClose ..
  | .lrdWrite .. | .lwrWrite .. | .replayResume .. | .debugRegisterWrite .. | .registerWrite .. | .hostSelfTest .. | .tdiStateChange ..
  | .exportTableWrite .. => s.hub.up && s.hub.linkUp
  | .fabricCreditRequest dev .. | .fabricDelivery dev .. => s.hub.up && (s.podUp || dev == s.hub.device.toNat)
  | .fabricCreditGrant core cmd | .fabricAcknowledgement core cmd => s.hub.up && (s.podUp || s.sendsHome core cmd)
  | .peerWindowRequest .. => s.hub.up && s.podUp
  | _ => s.hub.up

/-- A register of group g suffers an error (R90, log entry 77). -/
def State.strike (s : State) (g : Nat) (m : RegMark) : State :=
  if (s.grp g).used then s.onGrp g fun x => { x with regMarks := m :: x.regMarks.filter fun q => q.reg != m.reg } else s

/-- A move of the agenda (log entry 1): a group's issue, an event, idle cycles of a core, an eviction from an L2, a register's error, or what a
replay's log holds for the outside. -/
noncomputable def State.move (s : State) (m : Move) : Host.Outcome State Fault Refusal :=
  match m with
  | .issue g => if 18432 ≤ g then .fault .noSuchUnit else s.issueGroup g
  | .ev i => if i.pre?.isSome || !s.reached i then .next s else exec i s
  | .idle c n => if 768 ≤ c then .fault .noSuchUnit else .next (s.idleCycles c n)
  | .evict k n => if 12 ≤ k then .fault .noSuchUnit else .next (s.evictLine k n).reap
  | .strike g m => if 18432 ≤ g then .fault .noSuchUnit else .next (s.strike g m)
  | .apply c => if 64 ≤ c then .fault .noSuchUnit else .next (s.applyLog c).reap

/-- A group of a core that issues when asked to, or whose halt is due. -/
def State.pick (s : State) (core : Nat) : Option Nat :=
  let s1 := s.thisTurn core
  match (s.gidsOn core).find? s.haltDue with
  | some g => some g
  | none => match s1.choice core 0 with
    | some g => some g
    | none => match s1.choice core 1 with
      | some g => some g
      | none => (s.gidsOn core).find? s.ready

/-- The group that issues next when the agenda is empty: on the core with the fewest cycles (R78, log entry 2). -/
def State.nextIssue (s : State) : Option Nat :=
  (s.cores.foldl (fun (o : Option (Nat × Nat)) (k : Nat × Core) => match s.pick k.1 with
    | none => o
    | some g => match o with
      | none => some (k.2.cycles, g)
      | some (n, h) => if k.2.cycles < n then some (k.2.cycles, g) else some (n, h)) none).map (·.2)

/-- The move that the machine makes when the agenda is empty (log entry 2): walks, fetches and outstanding accesses first, then
ends of groups and of units, requests at deques, what a replay's log holds for the outside, and the issue of a group. -/
noncomputable def State.defaultMove (s : State) : Option Move :=
  match List.find? (fun (k : Nat × Cluster) => !k.2.walks.isEmpty) s.clusters with
  | some k => some (.ev (.walkComplete k.1))
  | none =>
  match s.gids.find? fun g => decide ((s.grp g).wait.cond = .fetch) with
  | some g => some (.ev (.fetchReturn g))
  | none =>
  match s.gids.findSome? fun g => ((s.grp g).flights.find? (s.mayPerform g)).map fun f => (g, f) with
  | some (g, f) =>
    some (.ev (if f.dest.isEmpty then .accessPerformed g f.id else if f.ctr.isSome then .splitLoadReply g f.id else .variableResultLands g f.id))
  | none =>
  match s.gids.find? fun g => decide ((s.grp g).live = 0) with
  | some g => some (.ev (.groupEnd g))
  | none =>
  match List.find? (fun (k : Nat × Core) => !k.2.dqReqs.isEmpty) s.cores with
  | some k => some (.ev (.dequeService k.1))
  | none =>
  match (List.range 64).find? s.logDue with
  | some c => some (.apply c)
  | none =>
  match s.hub.launches.findSome? fun (l : Nat × Launch) => (l.2.releases.find? fun r => !(s.unitBusy l.1 r.1 r.2)).map fun r => (l.1, r) with
  | some (l, r) => some (.ev (.retirementReleaseDone l r.1 r.2))
  | none =>
  match s.nextIssue with
  | some g => some (.issue g)
  | none => if s.hub.launches.isEmpty then none else some (.ev .placementPass)

end Sys2Proof.Machine
end

