-- ==== Sys2Proof/Machine/Step.lean ====
section
/-! DEFINITION. One step of the machine: the head of the agenda, or the default move (log entries 1 and 2); and the state with
an instruction placed where the next step fetches it (log entry 3). -/

namespace Sys2Proof.Machine

/-- One step. With an empty agenda and no move to make, the machine waits. -/
noncomputable def step (s : State) : Host.Outcome State Fault Refusal :=
  match s.agenda with
  | m :: r => State.move { s with agenda := r } m
  | [] =>
    match s.defaultMove with
    | some m => s.move m
    | none => .next s

/-- The address at which the placed instruction stands (log entry 3). -/
def fetchBase : Dword := 0x40000000

/-- A leaf that maps the 64 KiB page at fetchBase to the frame at address 0: RESIDENT, class P, fetch allowed. -/
def fetchLeaf : TlbEntry := { ctx := 0, base := 0x40000000, size := 0x10000, pte := 0x801 }

/-- A group of context 0 with its whole windows, at fetchBase. -/
def fetchGroup : Group :=
  { Group.idle with used := true, pc := fetchBase, em := 0xFFFFFFFF, live := 0xFFFFFFFF, av := 96, as := 96 }

/-- The 64 bytes of a sector that starts with the instruction's bytes and goes on with zeros. -/
def fetchSector (nbits w : Nat) : Sector :=
  { Sector.empty with data := BitVec.ofNat 512 (w % 2 ^ nbits), valid := 0xFFFFFFFFFFFFFFFF }

/-- The state in which group slot 0 of core 0 issues next, and its next bundle is the instruction (log entry 3): a launch has put
a group there, its context holds the turn, and the core's caches hold the translation and the instruction. -/
def State.withFetchWord (s : State) (nbits w : Nat) : State :=
  let s1 := (s.setGrp 0 fetchGroup).setCtx 0 { Ctx.none with used := true, tvec := 0x40008000 }
  let s2 := s1.onCore 0 fun k => { k with resident := vset k.resident 0 (some 0), turn := 0, turnLeft := 256, l1tlb := [fetchLeaf] }
  { s2.setSector 0 0 (fetchSector nbits w) with agenda := [.issue 0] }

end Sys2Proof.Machine
end

