-- ==== Sys2Proof/Safety.lean ====
section
/-! DEFINITION. What counts as a safe run: no step stops the machine, and memory keeps its canonical form. The terms that statements
about one instruction use: a group outside sessions and single steps, what a group holds besides its bundle's bookkeeping, and what an
instruction leaves alone. -/

namespace Sys2Proof.Safety

open Sys2Proof.Machine

/-- The outcome of n steps. -/
def runs : Nat → State → State → Prop
  | 0, s, t => s = t
  | n + 1, s, t => ∃ u, Machine.step s = .next u ∧ runs n u t

/-- No step of a run of any length from s faults or is refused. -/
def NeverStops (s : State) : Prop := ∀ n t, runs n s t → ∃ u, Machine.step t = .next u

/-- Memory keeps its canonical form along every run from s. -/
def MemoryCanonical (s : State) : Prop := ∀ n t, runs n s t → t.mem.wf = true

/-- Memory, the group slots and the cores are in canonical form: equal contents are equal lists. Every step keeps this. -/
structure Canonical (s : State) : Prop where
  mem : s.mem.wf = true
  groups : SMap.wf Group.idle s.groups = true
  cores : SMap.wf Core.idle s.cores = true

/-- The current slot holds a group that stands behind no marker (R119), that no session records or replays (R313) and that the debugger
does not step (R343), and no context is about to be terminated (R288). -/
structure Plain (s : State) : Prop where
  used : s.me.used = true
  awake : s.me.wait.cond ≠ .marker
  alone : s.session? s.me.ctx = none
  free : s.me.step = none
  calm : s.hub.doomed = []

/-- A group without the bookkeeping of its bundle: where it stands, what it waits for, its pending marks, its open chunk and its
run-ahead. Every register of R81 and R94, every outstanding access, batch and binding remains. -/
def arch (g : Group) : Group :=
  { g with
    pc := 0, rep := 0, resume := 0, wait := Wait.none, unfin := 0, clamped := false, walked := [], givenUp := [], noCheck := false, partLoad := none, queued := 0
    pend := [], owed := [], due := [], runAhead := none, chunk := Chunk.new }

/-- A core without its event counts (R337) and register-port cycles (R79). -/
def uncounted (k : Core) : Core := { k with counters := [], busy := Vector.replicate 2 0, rmw := Vector.replicate 2 0 }

/-- Outside the current group, s and t hold the same: every other group, every byte of memory, every cache, context, tenant and hub
unit, and the cores but for their event counts. -/
structure Elsewhere (s t : State) : Prop where
  cur : t.cur = s.cur
  groups : ∀ g, g ≠ s.cur → t.grp g = s.grp g
  mem : ∀ a, Memory.byte t.mem a = Memory.byte s.mem a
  clusters : t.clusters = s.clusters
  ctxs : t.ctxs = s.ctxs
  tenants : t.tenants = s.tenants
  hub : t.hub = s.hub
  cores : ∀ c, uncounted (t.core c) = uncounted (s.core c)

/-- The repeat that the current group's bundle is about to execute (R115, R116). -/
def repNow (x : Pre) (s : State) : Nat := startRep x s.me

/-- The field values of that repeat (R113). -/
def fieldsNow (x : Pre) (o : Op) (s : State) : Flds := fldsAt x o.flds (repNow x s)

/-- After one repeat of the bundle the group stands at its next repeat, or after the last one at `dest` (R101, R113, R115). -/
def Advances (x : Pre) (dest : Dword) (s t : State) : Prop :=
  if repNow x s + 1 < repsOf x then t.me.pc = s.me.pc ∧ t.me.rep = repNow x s + 1 else t.me.pc = dest ∧ t.me.rep = 0

/-- The address after the current group's bundle (R101). -/
def nextPc (x : Pre) (s : State) : Dword := afterBundle x s.me.pc

/-- Instruction i, in bundle prefixes x with the fields of o, completes: the group becomes g in all but bookkeeping, stands behind the
repeat, and nothing else changes. -/
def Becomes (i : Instr) (x : Pre) (s : State) (g : Group) : Prop :=
  ∃ t, Machine.exec i s = .next t ∧ arch t.me = arch g ∧ Elsewhere s t ∧ Advances x (nextPc x s) s t

/-- Instruction i writes v to the scalar register of its field d, and nothing else. -/
def SetsScalar (i : Instr) (x : Pre) (o : Op) (v : Flds → State → Dword) : Prop :=
  ∀ s, Plain s → Issues x o s → Becomes i x s (s.me.setSabs (s.me.sb + (fieldsNow x o s).d.toNat) (v (fieldsNow x o s) s))

/-- The group with predicate n replaced; p0 discards the write (R81, R430). -/
def withPred (g : Group) (n : Nat) (v : Word) : Group := if n = 0 then g else { g with preds := vset g.preds n v }

/-- Instruction i writes v to the predicate of its field d, and nothing else. -/
def SetsPred (i : Instr) (x : Pre) (o : Op) (v : Flds → State → Word) : Prop :=
  ∀ s, Plain s → Issues x o s → Becomes i x s (withPred s.me (fieldsNow x o s).d.toNat (v (fieldsNow x o s) s))

/-- The flags that a bundle's LANE prefix sets: DEADREAD when a lane of ACT reads a dead lane (R118). -/
def laneDead (x : Pre) (g : Group) : Word :=
  if deadRead g.act g.live (lanePatAt x .a) || (x.px.imm.isNone && deadRead g.act g.live (lanePatAt x .b)) then flDEAD else 0

/-- The group with flags set (R150). -/
def withFlags (g : Group) (m : Word) : Group := { g with fflags := g.fflags ||| m.zeroExtend 64 }

/-- A vector instruction does nothing while no lane acts (R25); else it makes g of the group, with the flags of its LANE prefix. -/
def lanewise (x : Pre) (s : State) (g : Group) : Group := if s.me.act = 0 then s.me else withFlags g (laneDead x s.me)

/-- Instruction i writes lane by lane the values v to the vector register of its field d, sets the flags fl of the lanes of ACT, and does
nothing else (R83, R91, R118). -/
def SetsVector (i : Instr) (x : Pre) (o : Op) (v : Flds → State → Nat → Word) (fl : Flds → State → Nat → Word) : Prop :=
  ∀ s, Plain s → Issues x o s →
    let r := fieldsNow x o s
    Becomes i x s (lanewise x s (withFlags (s.me.writeReg (destV s.me r.d) (v r s)) (flagsOf s.me.act (fl r s))))

/-- The group with a vector pair written, the even register first (R83, R107). -/
def writePair (g : Group) (d : Reg) (v : Nat → Dword) : Group :=
  (g.writeReg (destV g d) fun i => (v i).truncate 32).writeReg (destV g (d + 1)) fun i => (v i >>> 32).truncate 32

/-- Instruction i writes lane by lane the values v to the vector pair of its field d, sets the flags fl of the lanes of ACT, and does
nothing else. -/
def SetsPair (i : Instr) (x : Pre) (o : Op) (v : Flds → State → Nat → Dword) (fl : Flds → State → Nat → Word) : Prop :=
  ∀ s, Plain s → Issues x o s →
    let r := fieldsNow x o s
    Becomes i x s (lanewise x s (withFlags (writePair s.me r.d (v r s)) (flagsOf s.me.act (fl r s))))

/-- No flags. -/
def noFlags : Flds → State → Nat → Word := fun _ _ _ => 0

/-- A division writes v to its destination; a zero divisor sets FFLAGS.IDZ and no other flag. -/
def Divides (i : Instr) (x : Pre) (o : Op) (v : Dword → Dword → Dword) : Prop :=
  ∀ s, Plain s → Issues x o s →
    let r := fieldsNow x o s
    let g := s.me.setSabs (s.me.sb + r.d.toNat) (v (s.readS r.a) (s.srcS x r.b))
    Becomes i x s (if s.srcS x r.b = 0 then withFlags g flIDZ else g)

/-- 1 for a condition that holds, else 0. -/
def oneIf (p : Prop) [Decidable p] : Dword := if p then 1 else 0

/-- Instruction i jumps: the group becomes g in all but bookkeeping and stands at dest, and nothing else changes. -/
def Jumps (i : Instr) (s : State) (dest : Dword) (g : Group) : Prop :=
  ∃ t, Machine.exec i s = .next t ∧ arch t.me = arch g ∧ Elsewhere s t ∧ t.me.pc = dest ∧ t.me.rep = 0

/-- A branch to n words past its bundle: not taken, the group goes on behind it; taken, it stands at the destination when that is
canonical (R110, R111). -/
def Branches (i : Instr) (x : Pre) (o : Op) (n : Dword) (taken : Flds → State → Prop) : Prop :=
  ∀ s, Plain s → Issues x o s →
    (¬ taken (fieldsNow x o s) s → Becomes i x s s.me) ∧
    (taken (fieldsNow x o s) s → canonical (nextPc x s + 4 * n) = true → Jumps i s (nextPc x s + 4 * n) s.me)

/-- The current group may take an exception: its context has a handler, and it is not in it (R280, R282). -/
structure Ready (s : State) : Prop where
  plain : Plain s
  out : s.me.intrap = false
  handler : (s.ctx s.me.ctx).tvec ≠ 0

/-- Instruction i takes the exception `cause` with value `tval` (R280 to R282): TCAUSE, TPC, TVAL and RPIDX are written, the group is in
its handler at TVEC, and besides them the group becomes g; nothing else changes from w, which the instruction's own reads have made of s. -/
def TakesTrapFrom (i : Instr) (inRep : Bool) (k : Nat) (s w : State) (cause : Nat) (tval : Dword) (g : Group) : Prop :=
  ∃ t, Machine.exec i s = .next t ∧ Elsewhere w t ∧ t.me.pc = (s.ctx s.me.ctx).tvec ∧ t.me.intrap = true ∧
    t.me.tcause = BitVec.ofNat 64 (cause + if inRep then 256 else 0) ∧ t.me.tpc = s.me.pc ∧ t.me.tval = tval ∧
    t.me.rpidx = (if inRep then BitVec.ofNat 64 k else s.me.rpidx) ∧ t.me.rep = 0 ∧ t.me.wait = Wait.none ∧
    arch { t.me with
      intrap := g.intrap, tcause := g.tcause, tpc := g.tpc, tval := g.tval, rpidx := g.rpidx, kept := g.kept } = arch g

/-- Instruction i takes the exception `cause` with value `tval`, the group becomes g besides, and nothing else changes. -/
def TakesTrap (i : Instr) (inRep : Bool) (k : Nat) (s : State) (cause : Nat) (tval : Dword) (g : Group) : Prop :=
  TakesTrapFrom i inRep k s s cause tval g

end Sys2Proof.Safety
end

