-- ==== Sys2Proof/Certificates/Slice0/Obligations.lean ====
section
/-! DEFINITION. The statements about this model. Those about one instruction hold outside sessions and single steps (`Plain`), for a
bundle that passes the checks of R124 (`Issues`), in every form of the instruction: `x` holds the prefixes, the operand fields are those
of the repeat about to execute. -/

open Sys2Proof Sys2Proof.Machine Sys2Proof.Safety

/-! ### Scalar instructions -/

/-- SADD, SSUB and SMUL wrap modulo 2^64; SMULH gives the high half of the signed product; the logical operations act bit by bit; shifts
multiply and divide by a power of two, by bits [5:0] of b alone (R143, R445). -/
def Obligations.ScalarArithmetic : Prop := ∀ (x : Pre) (d a b : Reg),
  SetsScalar (.sadd x d a b) x (opRRR x 2 0 d a b) (fun r s => BitVec.ofNat 64 ((s.readS r.a).toNat + (s.srcS x r.b).toNat)) ∧
  SetsScalar (.ssub x d a b) x (opRRR x 2 1 d a b) (fun r s => BitVec.ofInt 64 ((s.readS r.a).toInt - (s.srcS x r.b).toInt)) ∧
  SetsScalar (.smul x d a b) x (opRRR x 2 2 d a b) (fun r s => BitVec.ofNat 64 ((s.readS r.a).toNat * (s.srcS x r.b).toNat)) ∧
  SetsScalar (.smulh x d a b) x (opRRR x 2 3 d a b) (fun r s => BitVec.ofInt 64 ((s.readS r.a).toInt * (s.srcS x r.b).toInt / 2 ^ 64)) ∧
  SetsScalar (.sand x d a b) x (opRRR x 2 4 d a b) (fun r s => BitVec.ofNat 64 ((s.readS r.a).toNat &&& (s.srcS x r.b).toNat)) ∧
  SetsScalar (.sor x d a b) x (opRRR x 2 5 d a b) (fun r s => BitVec.ofNat 64 ((s.readS r.a).toNat ||| (s.srcS x r.b).toNat)) ∧
  SetsScalar (.sxor x d a b) x (opRRR x 2 6 d a b) (fun r s => BitVec.ofNat 64 ((s.readS r.a).toNat ^^^ (s.srcS x r.b).toNat)) ∧
  SetsScalar (.sshl x d a b) x (opRRR x 2 7 d a b) (fun r s => BitVec.ofNat 64 ((s.readS r.a).toNat * 2 ^ ((s.srcS x r.b).toNat % 64))) ∧
  SetsScalar (.sshr x d a b) x (opRRR x 2 8 d a b) (fun r s => BitVec.ofNat 64 ((s.readS r.a).toNat / 2 ^ ((s.srcS x r.b).toNat % 64))) ∧
  SetsScalar (.ssra x d a b) x (opRRR x 2 9 d a b) (fun r s => BitVec.ofInt 64 ((s.readS r.a).toInt / 2 ^ ((s.srcS x r.b).toNat % 64)))

/-- Minima and maxima, signed and unsigned; SSEL chooses by the old d; SMOV copies b; SCLZ counts the zero bits above the highest set bit, SPOP
the set bits; SSEXT extends the low n + 1 bits by their sign; SBFX takes w bits from bit lo up (R445). -/
def Obligations.ScalarSelectBits : Prop := ∀ (x : Pre) (d a b : Reg),
  SetsScalar (.smin x d a b) x (opRRR x 2 10 d a b) (fun r s => BitVec.ofInt 64 (min (s.readS r.a).toInt (s.srcS x r.b).toInt)) ∧
  SetsScalar (.smax x d a b) x (opRRR x 2 11 d a b) (fun r s => BitVec.ofInt 64 (max (s.readS r.a).toInt (s.srcS x r.b).toInt)) ∧
  SetsScalar (.sminn x d a b) x (opRRR x 2 12 d a b) (fun r s => BitVec.ofNat 64 (min (s.readS r.a).toNat (s.srcS x r.b).toNat)) ∧
  SetsScalar (.smaxn x d a b) x (opRRR x 2 13 d a b) (fun r s => BitVec.ofNat 64 (max (s.readS r.a).toNat (s.srcS x r.b).toNat)) ∧
  SetsScalar (.ssel x d a b) x { opRRR x 2 14 d a b with flds := [⟨.d, .s, .rw, d⟩, ⟨.a, .s, .rd, a⟩, ⟨.b, .s, .rd, b⟩] }
    (fun r s => if s.readS r.d = 0 then s.srcS x r.b else s.readS r.a) ∧
  SetsScalar (.smov x d b) x { opRRR x 2 15 d 0 b with flds := [⟨.d, .s, .wr, d⟩, ⟨.b, .s, .rd, b⟩] } (fun r s => s.srcS x r.b) ∧
  SetsScalar (.sclz x d a) x (opRRZ x 3 4 d a) (fun r s => BitVec.ofNat 64 (if s.readS r.a = 0 then 64 else 63 - (s.readS r.a).toNat.log2)) ∧
  SetsScalar (.spop x d a) x (opRRZ x 3 5 d a)
    (fun r s => BitVec.ofNat 64 ((List.range 64).countP fun i => (s.readS r.a).toNat / 2 ^ i % 2 = 1)) ∧
  SetsScalar (.ssext x d a b) x (opRRR x 3 6 d a b)
    (fun r s => let n := (s.srcS x r.b).toNat % 64 + 1
      BitVec.ofInt 64 (((s.readS r.a).toNat : Int).bmod (2 ^ n))) ∧
  SetsScalar (.sbfx x d a b) x (opRRR x 3 7 d a b)
    (fun r s => BitVec.ofNat 64 ((s.readS r.a).toNat / 2 ^ ((s.srcS x r.b).toNat % 64) % 2 ^ ((s.srcS x r.b).toNat / 256 % 64 + 1)))

/-- Quotients round toward zero and remainders take the sign of the dividend; by zero, the quotient is 0, the remainder the dividend and
IDZ is set; the most negative value by −1 gives itself and 0 (R155). -/
def Obligations.ScalarDivision : Prop := ∀ (x : Pre) (d a b : Reg),
  Divides (.sdiv x d a b) x (opRRR x 3 0 d a b) (fun a b => if b = 0 then 0 else BitVec.ofInt 64 (a.toInt.tdiv b.toInt)) ∧
  Divides (.sdivn x d a b) x (opRRR x 3 1 d a b) (fun a b => BitVec.ofNat 64 (a.toNat / b.toNat)) ∧
  Divides (.srem x d a b) x (opRRR x 3 2 d a b) (fun a b => if b = 0 then a else BitVec.ofInt 64 (a.toInt.tmod b.toInt)) ∧
  Divides (.sremn x d a b) x (opRRR x 3 3 d a b) (fun a b => BitVec.ofNat 64 (a.toNat % b.toNat))

/-- Compares of two registers, or of a register and an immediate extended by its sign, write 1 or 0 (R445, R446). -/
def Obligations.ScalarCompare : Prop := ∀ (x : Pre) (d a b : Reg) (im : BitVec 9),
  SetsScalar (.scmpEq x d a b) x (opRRR x 3 8 d a b) (fun r s => oneIf ((s.readS r.a).toNat = (s.srcS x r.b).toNat)) ∧
  SetsScalar (.scmpNe x d a b) x (opRRR x 3 9 d a b) (fun r s => oneIf ((s.readS r.a).toNat ≠ (s.srcS x r.b).toNat)) ∧
  SetsScalar (.scmpLt x d a b) x (opRRR x 3 10 d a b) (fun r s => oneIf ((s.readS r.a).toInt < (s.srcS x r.b).toInt)) ∧
  SetsScalar (.scmpLtn x d a b) x (opRRR x 3 11 d a b) (fun r s => oneIf ((s.readS r.a).toNat < (s.srcS x r.b).toNat)) ∧
  SetsScalar (.scmpLe x d a b) x (opRRR x 3 12 d a b) (fun r s => oneIf ((s.readS r.a).toInt ≤ (s.srcS x r.b).toInt)) ∧
  SetsScalar (.scmpLen x d a b) x (opRRR x 3 13 d a b) (fun r s => oneIf ((s.readS r.a).toNat ≤ (s.srcS x r.b).toNat)) ∧
  SetsScalar (.scmpiEq x d a im) x (opRI x 9 d a (0#2 ++ im)) (fun r s => oneIf ((s.readS r.a).toInt = (immExt x im).toInt)) ∧
  SetsScalar (.scmpiLt x d a im) x (opRI x 9 d a (1#2 ++ im)) (fun r s => oneIf ((s.readS r.a).toInt < (immExt x im).toInt)) ∧
  SetsScalar (.scmpiLtn x d a im) x (opRI x 9 d a (2#2 ++ im)) (fun r s => oneIf ((s.readS r.a).toNat < (immExt x im).toNat)) ∧
  SetsScalar (.scmpiNe x d a im) x (opRI x 9 d a (3#2 ++ im)) (fun r s => oneIf ((s.readS r.a).toInt ≠ (immExt x im).toInt))

/-- The immediate instructions; an immediate is extended by an IMM prefix, then by its sign (R108, R446). -/
def Obligations.ScalarImmediate : Prop := ∀ (x : Pre) (d a : Reg) (i : BitVec 11) (n : BitVec 6) (l : BitVec 18),
  (x.px.imm = none → (immExt x i).toInt = i.toInt) ∧ (∀ p, x.px.imm = some p → (immExt x i).toInt = (p.toInt * 2 ^ 11 + i.toNat)) ∧
  SetsScalar (.saddi x d a i) x (opRI x 4 d a i) (fun r s => BitVec.ofInt 64 ((s.readS r.a).toInt + (immExt x i).toInt)) ∧
  SetsScalar (.sandi x d a i) x (opRI x 5 d a i) (fun r s => BitVec.ofNat 64 ((s.readS r.a).toNat &&& (immExt x i).toNat)) ∧
  SetsScalar (.sori x d a i) x (opRI x 6 d a i) (fun r s => BitVec.ofNat 64 ((s.readS r.a).toNat ||| (immExt x i).toNat)) ∧
  SetsScalar (.sxori x d a i) x (opRI x 7 d a i) (fun r s => BitVec.ofNat 64 ((s.readS r.a).toNat ^^^ (immExt x i).toNat)) ∧
  SetsScalar (.sshiShl x d a n) x (opRI x 8 d a (0#2 ++ 0#3 ++ n)) (fun r s => BitVec.ofNat 64 ((s.readS r.a).toNat * 2 ^ n.toNat)) ∧
  SetsScalar (.sshiShr x d a n) x (opRI x 8 d a (1#2 ++ 0#3 ++ n)) (fun r s => BitVec.ofNat 64 ((s.readS r.a).toNat / 2 ^ n.toNat)) ∧
  SetsScalar (.sshiSra x d a n) x (opRI x 8 d a (2#2 ++ 0#3 ++ n)) (fun r s => BitVec.ofInt 64 ((s.readS r.a).toInt / 2 ^ n.toNat)) ∧
  SetsScalar (.slui x d l) x (opLI x 10 d l) (fun _ _ => BitVec.ofNat 64 (l.toNat * 2 ^ 14)) ∧
  SetsScalar (.smovi x d l) x (opLI x 11 d l) (fun _ _ => immExt x l)

/-! ### Predicates, masks and system registers -/

/-- A predicate instruction's fields. -/
def predFlds (d a b : Reg) : List Fld := [⟨.d, .p, .wr, d⟩, ⟨.a, .p, .rd, a⟩, ⟨.b, .p, .rd, b⟩]

/-- PAND, POR, PXOR, PANDN and PNOT act on all 32 bits, PSET copies a scalar's low word; a write to p0 is discarded; EMSET and
EMAND write the execution mask from a predicate (R394, R429, R430). -/
def Obligations.PredicateWrites : Prop := ∀ (x : Pre) (d a b : Reg),
  SetsPred (.pand x d a b) x (opCalc (wordR x 0x10 0 d a b) (predFlds d a b)) (fun r s => s.readP r.a &&& s.readP r.b) ∧
  SetsPred (.por x d a b) x (opCalc (wordR x 0x10 1 d a b) (predFlds d a b)) (fun r s => s.readP r.a ||| s.readP r.b) ∧
  SetsPred (.pxor x d a b) x (opCalc (wordR x 0x10 2 d a b) (predFlds d a b)) (fun r s => s.readP r.a ^^^ s.readP r.b) ∧
  SetsPred (.pandn x d a b) x (opCalc (wordR x 0x10 3 d a b) (predFlds d a b)) (fun r s => s.readP r.a &&& ~~~(s.readP r.b)) ∧
  SetsPred (.pnot x d a) x (opCalc (wordR x 0x10 4 d a 0) [⟨.d, .p, .wr, d⟩, ⟨.a, .p, .rd, a⟩]) (fun r s => ~~~(s.readP r.a)) ∧
  SetsPred (.pset x d b) x (opCalc (wordR x 0x10 5 d 0 b) [⟨.d, .p, .wr, d⟩, ⟨.b, .s, .rd, b⟩])
    (fun r s => BitVec.ofNat 32 (s.srcS x r.b).toNat) ∧
  SetsPred (.emget x d) x (opCalc (wordR x 0x10 8 d 0 0) [⟨.d, .p, .wr, d⟩]) (fun _ s => s.me.em) ∧
  (∀ s : State, s.readP 0 = 0xFFFFFFFF) ∧
  ∀ s, Plain s →
    (Issues x (opCalc (wordR x 0x10 7 0 a 0) [⟨.a, .p, .rd, a⟩]) s → Becomes (.emset x a) x s { s.me with em := s.readP a }) ∧
    (Issues x (opCalc (wordR x 0x10 9 0 a 0) [⟨.a, .p, .rd, a⟩]) s →
      Becomes (.emand x a) x s { s.me with em := s.me.em &&& s.readP a })

/-- The lanes of LIVE with a bit set in p. -/
def liveBits (s : State) (p : Word) : List Nat := (List.range 32).filter fun i => p.getLsbD i && s.me.live.getLsbD i

/-- What a group can ask of its predicates, lanes, masks and windows (R414, R429, R511, R515). -/
def Obligations.LaneQueries : Prop := ∀ (x : Pre) (d a b : Reg),
  SetsScalar (.pget x d a) x (opCalc (wordR x 0x10 6 d a 0) [⟨.d, .s, .wr, d⟩, ⟨.a, .p, .rd, a⟩])
    (fun r s => BitVec.ofNat 64 (s.readP r.a).toNat) ∧
  SetsScalar (.ppop x d a) x (opCalc (wordR x 0x10 10 d a 0) [⟨.d, .s, .wr, d⟩, ⟨.a, .p, .rd, a⟩])
    (fun r s => BitVec.ofNat 64 (liveBits s (s.readP r.a)).length) ∧
  SetsScalar (.pfirst x d a) x (opCalc (wordR x 0x10 11 d a 0) [⟨.d, .s, .wr, d⟩, ⟨.a, .p, .rd, a⟩])
    (fun r s => BitVec.ofNat 64 ((liveBits s (s.readP r.a)).headD 32)) ∧
  SetsScalar (.liveq x d) x (opCalc (wordR x 0x37 3 d 0 0) [⟨.d, .s, .wr, d⟩])
    (fun _ s => BitVec.ofNat 64 (s.me.live.toNat + 2 ^ 32 * (liveBits s s.me.live).length)) ∧
  SetsScalar (.vvote x d a b) x (opVVV x 0x1C 1 .s .v .p .wr d a b)
    (fun r s =>
      let ballot := maskOf fun i => (s.readP r.b).getLsbD i && s.me.live.getLsbD i && vat (s.readReg r.a) i 0 != 0
      BitVec.ofNat 64 (ballot.toNat + 2 ^ 32 * ((List.range 32).filter ballot.getLsbD).length + (if ballot = 0 then 0 else 2 ^ 38) +
        if ballot = s.readP r.b then 2 ^ 39 else 0)) ∧
  SetsScalar (.winq x d) x (opCalc (wordR x 0x0F 2 d 0 0) [⟨.d, .s, .wr, d⟩]) (fun _ s => s.me.wbase)

/-- Every earlier flag of the group has been set (R168). -/
def FlagsSet (s : State) : Prop := s.me.flagsQuiet = true

/-- RDFLAG reads FFLAGS[8:0], CLRFLAG clears the bits that its operand names, once every earlier flag has been set; TFENCE then does
nothing, or takes ARITH with the flags that FCTL enables (R168, R382, R439, R467). -/
def Obligations.FlagInstructions : Prop := ∀ (x : Pre) (d b : Reg) (s : State), Plain s → FlagsSet s →
  (Issues x (opStop (wordR x 0 6 d 0 0) [⟨.d, .s, .wr, d⟩] none) s →
    Becomes (.rdflag x d) x s (s.me.setSabs (s.me.sb + (fieldsNow x (opStop (wordR x 0 6 d 0 0) [⟨.d, .s, .wr, d⟩] none) s).d.toNat)
      (BitVec.ofNat 64 (s.me.fflags.toNat % 512)))) ∧
  (∀ o, o = opStop (wordR x 0 7 0 0 b) [⟨.b, .s, .rd, b⟩] none → Issues x o s →
    Becomes (.clrflag x b) x s { s.me with fflags := s.me.fflags &&& ~~~(s.srcS x (fieldsNow x o s).b &&& 0x1FF) }) ∧
  (∀ v, v = s.me.fflags &&& BitVec.ofNat 64 (s.me.fctl.toNat / 256 % 256) → Issues x (opStop (wordR x 0 3 0 0 0) [] none) s →
    (v = 0 → Becomes (.tfence x) x s s.me) ∧
    (v ≠ 0 → Ready s → TakesTrap (.tfence x) x.px.rep.isSome (repNow x s) s 8 v s.me))

/-- A system register that reads at issue what the group or its context holds (R93, R94). -/
def sysValue (s : State) : SysReg → Dword
  | .fctl => s.me.fctl
  | .fflags => s.me.fflags
  | .tvec => (s.ctx s.me.ctx).tvec
  | .tcause => s.me.tcause
  | .tpc => s.me.tpc
  | .tval => s.me.tval
  | .rpidx => s.me.rpidx
  | .errbud => (s.ctx s.me.ctx).errbud.zeroExtend 64
  | .em => s.me.em.zeroExtend 64
  | .live => s.me.live.zeroExtend 64
  | .wbase => s.me.wbase

/-- The op of RDSR: reading ERRBUD or FFLAGS stops run-ahead, and ERRBUD ends the chunk (R440, R317). -/
def opRdsr (x : Pre) (d : Reg) (im : SysReg) : Op :=
  let w := wordR x 0x39 0 d 0 im.code
  match im with
  | .errbud => opStop w [⟨.d, .s, .wr, d⟩] (some 10)
  | .fflags => opStop w [⟨.d, .s, .wr, d⟩] none
  | _ => opCalc w [⟨.d, .s, .wr, d⟩]

/-- RDSR reads each of the eleven system registers, EBUD the error budget and RDCYC the core's cycles (R393, R438, R440). -/
def Obligations.SystemReads : Prop := ∀ (x : Pre) (d : Reg),
  (∀ (im : SysReg) (s : State), Plain s → (im = .fflags → FlagsSet s) → Issues x (opRdsr x d im) s →
    Becomes (.rdsr x d im) x s (s.me.setSabs (s.me.sb + (fieldsNow x (opRdsr x d im) s).d.toNat) (sysValue s im))) ∧
  SetsScalar (.ebud x d) x (opStop (wordR x 0x37 2 d 0 0) [⟨.d, .s, .wr, d⟩] (some 10))
    (fun _ s => (s.ctx s.me.ctx).errbud.zeroExtend 64) ∧
  SetsScalar (.rdcyc x d) x (opStop (wordR x 0 8 d 0 0) [⟨.d, .s, .wr, d⟩] (some 10))
    (fun _ s => BitVec.ofNat 64 (s.core (coreOf s.cur)).cycles)

/-- The op of WRSR: a read-only register is PRIV (R517). -/
def opWrsr (x : Pre) (a : Reg) (im : SysReg) : Op := { opStop (wordR x 0x39 1 0 a im.code) [⟨.a, .s, .rd, a⟩] none with priv := sysReadOnly im }

/-- WRSR writes the register and nothing else; of a value with reserved bits it makes ILLEGAL reason 2, and a TPC that is not a 4-byte
aligned canonical address is MISALIGN or MEMFAULT (R94, R154, R517). -/
def Obligations.SystemWrites : Prop := ∀ (x : Pre) (a : Reg) (im : SysReg) (s : State) (v : Dword), Plain s → (im = .fflags → FlagsSet s) →
  Issues x (opWrsr x a im) s → v = s.readS (fieldsNow x (opWrsr x a im) s).a →
  (v &&& sysReserved im = 0 → (im = .tpc → v.toNat % 4 = 0 ∧ canonical v = true) →
    Becomes (.wrsr x a im) x s (match im with
      | .fctl => { s.me with fctl := v, draws := Vector.replicate 32 0 }
      | .fflags => { s.me with fflags := v }
      | .tcause => { s.me with tcause := v }
      | .tpc => { s.me with tpc := v }
      | .tval => { s.me with tval := v }
      | .rpidx => { s.me with rpidx := v }
      | .em => { s.me with em := BitVec.ofNat 32 v.toNat }
      | _ => s.me)) ∧
  (Ready s → v &&& sysReserved im ≠ 0 →
    TakesTrap (.wrsr x a im) x.px.rep.isSome (repNow x s) s 1 (illegalVal (wordR x 0x39 1 0 a im.code) 2 0) s.me) ∧
  (Ready s → im = .tpc → v.toNat % 4 ≠ 0 → TakesTrap (.wrsr x a im) x.px.rep.isSome (repNow x s) s 4 v s.me) ∧
  (Ready s → im = .tpc → v.toNat % 4 = 0 → canonical v = false → TakesTrap (.wrsr x a im) x.px.rep.isSome (repNow x s) s 5 v s.me)

/-! ### Control flow -/

/-- A branch tests its register or predicate, and goes 4 bytes per unit of its offset from the bundle's end; a condition of 9 to
15 is ILLEGAL, and so is an a field that is not zero where the condition reads none (R110, R111, R378). NOP changes nothing, and YIELD only
keeps its group from the next cycle's choice (R427, R519). -/
def Obligations.BranchConditions : Prop := ∀ (x : Pre) (a : Reg) (o : BitVec 14),
  Branches (.br x o) x (opBr x 0 [] 0 o) (immExt x o) (fun _ _ => True) ∧
  Branches (.brZ x a o) x (opBr x 1 [⟨.a, .s, .rd, a⟩] a o) (immExt x o) (fun r s => (s.readS r.a).toNat = 0) ∧
  Branches (.brNz x a o) x (opBr x 2 [⟨.a, .s, .rd, a⟩] a o) (immExt x o) (fun r s => (s.readS r.a).toNat ≠ 0) ∧
  Branches (.brNeg x a o) x (opBr x 3 [⟨.a, .s, .rd, a⟩] a o) (immExt x o) (fun r s => (s.readS r.a).toInt < 0) ∧
  Branches (.brNneg x a o) x (opBr x 4 [⟨.a, .s, .rd, a⟩] a o) (immExt x o) (fun r s => 0 ≤ (s.readS r.a).toInt) ∧
  Branches (.brPany x a o) x (opBr x 5 [⟨.a, .p, .rd, a⟩] a o) (immExt x o) (fun r s => ∃ i, (s.readP r.a).getLsbD i ∧ s.me.live.getLsbD i) ∧
  Branches (.brPall x a o) x (opBr x 6 [⟨.a, .p, .rd, a⟩] a o) (immExt x o) (fun r s => ∀ i, s.me.live.getLsbD i → (s.readP r.a).getLsbD i) ∧
  Branches (.brPnone x a o) x (opBr x 7 [⟨.a, .p, .rd, a⟩] a o) (immExt x o) (fun r s => ∀ i, ¬ ((s.readP r.a).getLsbD i ∧ s.me.live.getLsbD i)) ∧
  Branches (.brEmz x o) x (opBr x 8 [] 0 o) (immExt x o) (fun _ s => ∀ i, ¬ (s.me.em.getLsbD i ∧ s.me.live.getLsbD i)) ∧
  (∀ w : Word, w.toNat / 2 ^ 25 % 64 = 0x0C →
    (9 ≤ w.toNat / 2 ^ 21 % 16 → decodeWords [w] = .illegal ⟨1, w⟩ ∧
      ∀ s, Ready s → s.me.runAhead = none → TakesTrap (.illegalWord 1 w) false 0 s 1 (BitVec.ofNat 64 (w.toNat + 2 ^ 32)) s.me) ∧
    (w.toNat / 2 ^ 21 % 16 = 0 ∨ w.toNat / 2 ^ 21 % 16 = 8 → w.toNat / 2 ^ 14 % 128 ≠ 0 → decodeWords [w] = .illegal ⟨2, w⟩)) ∧
  ∀ s, Plain s →
    (Issues x (opCalc (wordR x 0 0 0 0 0) []) s → Becomes (.nop x) x s s.me) ∧
    (Issues x (opCalc (wordR x 0 5 0 0 0) []) s → Becomes (.yield x) x s { s.me with skip := (s.core (coreOf s.cur)).cycles + 2 })

/-- A taken BR to an address that is not canonical takes MEMFAULT with that address; JR jumps to a canonical 4-byte aligned address, and
takes MISALIGN or MEMFAULT for another (R110, R407). -/
def Obligations.JumpTargets : Prop := ∀ (x : Pre) (a : Reg) (n : BitVec 14) (s : State),
  (Ready s → Issues x (opBr x 0 [] 0 n) s → canonical (nextPc x s + 4 * immExt x n) = false →
    TakesTrap (.br x n) x.px.rep.isSome (repNow x s) s 5 (nextPc x s + 4 * immExt x n) s.me) ∧
  (∀ o v, o = { opBr x 0 [⟨.a, .s, .rd, a⟩] a 0 with word := wordR x 0x0E 1 0 a 0 } → Plain s → Issues x o s →
    v = s.readS (fieldsNow x o s).a →
    (v.toNat % 4 = 0 → canonical v = true → Jumps (.jr x a) s v s.me) ∧
    (Ready s → v.toNat % 4 ≠ 0 → TakesTrap (.jr x a) x.px.rep.isSome (repNow x s) s 4 v s.me) ∧
    (Ready s → v.toNat % 4 = 0 → canonical v = false → TakesTrap (.jr x a) x.px.rep.isSome (repNow x s) s 5 v s.me))

/-- TRAP takes TRAPI with its operand, BKPT takes BREAK with 8, and a word that is no instruction takes ILLEGAL with the word and its
reason: each completes in its handler; a trap in a handler, or without one, terminates the context with reason 1: none of its groups is
left (R125, R282, R288, R371, R471). -/
def Obligations.ExplicitTraps : Prop := ∀ (x : Pre) (b : Reg) (s : State) (o : Op), o = opStop (wordR x 0 2 0 0 b) [⟨.b, .s, .rd, b⟩] none →
  (Ready s →
    (Issues x o s → TakesTrap (.trap x b) x.px.rep.isSome (repNow x s) s 0x0B (s.srcS x (fieldsNow x o s).b) s.me) ∧
    (Issues x (opStop (wordR x 0x38 0 0 0 0) [] none) s → TakesTrap (.bkpt x) x.px.rep.isSome (repNow x s) s 0x0C 8 s.me) ∧
    (∀ (reason : Byte) (w : Word), s.me.runAhead = none →
      TakesTrap (.illegalWord reason w) false 0 s 1 (BitVec.ofNat 64 (w.toNat + 2 ^ 32 * reason.toNat)) s.me) ∧
    ∀ i p, (i = .trap x b ∧ p = o) ∨ (i = .bkpt x ∧ p = opStop (wordR x 0x38 0 0 0 0) [] none) → Issues x p s →
      ∃ t, exec i s = .next t ∧ t.me.pc = (s.ctx s.me.ctx).tvec ∧ t.me.tpc = s.me.pc ∧ t.me.intrap = true) ∧
  (Plain s → Issues x o s → (s.ctx s.me.ctx).used = true → (s.me.intrap = true ∨ (s.ctx s.me.ctx).tvec = 0) →
    ∃ t, exec (.trap x b) s = .next t ∧ ∀ e ∈ t.groups, e.2.ctx ≠ s.me.ctx)

/-- ERET leaves the handler at TPC: RPIDX becomes the resume index and reads 0, INTRAP is clear and nothing else changes; outside a
handler it takes PRIV (R116, R283). -/
def Obligations.TrapReturn : Prop := ∀ (x : Pre) (s : State), Plain s → Issues x (opStop (wordR x 0 4 0 0 0) [] none) s →
  (s.me.intrap = true →
    ∃ t, exec (.eret x) s = .next t ∧ Elsewhere s t ∧ t.me.pc = s.me.tpc ∧ t.me.rep = 0 ∧ t.me.intrap = false ∧ t.me.rpidx = 0 ∧
      t.me.resume = s.me.rpidx.toNat % 64 ∧ arch { t.me with intrap := true, rpidx := s.me.rpidx, kept := s.me.kept, unfinPc := s.me.unfinPc, counted := s.me.counted } = arch s.me) ∧
  (Ready s → TakesTrap (.eret x) x.px.rep.isSome (repNow x s) s 3 (BitVec.ofNat 64 (wordR x 0 4 0 0 0).toNat) s.me)
/-- The group after a window move that spills and fills nothing: registers that leave the windows are dropped, entering ones read zero
(R84 to R86). -/
def movedTo (g : Group) (vb sb : Nat) : Group :=
  { g with
    vregs := clearFrom g.vregs (min (vb + g.wv) (g.vb + g.wv)), sregs := clearFrom g.sregs (min (sb + g.ws) (g.sb + g.ws))
    vb := vb, sb := sb, vlow := lowAfter g.vlow vb g.wv g.av, slow := lowAfter g.slow sb g.ws g.as, nextSeq := g.nextSeq + 1 }

/-- A move to these bases needs no attic: nothing spills or fills (R86), and no pending register leaves (R89). -/
structure MovesFree (g : Group) (vb sb : Nat) : Prop where
  vspill : lowAfter g.vlow vb g.wv g.av = g.vlow
  sspill : lowAfter g.slow sb g.ws g.as = g.slow
  vfill : g.vlow ≤ vb
  sfill : g.slow ≤ sb
  markv : moveMarkv g vb sb = none

/-- CALL and CALLR slide the windows up by 16 times d[6:4] vector and 8 times d[3:0] scalar registers, push the return address with d, and
jump; RET pops and slides back. A full link stack is WINDOW 2, the attic's end 1, an empty stack 3. WINV and WINS slide one window by 16 vector
or 8 scalar registers per unit of b, and change no link; a base below 0 is WINDOW 4 (R85, R86, R88, R380, R381, R442, R515, R516). -/
def Obligations.WindowsAndCalls : Prop := ∀ (x : Pre) (k : BitVec 7) (im : BitVec 18) (a b : Reg) (s : State), Plain s →
  (∀ i o dest vb sb,
    i = .call x k im ∧ o = opStop (wordLI x 0x0D k im) [] none ∧ dest = nextPc x s + 4 * immExt x im ∨
      i = .callr x k a ∧ o = opStop (wordR x 0x0E 2 k a 0) [⟨.a, .s, .rd, a⟩] none ∧ dest = s.readS (fieldsNow x o s).a →
    Issues x o s → vb = s.me.vb + 16 * (k.toNat / 16) → sb = s.me.sb + 8 * (k.toNat % 16) →
    (s.me.links.length ≠ 32 → s.passesAttic vb sb = false → dest.toNat % 4 = 0 ∨ i = .call x k im → canonical dest = true →
      MovesFree s.me vb sb → Jumps i s dest { movedTo s.me vb sb with links := (nextPc x s, k) :: s.me.links }) ∧
    (Ready s → moveMarkv s.me vb sb = none → s.me.links.length = 32 → TakesTrap i x.px.rep.isSome (repNow x s) s 0x12 2 s.me) ∧
    (Ready s → moveMarkv s.me vb sb = none → s.me.links.length ≠ 32 → s.passesAttic vb sb = true →
      TakesTrap i x.px.rep.isSome (repNow x s) s 0x12 1 s.me)) ∧
  (∀ o, o = opStop (wordR x 0x0E 0 0 0 0) [] none → Issues x o s →
    (∀ ra rest vb sb, s.me.links = (ra, k) :: rest → s.me.vb = vb + 16 * (k.toNat / 16) → s.me.sb = sb + 8 * (k.toNat % 16) →
      MovesFree s.me vb sb → Jumps (.ret x) s ra { movedTo s.me vb sb with links := rest }) ∧
    (Ready s → s.me.links = [] → TakesTrap (.ret x) x.px.rep.isSome (repNow x s) s 0x12 3 s.me)) ∧
  (∀ (vec : Bool) (o : Op) (n v c : Int),
    o = opStop (wordR x 0x0F (if vec then 0 else 1) 0 0 b) [⟨.b, .s, .rd, b⟩] none → Issues x o s → n = (s.srcS x (fieldsNow x o s).b).toInt →
    v = s.me.vb + (if vec then 16 * n else 0) → c = s.me.sb + (if vec then 0 else 8 * n) →
    let i : Instr := if vec then .winv x b else .wins x b
    (0 ≤ v → 0 ≤ c → (0 < n → s.passesAttic v.toNat c.toNat = false) → MovesFree s.me v.toNat c.toNat →
      Becomes i x s (movedTo s.me v.toNat c.toNat)) ∧
    (Ready s → moveMarkv s.me v c = none → v < 0 ∨ c < 0 → TakesTrap i x.px.rep.isSome (repNow x s) s 0x12 4 s.me))

/-- EXIT, once every access but split-phase loads has been performed, ends its group: its slot is free, and every other access is
discarded (R27, R397); before that it waits. -/
def Obligations.ExitEndsGroup : Prop := ∀ (x : Pre) (s : State), Plain s → SMap.wf Group.idle s.groups = true →
  Issues x (opStop (wordR x 0 1 0 0 0) [] none) s →
  ((∀ f ∈ s.me.flights, f.ctr.isSome = true) → ∃ t, exec (.exit x) s = .next t ∧ t.cur = s.cur ∧ t.me = Group.idle) ∧
  ((∃ f ∈ s.me.flights, f.ctr = none) → ∃ t, exec (.exit x) s = .next t ∧ t.me.used = true ∧ t.me.pc = s.me.pc ∧
    t.me.wait = { code := 31, cond := .quiet })

/-! ### Vector instructions -/

/-- What an integer operation gives on elements x of a, y of b and z of the old d (R141, R143, R476, R497, R506). -/
def intElem {w : Nat} (o : VOp) (x y z : BitVec w) : BitVec w :=
  match o with
  | .add => BitVec.ofInt w (x.toInt + y.toInt)
  | .sub => BitVec.ofInt w (x.toInt - y.toInt)
  | .mul => BitVec.ofInt w (x.toInt * y.toInt)
  | .mulh => BitVec.ofInt w (x.toInt * y.toInt / 2 ^ w)
  | .mad => BitVec.ofInt w (x.toInt * y.toInt + z.toInt)
  | .and => BitVec.ofNat w (x.toNat &&& y.toNat)
  | .or => BitVec.ofNat w (x.toNat ||| y.toNat)
  | .xor => BitVec.ofNat w (x.toNat ^^^ y.toNat)
  | .shl => BitVec.ofNat w (x.toNat * 2 ^ (y.toNat % w))
  | .shr => BitVec.ofNat w (x.toNat / 2 ^ (y.toNat % w))
  | .sra => BitVec.ofInt w (x.toInt / 2 ^ (y.toNat % w))
  | .min => BitVec.ofInt w (min x.toInt y.toInt)
  | .max => BitVec.ofInt w (max x.toInt y.toInt)
  | .minn => BitVec.ofNat w (min x.toNat y.toNat)
  | .maxn => BitVec.ofNat w (max x.toNat y.toNat)
  | .abs => BitVec.ofNat w x.toInt.natAbs

/-- The integer instructions on 32-bit elements. -/
def instrI32 (x : Pre) (d a b : Reg) : VOp → Instr
  | .add => .vaddI32 x d a b | .sub => .vsubI32 x d a b | .mul => .vmulI32 x d a b | .mulh => .vmulhI32 x d a b
  | .mad => .vmadI32 x d a b | .and => .vandI32 x d a b | .or => .vorI32 x d a b | .xor => .vxorI32 x d a b
  | .shl => .vshlI32 x d a b | .shr => .vshrI32 x d a b | .sra => .vsraI32 x d a b | .min => .vminI32 x d a b
  | .max => .vmaxI32 x d a b | .minn => .vminnI32 x d a b | .maxn => .vmaxnI32 x d a b | .abs => .vabsI32 x d a

/-- The integer instructions on two 16-bit elements per lane. -/
def instrI16 (x : Pre) (d a b : Reg) : VOp → Instr
  | .add => .vaddI16 x d a b | .sub => .vsubI16 x d a b | .mul => .vmulI16 x d a b | .mulh => .vmulhI16 x d a b
  | .mad => .vmadI16 x d a b | .and => .vandI16 x d a b | .or => .vorI16 x d a b | .xor => .vxorI16 x d a b
  | .shl => .vshlI16 x d a b | .shr => .vshrI16 x d a b | .sra => .vsraI16 x d a b | .min => .vminI16 x d a b
  | .max => .vmaxI16 x d a b | .minn => .vminnI16 x d a b | .maxn => .vmaxnI16 x d a b | .abs => .vabsI16 x d a

/-- The integer instructions on 64-bit elements in register pairs. -/
def instrI64 (x : Pre) (d a b : Reg) : VOp → Instr
  | .add => .vaddI64 x d a b | .sub => .vsubI64 x d a b | .mul => .vmulI64 x d a b | .mulh => .vmulhI64 x d a b
  | .mad => .vmadI64 x d a b | .and => .vandI64 x d a b | .or => .vorI64 x d a b | .xor => .vxorI64 x d a b
  | .shl => .vshlI64 x d a b | .shr => .vshrI64 x d a b | .sra => .vsraI64 x d a b | .min => .vminI64 x d a b
  | .max => .vmaxI64 x d a b | .minn => .vminnI64 x d a b | .maxn => .vmaxnI64 x d a b | .abs => .vabsI64 x d a

/-- The vector integer instructions compute each element of the lanes of ACT on its own, and set no flag but DEADREAD under LANE (R118,
R141, R476, R497, R506). -/
def Obligations.VectorIntegers : Prop := ∀ (o : VOp) (x : Pre) (d a b : Reg),
  SetsVector (instrI32 x d a b o) x (opVInt x 0x11 .v o d a b)
    (fun r s i => intElem o (s.srcVA x r.a i) (s.srcVB x r.b i) (s.srcVD r.d i)) noFlags ∧
  SetsVector (instrI16 x d a b o) x (opVInt x 0x12 .v o d a b)
    (fun r s i =>
      let p := s.srcVA x r.a i
      let q := s.srcVB x r.b i
      let z := s.srcVD r.d i
      intElem o (p.extractLsb' 16 16) (q.extractLsb' 16 16) (z.extractLsb' 16 16) ++
        intElem o (p.extractLsb' 0 16) (q.extractLsb' 0 16) (z.extractLsb' 0 16)) noFlags ∧
  SetsPair (instrI64 x d a b o) x (opVInt x 0x13 .w o d a b)
    (fun r s i => intElem o (s.srcWA x r.a i) (s.srcWB x r.b i) (s.readPair r.d i)) noFlags

/-- VSEL chooses each lane by a predicate, VMOV copies, VCLZ and VPOP count, VLID gives the lane's number (R482, R496, R498, R501,
R505). -/
def Obligations.VectorMoves : Prop := ∀ (x : Pre) (k : BitVec 3) (d a b : Reg),
  SetsVector (.vsel x k d a b) x (opVVV x 0x14 k.toNat .v .v .v .wr d a b)
    (fun r s i => if (s.readP (k.zeroExtend 7)).getLsbD i then s.srcVA x r.a i else s.srcVB x r.b i) noFlags ∧
  SetsVector (.vmov x d b) x { opVVZ x 0x14 8 .v .v d 0 with word := wordR x 0x14 8 d 0 b, flds := [⟨.d, .v, .wr, d⟩, ⟨.b, .v, .rd, b⟩] }
    (fun r s i => s.srcVB x r.b i) noFlags ∧
  SetsVector (.vclz x d a) x (opVVZ x 0x14 9 .v .v d a)
    (fun r s i => let v := s.srcVA x r.a i; BitVec.ofNat 32 (if v = 0 then 32 else 31 - v.toNat.log2)) noFlags ∧
  SetsVector (.vpop x d a) x (opVVZ x 0x14 10 .v .v d a)
    (fun r s i => BitVec.ofNat 32 ((List.range 32).countP fun j => (s.srcVA x r.a i).toNat / 2 ^ j % 2 = 1)) noFlags ∧
  SetsVector (.vlid x d) x { opVVZ x 0x14 11 .v .v d 0 with flds := [⟨.d, .v, .wr, d⟩] } (fun _ _ i => BitVec.ofNat 32 i) noFlags

/-- Instruction i sets the bits of p[d] of the lanes of ACT where `hit` holds, clears the others of ACT, keeps the rest, sets the flags fl,
and does nothing else (R484). -/
def SetsBits (i : Instr) (x : Pre) (o : Op) (hit : Flds → State → Nat → Prop) (fl : Flds → State → Nat → Word) : Prop :=
  ∀ s, Plain s → Issues x o s →
    let r := fieldsNow x o s
    ∀ m : Word, (∀ j < 32, m.getLsbD j = true ↔ (s.me.act.getLsbD j = true ∧ hit r s j) ∨ (s.me.act.getLsbD j = false ∧ (s.readP r.d).getLsbD j = true)) →
      Becomes i x s (lanewise x s (withFlags (withPred s.me r.d.toNat m) (flagsOf s.me.act (fl r s))))

/-- The number that a finite value stands for. -/
def FloatValue (s : Bool) (m : Nat) (e : Int) : Rat := (if s then -(m : Rat) else m) * 2 ^ e

/-- a is less than b: NaNs compare with nothing. -/
def FloatLess : FVal → FVal → Prop
  | .inf s, .inf t => s = true ∧ t = false
  | .inf s, .num .. => s = true
  | .num .., .inf t => t = false
  | .num s m e, .num t n d => FloatValue s m e < FloatValue t n d
  | _, _ => False

/-- The operands compare: neither is a NaN. -/
def Ordered (a b : FVal) : Prop := a.isNan = false ∧ b.isNan = false

/-- A floating-point compare on operands p and q of a format: `hit` on their values; NV on a NaN if `loud`, else on a signalling one. -/
def cmpFlags (f : Fmt) (loud : Bool) (ftz : Bool) (p q : Nat) : Word :=
  let a := f.rd ftz p
  let b := f.rd ftz q
  if (loud && (a.isNan || b.isNan)) || a = .nan true || b = .nan true then flNV else 0

/-- The compares: integers signed, with N unsigned; of floats, NaNs make all but UN false (R484). -/
def Obligations.VectorCompares : Prop := ∀ (x : Pre) (d a b : Reg),
  let op := fun m => opVVV x 0x15 m .p .v .v .wr d a b
  let op64 := fun m => opVVV x 0x15 m .p .w .w .wr d a b
  let fa := fun (r : Flds) (s : State) i => fF32.rd s.me.ftz (s.srcVA x r.a i).toNat
  let fb := fun (r : Flds) (s : State) i => fF32.rd s.me.ftz (s.srcVB x r.b i).toNat
  let ga := fun (r : Flds) (s : State) i => fF64.rd s.me.ftz (s.srcWA x r.a i).toNat
  let gb := fun (r : Flds) (s : State) i => fF64.rd s.me.ftz (s.srcWB x r.b i).toNat
  let fl := fun loud (r : Flds) (s : State) i => cmpFlags fF32 loud s.me.ftz (s.srcVA x r.a i).toNat (s.srcVB x r.b i).toNat
  let gl := fun loud (r : Flds) (s : State) i => cmpFlags fF64 loud s.me.ftz (s.srcWA x r.a i).toNat (s.srcWB x r.b i).toNat
  SetsBits (.vcmpEqI32 x d a b) x (op 0) (fun r s i => (s.srcVA x r.a i).toNat = (s.srcVB x r.b i).toNat) noFlags ∧
  SetsBits (.vcmpNeI32 x d a b) x (op 1) (fun r s i => (s.srcVA x r.a i).toNat ≠ (s.srcVB x r.b i).toNat) noFlags ∧
  SetsBits (.vcmpLtI32 x d a b) x (op 2) (fun r s i => (s.srcVA x r.a i).toInt < (s.srcVB x r.b i).toInt) noFlags ∧
  SetsBits (.vcmpLeI32 x d a b) x (op 3) (fun r s i => (s.srcVA x r.a i).toInt ≤ (s.srcVB x r.b i).toInt) noFlags ∧
  SetsBits (.vcmpLtN32 x d a b) x (op 4) (fun r s i => (s.srcVA x r.a i).toNat < (s.srcVB x r.b i).toNat) noFlags ∧
  SetsBits (.vcmpLeN32 x d a b) x (op 5) (fun r s i => (s.srcVA x r.a i).toNat ≤ (s.srcVB x r.b i).toNat) noFlags ∧
  SetsBits (.vcmpEqF32 x d a b) x (op 6)
    (fun r s i => Ordered (fa r s i) (fb r s i) ∧ ¬ FloatLess (fa r s i) (fb r s i) ∧ ¬ FloatLess (fb r s i) (fa r s i)) (fl false) ∧
  SetsBits (.vcmpLtF32 x d a b) x (op 7) (fun r s i => FloatLess (fa r s i) (fb r s i)) (fl true) ∧
  SetsBits (.vcmpLeF32 x d a b) x (op 8) (fun r s i => Ordered (fa r s i) (fb r s i) ∧ ¬ FloatLess (fb r s i) (fa r s i)) (fl true) ∧
  SetsBits (.vcmpUnF32 x d a b) x (op 9) (fun r s i => ¬ Ordered (fa r s i) (fb r s i)) (fl false) ∧
  SetsBits (.vcmpEqF64 x d a b) x (op64 10)
    (fun r s i => Ordered (ga r s i) (gb r s i) ∧ ¬ FloatLess (ga r s i) (gb r s i) ∧ ¬ FloatLess (gb r s i) (ga r s i)) (gl false) ∧
  SetsBits (.vcmpLtF64 x d a b) x (op64 11) (fun r s i => FloatLess (ga r s i) (gb r s i)) (gl true) ∧
  SetsBits (.vcmpLeF64 x d a b) x (op64 12) (fun r s i => Ordered (ga r s i) (gb r s i) ∧ ¬ FloatLess (gb r s i) (ga r s i)) (gl true) ∧
  SetsBits (.vcmpUnF64 x d a b) x (op64 13) (fun r s i => ¬ Ordered (ga r s i) (gb r s i)) (gl false)

/-- The floating-point instructions in F32; in F16 and BF16, two elements per lane; in F64, register pairs. -/
def instrF32 (x : Pre) (d a b : Reg) : FOp → Instr
  | .add => .vfaddF32 x d a b | .sub => .vfsubF32 x d a b | .mul => .vfmulF32 x d a b | .fma => .vfmaF32 x d a b
  | .fnma => .vfnmaF32 x d a b | .min => .vfminF32 x d a b | .max => .vfmaxF32 x d a b | .abs => .vfabsF32 x d a | .neg => .vfnegF32 x d a

def instrF64 (x : Pre) (d a b : Reg) : FOp → Instr
  | .add => .vfaddF64 x d a b | .sub => .vfsubF64 x d a b | .mul => .vfmulF64 x d a b | .fma => .vfmaF64 x d a b
  | .fnma => .vfnmaF64 x d a b | .min => .vfminF64 x d a b | .max => .vfmaxF64 x d a b | .abs => .vfabsF64 x d a | .neg => .vfnegF64 x d a

/-- F16: there is no VFABS (R488). -/
def instrF16 (x : Pre) (d a b : Reg) : FOp → Option (Nat × Instr)
  | .add => some (0, .vfaddF16 x d a b) | .sub => some (1, .vfsubF16 x d a b) | .mul => some (2, .vfmulF16 x d a b)
  | .fma => some (3, .vfmaF16 x d a b) | .fnma => some (4, .vfnmaF16 x d a b) | .min => some (5, .vfminF16 x d a b)
  | .max => some (6, .vfmaxF16 x d a b) | .neg => some (7, .vfnegF16 x d a) | .abs => none

def instrBF16 (x : Pre) (d a b : Reg) : FOp → Option (Nat × Instr)
  | .add => some (8, .vfaddBf16 x d a b) | .sub => some (9, .vfsubBf16 x d a b) | .mul => some (10, .vfmulBf16 x d a b)
  | .fma => some (11, .vfmaBf16 x d a b) | .fnma => some (12, .vfnmaBf16 x d a b) | .min => some (13, .vfminBf16 x d a b)
  | .max => some (14, .vfmaxBf16 x d a b) | .neg => some (15, .vfnegBf16 x d a) | .abs => none

/-- The minors of the F32 and F64 instructions (R488). -/
def fltMinor : FOp → Nat
  | .add => 0 | .sub => 1 | .mul => 2 | .fma => 3 | .fnma => 4 | .min => 5 | .max => 6 | .abs => 7 | .neg => 8

/-- The class of a value, one bit of ten: infinities, normals, subnormals, zeros, and the two kinds of NaN (R489). -/
def classBit (f : Fmt) (v : FVal) : Nat :=
  match v with
  | .inf s => if s then 0 else 7
  | .num s m _ => if m = 0 then (if s then 3 else 4) else if m < 2 ^ f.fw then (if s then 2 else 5) else if s then 1 else 6
  | .nan q => if q then 8 else 9

/-- The floating-point instructions apply one rounded operation to each element of the lanes of ACT, under FCTL.RM and FTZ as they stand,
and set the flags of those elements; VFCLASS gives the class of its operand as it stands, and sets no flag (R141, R146, R150, R489). -/
def Obligations.VectorFloats : Prop := ∀ (o : FOp) (x : Pre) (d a b : Reg),
  let f32 := fun (r : Flds) (s : State) i =>
    o.eval fF32 s.me.rm s.me.ftz (s.srcVA x r.a i).toNat (s.srcVB x r.b i).toNat (s.srcVD r.d i).toNat
  let f64 := fun (r : Flds) (s : State) i =>
    o.eval fF64 s.me.rm s.me.ftz (s.srcWA x r.a i).toNat (s.srcWB x r.b i).toNat (s.readPair r.d i).toNat
  let half := fun (f : Fmt) (r : Flds) (s : State) i h =>
    o.eval f s.me.rm s.me.ftz ((s.srcVA x r.a i).extractLsb' (16 * h) 16).toNat ((s.srcVB x r.b i).extractLsb' (16 * h) 16).toNat
      ((s.srcVD r.d i).extractLsb' (16 * h) 16).toNat
  let f16 := fun (f : Fmt) (i : Instr) (m : Nat) =>
    SetsVector i x (opFlt x 0x17 m .v o d a b)
      (fun r s j => BitVec.ofNat 16 (half f r s j 1).bits ++ BitVec.ofNat 16 (half f r s j 0).bits)
      (fun r s j => (half f r s j 0).fl ||| (half f r s j 1).fl)
  SetsVector (instrF32 x d a b o) x (opFlt x 0x16 (fltMinor o) .v o d a b) (fun r s i => BitVec.ofNat 32 (f32 r s i).bits)
    (fun r s i => (f32 r s i).fl) ∧
  SetsPair (instrF64 x d a b o) x (opFlt x 0x18 (fltMinor o) .w o d a b) (fun r s i => BitVec.ofNat 64 (f64 r s i).bits)
    (fun r s i => (f64 r s i).fl) ∧
  (∀ p, instrF16 x d a b o = some p → f16 fF16 p.2 p.1) ∧
  (∀ p, instrBF16 x d a b o = some p → f16 fBF16 p.2 p.1) ∧
  SetsVector (.vfclassF32 x d a) x (opVVZ x 0x16 9 .v .v d a)
    (fun r s i => BitVec.ofNat 32 (2 ^ classBit fF32 (fF32.dec (s.srcVA x r.a i).toNat))) noFlags ∧
  SetsVector (.vfclassF64 x d a) x (opVVZ x 0x18 9 .v .w d a)
    (fun r s i => BitVec.ofNat 32 (2 ^ classBit fF64 (fF64.dec (s.srcWA x r.a i).toNat))) noFlags

/-- Instruction i leaves late results: values and flags f of the lanes of ACT, outstanding until a marker, for the registers `ds` of which
each holds the bits from 32 k up; each is pending, and with no lane in ACT nothing happens (R119, R490). -/
def LeavesLate (i : Instr) (x : Pre) (o : Op) (regs : Nat) (f : Flds → State → Nat → FRes) : Prop :=
  ∀ s, Plain s → Issues x o s →
    let r := fieldsNow x o s
    let out := (List.range regs).map fun k => (destV s.me (r.d + BitVec.ofNat 7 k), lanesFn fun j => BitVec.ofNat 32 ((f r s j).bits / 2 ^ (32 * k)))
    ∃ t, Machine.exec i s = .next t ∧ Elsewhere s t ∧ Advances x (nextPc x s) s t ∧
      arch t.me = arch (if s.me.act = 0 then s.me else s.me.late s.me.act out (flagsOf s.me.act fun j => (f r s j).fl)) ∧
      (s.me.act ≠ 0 → ∀ k < regs, t.me.pending (destV s.me (r.d + BitVec.ofNat 7 k)) = true)

/-- The special-function unit: its results come late, to one register, or to a pair in F64; division and square root are rounded once.
Every one of its instructions completes at issue, whatever its operands (R119, R156, R490). -/
def Obligations.SpecialFunctions : Prop := ∀ (x : Pre) (d a b : Reg),
  let op := fun m => opSfu x m .v false d a 0
  let of := fun g (r : Flds) (s : State) i => sfu32 g s.me.ftz (s.srcVA x r.a i).toNat
  LeavesLate (.vfrcp x d a) x (op 0) 1 (of .rcp) ∧
  LeavesLate (.vfrsq x d a) x (op 1) 1 (of .rsq) ∧
  LeavesLate (.vfsqrt x d a) x (op 2) 1 (fun r s i => fF32.sqrt s.me.rm s.me.ftz (s.srcVA x r.a i).toNat) ∧
  LeavesLate (.vfdiv x d a b) x (opSfu x 3 .v true d a b) 1
    (fun r s i => fF32.div s.me.rm s.me.ftz (s.srcVA x r.a i).toNat (s.srcVB x r.b i).toNat) ∧
  LeavesLate (.vfexp2 x d a) x (op 4) 1 (of .exp2) ∧
  LeavesLate (.vflog2 x d a) x (op 5) 1 (of .log2) ∧
  LeavesLate (.vfsin x d a) x (op 6) 1 (of .sin) ∧
  LeavesLate (.vfcos x d a) x (op 7) 1 (of .cos) ∧
  LeavesLate (.vftanh x d a) x (op 8) 1 (of .tanh) ∧
  LeavesLate (.vfrcpF64 x d a) x (opSfu x 9 .w false d a 0) 2 (fun r s i => rcp64 s.me.ftz (s.srcWA x r.a i).toNat) ∧
  LeavesLate (.vfrsqF64 x d a) x (opSfu x 10 .w false d a 0) 2 (fun r s i => rsq64 s.me.ftz (s.srcWA x r.a i).toNat) ∧
  ∀ p ∈ [((.vfrcp x d a : Instr), op 0), (.vfrsq x d a, op 1), (.vfsqrt x d a, op 2), (.vfdiv x d a b, opSfu x 3 .v true d a b),
      (.vfexp2 x d a, op 4), (.vflog2 x d a, op 5), (.vfsin x d a, op 6), (.vfcos x d a, op 7), (.vftanh x d a, op 8),
      (.vfrcpF64 x d a, opSfu x 9 .w false d a 0), (.vfrsqF64 x d a, opSfu x 10 .w false d a 0)],
    ∀ s, Plain s → Issues x p.2 s → ∃ t, exec p.1 s = .next t ∧ Advances x (nextPc x s) s t

/-- The source element of a conversion in a lane. -/
def convSrc (x : Pre) (c : BitVec 7) (r : Flds) (s : State) (i : Nat) : Nat :=
  if convWideA c.toNat then (s.srcWA x r.a i).toNat else (s.srcVA x r.a i).toNat

/-- A conversion instruction with direction `dir`, which may move the draw counters. -/
def Converts (i : Instr) (x : Pre) (m : Nat) (d a : Reg) (c : BitVec 7) (dir : State → Nat → Dir) (draws : Bool) : Prop :=
  ∀ s, Plain s → Issues x (opVcvt x m d a c) s →
    let r := fieldsNow x (opVcvt x m d a c) s
    let f := fun j => convert c.toNat (dir s j) s.me.ftz (convSrc x c r s j)
    let g := if convWideD c.toNat then writePair s.me r.d fun j => BitVec.ofNat 64 (f j).bits
      else s.me.writeReg (destV s.me r.d) fun j => BitVec.ofNat 32 (f j).bits
    let h := withFlags g (flagsOf s.me.act fun j => (f j).fl)
    Becomes i x s (lanewise x s (if draws then h.drawn else h))

/-- VCVT rounds by FCTL.RM, VCVT.RZ and VCVT.RN by their own direction, VCVT.SR by each lane's draw, whose counters advance (R151 to
R154, R486). -/
def Obligations.VectorConversions : Prop := ∀ (x : Pre) (d a : Reg) (c : BitVec 7),
  Converts (.vcvt x d a c) x 0 d a c (fun s _ => .ieee s.me.rm) false ∧
  Converts (.vcvtRz x d a c) x 1 d a c (fun _ _ => .ieee .rz) false ∧
  Converts (.vcvtRn x d a c) x 2 d a c (fun _ _ => .ieee .rne) false ∧
  Converts (.vcvtSr x d a c) x 3 d a c State.drawDir true

/-- The registers n, n + 1, … written in turn (R500). -/
def writeTurns (g : Group) (d : Reg) (v : Nat → Nat → Word) : Nat → Group
  | 0 => g
  | n + 1 => let h := writeTurns g d v n; h.writeReg (destV h (d + BitVec.ofNat 7 n)) (v n)

/-- VPACK converts each source element under FCTL.RM and places it in its part of the word; VUNPK converts each part into a register of
its own, the first first; VSCACC adds to d the product of a and its block scale, rounded once (R135, R165, R500, R504). -/
def Obligations.VectorPacking : Prop := ∀ (x : Pre) (d a b : Reg) (c : BitVec 7),
  (let op := fun m => opVVV x 0x1B m .v .v .v .rw d a b
   let f := fun m (r : Flds) (s : State) i =>
     vscacc m s.me.rm s.me.ftz (s.srcVD r.d i).toNat (s.srcVA x r.a i).toNat (s.srcVB x r.b i).toNat
   let sets := fun i m => SetsVector i x (op m) (fun r s j => BitVec.ofNat 32 (f m r s j).bits) (fun r s j => (f m r s j).fl)
   sets (.vscaccE8m0 x d a b) 0 ∧ sets (.vscaccE4m3 x d a b) 1 ∧ sets (.vscaccBf16 x d a b) 2 ∧ sets (.vscaccF32 x d a b) 3) ∧
  SetsVector (.vpack x d a c) x (opVpack x d a c)
    (fun r s i => BitVec.ofNat 32 (((List.range (packN c)).map fun k =>
      (convert c.toNat (.ieee s.me.rm) s.me.ftz (s.packSrc x r.a (packN c) k i)).bits * 2 ^ (32 / packN c * k)).sum))
    (fun r s i => ((List.range (packN c)).map fun k =>
      (convert c.toNat (.ieee s.me.rm) s.me.ftz (s.packSrc x r.a (packN c) k i)).fl).foldl (· ||| ·) 0) ∧
  ∀ s, Plain s → Issues x (opVunpk x d a c) s →
    let r := fieldsNow x (opVunpk x d a c) s
    let n := packN c
    let e := fun (k i : Nat) => convert c.toNat (.ieee .rne) s.me.ftz ((s.srcVA x r.a i).toNat / 2 ^ (32 / n * k) % 2 ^ (32 / n))
    Becomes (.vunpk x d a c) x s (lanewise x s (withFlags (writeTurns s.me r.d (fun k i => BitVec.ofNat 32 (e k i).bits) n)
      (flagsOf s.me.act fun i => ((List.range n).map fun k => (e k i).fl).foldl (· ||| ·) 0)))

/-- The sum of the butterfly's operation over lanes from lo, 2 ^ n of them, the lower half first (R166). -/
def treeOf (op : Nat → Nat → Nat) (v : Nat → Nat) : Nat → Nat → Nat
  | 0, lo => v lo
  | n + 1, lo => op (treeOf op v n lo) (treeOf op v n (lo + 2 ^ n))

/-- The flags of that tree's operations together. -/
def treeFlags (op : Nat → Nat → FRes) (v : Nat → Nat) : Nat → Nat → Word
  | 0, _ => 0
  | n + 1, lo =>
    let t := treeOf (fun p q => (op p q).bits) v n
    treeFlags op v n lo ||| treeFlags op v n (lo + 2 ^ n) ||| (op (t lo) (t (lo + 2 ^ n))).fl

/-- A reduction gives every lane of ACT the same tree of operations, over lanes outside ACT at the identity, and sets their flags (R166,
R503). -/
def Reduces (i : Instr) (x : Pre) (m : Nat) (d a : Reg) (ident : Nat) (op : State → Nat → Nat → FRes) : Prop :=
  ∀ s, Plain s → Issues x (opVVZ x 0x1C m .v .v d a) s →
    let r := fieldsNow x (opVVZ x 0x1C m .v .v d a) s
    let v := fun j => if s.me.act.getLsbD j then (vat (s.readReg r.a) j 0).toNat else ident
    Becomes i x s (lanewise x s (withFlags
      (s.me.writeReg (destV s.me r.d) fun _ => BitVec.ofNat 32 (treeOf (fun p q => (op s p q).bits) v 5 0)) (treeFlags (op s) v 5 0)))

/-- VSHUF reads the lane that its index names; VELECT marks the lowest lane of ACT of each value; VRED reduces over ACT, and VSCAN adds up
to each lane (R166, R487, R503, R507). -/
def Obligations.LaneOperations : Prop := ∀ (x : Pre) (d a b : Reg),
  (∀ s, Plain s → Issues x (opVVV x 0x1C 0 .v .v .v .wr d a b) s →
    let r := fieldsNow x (opVVV x 0x1C 0 .v .v .v .wr d a b) s
    let src := fun i => (s.srcVB x r.b i).toNat % 32
    let dead := (List.range 32).any fun i => s.me.act.getLsbD i && !s.me.live.getLsbD (src i)
    Becomes (.vshuf x d a b) x s (lanewise x s (withFlags
      (s.me.writeReg (destV s.me r.d) fun i => if s.me.live.getLsbD (src i) then vat (s.readReg r.a) (src i) 0 else 0)
      (if dead then flDEAD else 0)))) ∧
  (∀ s, Plain s → Issues x (opVVZ x 0x1C 2 .p .v d a) s →
    let r := fieldsNow x (opVVZ x 0x1C 2 .p .v d a) s
    let v := fun i => vat (s.readReg r.a) i 0
    ∀ m : Word, (∀ i < 32, m.getLsbD i = true ↔ s.me.act.getLsbD i = true ∧ ∀ j < i, s.me.act.getLsbD j = true → v j ≠ v i) →
      Becomes (.velect x d a) x s (lanewise x s (withPred s.me r.d.toNat m))) ∧
  Reduces (.vredAddF32 x d a) x 3 d a 0x80000000 (fun s p q => fF32.add s.me.rm s.me.ftz p q) ∧
  Reduces (.vredAddI32 x d a) x 4 d a 0 (fun _ p q => ⟨(p + q) % 2 ^ 32, 0⟩) ∧
  Reduces (.vredMaxF32 x d a) x 5 d a 0xFF800000 (fun s p q => fF32.minmax s.me.ftz true p q) ∧
  Reduces (.vredMinF32 x d a) x 6 d a 0x7F800000 (fun s p q => fF32.minmax s.me.ftz false p q) ∧
  SetsVector (.vscanAddI32 x d a) x (opVVZ x 0x1C 7 .v .v d a)
    (fun r s i => BitVec.ofNat 32 (((List.range (i + 1)).map fun j => if s.me.act.getLsbD j then (vat (s.readReg r.a) j 0).toNat else 0).sum)) noFlags

/-- A vector write: lanes of ACT take the new value, other live lanes keep theirs, dead lanes are zero; what is written shifts into h0 and
the older results move up (R83, R91). -/
def Obligations.LaneWrites : Prop := ∀ (g : Group) (d : Reg) (v : Nat → Word),
  d.toNat < 112 →
  let h := g.writeReg (destV g d) v
  (∀ i < 32, vat (h.getV (destV g d)) i 0 =
    if g.live.getLsbD i = false then 0 else if g.act.getLsbD i then v i else vat (g.getV (destV g d)) i 0) ∧
  (∀ i < 32, vat (h.getV (.h 0)) i 0 = vat (h.getV (destV g d)) i 0) ∧
  (∀ n < 7, h.getV (.h (n + 1)) = g.getV (.h n)) ∧
  (∀ n, RegId.o n ≠ destV g d → h.getV (.o n) = g.getV (.o n))
/-! ### Floating point -/

/-- The four formats of vector arithmetic (R140, R146). -/
def ieeeFormats : List Fmt := [fF64, fF32, fF16, fBF16]

/-- The magnitude of a number. -/
def mag (v : Rat) : Rat := if v < 0 then -v else v

/-- w is a finite value of the format. -/
def HasValue (f : Fmt) (w : Rat) : Prop := ∃ y s m e, y < 2 * f.signW ∧ f.dec y = .num s m e ∧ FloatValue s m e = w

/-- r is the nonzero exact value v of sign s rounded once into the format (R146, R150): the neighbour that the direction chooses, an even
one on a tie, an infinity only beyond the largest finite value, NX for every change of value. -/
def Rounded (f : Fmt) (rm : Rm) (s : Bool) (v : Rat) (r : FRes) : Prop :=
  r.bits < 2 * f.signW ∧
  match f.dec r.bits with
  | .nan _ => False
  | .inf t => t = s ∧ rm ≠ .rz ∧ (rm = .ru → s = false) ∧ (rm = .rd → s = true) ∧ r.fl = flOF ||| flNX ∧ ∀ w, HasValue f w → mag w < mag v
  | .num t n d =>
    let w := FloatValue t n d
    t = s ∧ (r.fl &&& flNX = 0 ↔ w = v) ∧ r.fl &&& (flNV ||| flDZ ||| flIDZ) = 0 ∧
    match rm with
    | .rz => mag w ≤ mag v ∧ ∀ y, HasValue f y → mag y ≤ mag v → mag y ≤ mag w
    | .ru => v ≤ w ∧ ∀ y, HasValue f y → v ≤ y → w ≤ y
    | .rd => w ≤ v ∧ ∀ y, HasValue f y → y ≤ v → y ≤ w
    | .rne => ∀ y, HasValue f y → mag (w - v) ≤ mag (y - v) ∧ (mag (w - v) = mag (y - v) → y = w ∨ r.bits % 2 = 0)

/-- A finite value rounds to itself, without a flag (R146). -/
def Obligations.RoundingKeepsValues : Prop := ∀ f ∈ ieeeFormats, ∀ (rm : Rm) (x : Nat) (s : Bool) (m : Nat) (e : Int),
  x < 2 * f.signW → f.dec x = .num s m e →
  f.round rm false s m e false = ⟨x, 0⟩ ∧ (m = 0 ∨ 2 ^ f.fw ≤ m → f.round rm true s m e false = ⟨x, 0⟩) ∧
  (0 < m → m < 2 ^ f.fw → f.round rm true s m e false = ⟨f.sgn s 0, flUF ||| flNX⟩)

/-- Rounding is correct in every format and direction (R146, R150). -/
def Obligations.RoundingIsCorrect : Prop := ∀ f ∈ ieeeFormats, ∀ (rm : Rm) (s : Bool) (m : Nat) (e : Int), 0 < m →
  Rounded f rm s (FloatValue s m e) (f.round rm false s m e false)

/-- r is the exact value v rounded: by `Fmt.round` of any sign, magnitude and power of two that give v; a zero takes the sign z (R146,
R147). -/
def RoundsTo (f : Fmt) (rm : Rm) (ftz : Bool) (v : Rat) (z : Bool) (r : FRes) : Prop :=
  (v = 0 → r = ⟨f.sgn z 0, 0⟩) ∧ ∀ s m e, 0 < m → FloatValue s m e = v → r = f.round rm ftz s m e false

/-- On finite operands, addition, subtraction, multiplication and the two fused forms round their exact result once; a zero sum takes the
common sign of its terms, else + except under RD; a zero product the exclusive or of the signs. Division rounds the exact quotient (R146,
R156). -/
def Obligations.ArithmeticIsRounded : Prop := ∀ f ∈ ieeeFormats, ∀ (rm : Rm) (ftz : Bool) (x y z : Nat)
    (sx sy sz : Bool) (mx my mz : Nat) (ex ey ez : Int),
  f.rd ftz x = .num sx mx ex → f.rd ftz y = .num sy my ey → f.rd ftz z = .num sz mz ez →
  let a := FloatValue sx mx ex
  let b := FloatValue sy my ey
  let c := FloatValue sz mz ez
  let zero := fun (s t : Bool) => if s = t then s else decide (rm = .rd)
  RoundsTo f rm ftz (a + b) (zero sx sy) (FOp.eval .add f rm ftz x y z) ∧
  RoundsTo f rm ftz (a - b) (zero sx (!sy)) (FOp.eval .sub f rm ftz x y z) ∧
  RoundsTo f rm ftz (a * b) (sx != sy) (FOp.eval .mul f rm ftz x y z) ∧
  RoundsTo f rm ftz (a * b + c) (zero (sx != sy) sz) (FOp.eval .fma f rm ftz x y z) ∧
  RoundsTo f rm ftz (-(a * b) + c) (zero (sx == sy) sz) (FOp.eval .fnma f rm ftz x y z) ∧
  (0 < mx → 0 < my → ftz = false → Rounded f rm (sx != sy) (a / b) (f.div rm ftz x y)) ∧
  (mx = 0 → 0 < my → f.div rm ftz x y = ⟨f.sgn (sx != sy) 0, 0⟩) ∧
  (0 < mx → my = 0 → f.div rm ftz x y = ⟨f.sgn (sx != sy) f.infCode, flDZ⟩) ∧
  (mx = 0 → my = 0 → f.div rm ftz x y = ⟨f.nan, flNV⟩)

/-- NV for a signalling NaN among some values. -/
def signalled (vs : List FVal) : Word := if vs.contains (.nan true) then flNV else 0

/-- NaN operands give the canonical NaN, and NV when one signals; so do ∞ − ∞ and 0 × ∞, always with NV; other infinities propagate
(R148, R150). The minimum and maximum prefer a number to a NaN, and put −0 below +0 (R149). -/
def Obligations.NanAndInfinityRules : Prop := ∀ f ∈ ieeeFormats, ∀ (rm : Rm) (ftz : Bool) (x y z : Nat) (a b c : FVal),
  f.rd ftz x = a → f.rd ftz y = b → f.rd ftz z = c →
  let zeroInf := (∃ s t e, a = .num s 0 e ∧ b = .inf t) ∨ (∃ s t e, a = .inf s ∧ b = .num t 0 e)
  (a.isNan ∨ b.isNan → ∀ o ∈ [FOp.add, FOp.sub, FOp.mul], o.eval f rm ftz x y z = ⟨f.nan, signalled [a, b]⟩) ∧
  (a.isNan ∨ b.isNan ∨ c.isNan → ¬ zeroInf → ∀ o ∈ [FOp.fma, FOp.fnma], o.eval f rm ftz x y z = ⟨f.nan, signalled [a, b, c]⟩) ∧
  (zeroInf → ∀ o ∈ [FOp.mul, FOp.fma, FOp.fnma], o.eval f rm ftz x y z = ⟨f.nan, flNV⟩) ∧
  (∀ s t, a = .inf s → b = .inf t →
    FOp.eval .add f rm ftz x y z = (if s = t then ⟨f.sgn s f.infCode, 0⟩ else ⟨f.nan, flNV⟩) ∧
    FOp.eval .sub f rm ftz x y z = (if s = t then ⟨f.nan, flNV⟩ else ⟨f.sgn s f.infCode, 0⟩) ∧
    FOp.eval .mul f rm ftz x y z = ⟨f.sgn (s != t) f.infCode, 0⟩ ∧ f.div rm ftz x y = ⟨f.nan, flNV⟩) ∧
  (∀ s t n e, a = .inf s → b = .num t n e →
    FOp.eval .add f rm ftz x y z = ⟨f.sgn s f.infCode, 0⟩ ∧ FOp.eval .add f rm ftz y x z = ⟨f.sgn s f.infCode, 0⟩ ∧
    FOp.eval .sub f rm ftz x y z = ⟨f.sgn s f.infCode, 0⟩) ∧
  (∀ o ∈ [FOp.min, FOp.max],
    (a.isNan → b.isNan → o.eval f rm ftz x y z = ⟨f.nan, signalled [a, b]⟩) ∧
    (a.isNan → ¬ b.isNan → o.eval f rm ftz x y z = ⟨f.ftzIn ftz y, signalled [a, b]⟩) ∧
    (¬ a.isNan → b.isNan → o.eval f rm ftz x y z = ⟨f.ftzIn ftz x, signalled [a, b]⟩)) ∧
  (Ordered a b → FloatLess a b → FOp.eval .min f rm ftz x y z = ⟨f.ftzIn ftz x, 0⟩ ∧ FOp.eval .max f rm ftz x y z = ⟨f.ftzIn ftz y, 0⟩ ∧
    FOp.eval .min f rm ftz y x z = ⟨f.ftzIn ftz x, 0⟩ ∧ FOp.eval .max f rm ftz y x z = ⟨f.ftzIn ftz y, 0⟩) ∧
  (∀ e d, a = .num true 0 e → b = .num false 0 d →
    FOp.eval .min f rm ftz x y z = ⟨f.ftzIn ftz x, 0⟩ ∧ FOp.eval .max f rm ftz x y z = ⟨f.ftzIn ftz y, 0⟩ ∧
    FOp.eval .min f rm ftz y x z = ⟨f.ftzIn ftz x, 0⟩ ∧ FOp.eval .max f rm ftz y x z = ⟨f.ftzIn ftz y, 0⟩)

/-- n is the integer to which v rounds in a direction. -/
def RoundsToInt (rm : Rm) (v : Rat) (n : Int) : Prop :=
  match rm with
  | .rz => mag n ≤ mag v ∧ mag (v - n) < 1
  | .ru => v ≤ n ∧ n - v < 1
  | .rd => n ≤ v ∧ v - n < 1
  | .rne => mag (v - n) ≤ 1 / 2 ∧ (mag (v - n) = 1 / 2 → n % 2 = 0)

/-- Conversion to an integer: the rounded value with NX for a change; beyond the format's range its bound with NV alone; a NaN gives 0
with NV (R152). Codes 0x06 and 0x0A round to signed, 0x07 to natural numbers; codes 0x08, 0x09 and 0x0B round an integer once. -/
def Obligations.IntegerConversions : Prop := ∀ (rm : Rm) (ftz : Bool) (x : Nat),
  let goes := fun (f : Fmt) (w : Nat) (lo hi : Int) (r : FRes) =>
    (∀ q, f.rd ftz (x % 2 ^ w) = .nan q → r = ⟨0, flNV⟩) ∧
    (∀ s, f.rd ftz (x % 2 ^ w) = .inf s → r = ⟨uNat w (if s then lo else hi), flNV⟩) ∧
    (∀ s m e n, f.rd ftz (x % 2 ^ w) = .num s m e → RoundsToInt rm (FloatValue s m e) n →
      r = if n < lo then ⟨uNat w lo, flNV⟩ else if hi < n then ⟨uNat w hi, flNV⟩
        else ⟨uNat w n, if (n : Rat) = FloatValue s m e then 0 else flNX⟩)
  goes fF32 32 (-2 ^ 31) (2 ^ 31 - 1) (convert 0x06 (.ieee rm) ftz x) ∧
  goes fF32 32 0 (2 ^ 32 - 1) (convert 0x07 (.ieee rm) ftz x) ∧
  (x < 2 ^ 64 → goes fF64 64 (-2 ^ 63) (2 ^ 63 - 1) (convert 0x0A (.ieee rm) ftz x)) ∧
  RoundsTo fF32 rm ftz ((BitVec.ofNat 32 x).toInt : Rat) false (convert 0x08 (.ieee rm) ftz x) ∧
  RoundsTo fF32 rm ftz ((x % 2 ^ 32 : Nat) : Rat) false (convert 0x09 (.ieee rm) ftz x) ∧
  RoundsTo fF64 rm ftz ((BitVec.ofNat 64 x).toInt : Rat) false (convert 0x0B (.ieee rm) ftz x)

/-- The special-function unit keeps its bounds and its exact results: a reciprocal is within one unit in the last place, in F64 within
2^-14 of itself; powers of two of integers, and logarithms of powers of two, are exact; poles set DZ, squares of nothing NV (R156). -/
def Obligations.SpecialFunctionBounds : Prop := ∀ (x : Nat) (s : Bool) (m : Nat) (e : Int), 0 < m →
  (∀ ftz t n d, fF32.rd ftz x = .num s m e → fF32.dec (rcp32 ftz x).bits = .num t n d → 2 ^ 23 < n →
    t = s ∧ mag (FloatValue t n d * FloatValue s m e - 1) ≤ 1 / 2 ^ 23) ∧
  (∀ t n d, fF64.rd false x = .num s m e → fF64.dec (rcp64 false x).bits = .num t n d → 2 ^ 52 < n →
    t = s ∧ mag (FloatValue t n d * FloatValue s m e - 1) < 1 / 2 ^ 14 ∧ (rcp64 false x).bits % 2 ^ 38 = 0) ∧
  (∀ n : Int, fF32.rd false x = .num s m e → FloatValue s m e = n → -126 ≤ n → n ≤ 127 →
    (sfu32 .exp2 false x).fl = 0 ∧ ∃ k d, fF32.dec (sfu32 .exp2 false x).bits = .num false k d ∧ FloatValue false k d = 2 ^ n) ∧
  (∀ n : Int, fF32.rd false x = .num false m e → FloatValue false m e = 2 ^ n →
    (sfu32 .log2 false x).fl = 0 ∧ ∃ t k d, fF32.dec (sfu32 .log2 false x).bits = .num t k d ∧ FloatValue t k d = n) ∧
  (∀ ftz d t, fF32.rd ftz x = .num t 0 d →
    sfu32 .rcp ftz x = ⟨fF32.sgn t fF32.infCode, flDZ⟩ ∧ sfu32 .rsq ftz x = ⟨fF32.sgn t fF32.infCode, flDZ⟩ ∧
    sfu32 .log2 ftz x = ⟨fF32.sgn true fF32.infCode, flDZ⟩ ∧ sfu32 .sin ftz x = ⟨fF32.sgn t 0, 0⟩) ∧
  (∀ ftz, fF32.rd ftz x = .num true m e →
    sfu32 .rsq ftz x = ⟨fF32.nan, flNV⟩ ∧ sfu32 .log2 ftz x = ⟨fF32.nan, flNV⟩ ∧ ∀ rm, fF32.sqrt rm ftz x = ⟨fF32.nan, flNV⟩)
/-! ### Memory -/

/-- The state in which a bundle's own body runs: the repeat about to execute is noted (R116). -/
def atBody (x : Pre) (s : State) : State := s.enter (repNow x s)

/-- Everything that a memory request must pass before its accesses are outstanding (R121, R124, R187, R188, R191, R265, R304, R341, R358):
`ps` are its lanes' places. -/
structure Clear (m : Mem) (u : State) (ps : List (Nat × Dword × Spot)) : Prop where
  order : u.me.orderWait = false
  counter : m.counterFull u.me = none
  place : memPlace m u = .inr (ps, u)
  present : parkedOf ps = []
  tiles : u.refusedTile m.acc (hitsOf ps) = none
  watch : u.watchAt u.cur m.spad m.reads m.writes m.width (ps.map (·.2.1)) = none
  bounds : memBounds m (hitsOf ps) u = { trap := none, clamp := none, flag := false }
  key : m.writes = true → (u.ctx u.me.ctx).exhausted = false
  caps : u.belowCaps u.cur (needSlots (hitsOf ps)).length (aims (needSlots (hitsOf ps))) = true
  slots : u.slotsUsed (coreOf u.cur) + (needSlots (hitsOf ps)).length ≤ 768
  reads : u.probes u.cur m (hitsOf ps) (hitsOf ps) = (none, u)

/-- The accesses of a request: lane, place and data, and for a store whether its lanes together cover their sector (R295). -/
def accessesOf (m : Mem) (u : State) (ps : List (Nat × Dword × Spot)) : List (Hit × Dword × Bool) :=
  (hitsOf ps).map fun h =>
    if m.kind = .store then (h, BitVec.ofNat 64 ((m.data h.lane).toNat % 2 ^ (8 * m.width)), coversSector u m.width (hitsOf ps) h.loc)
    else (h, m.data h.lane, false)

/-- Instruction i makes the request `req`: when it passes every check, one access per lane is outstanding, its destinations are pending, and
nothing else changes; the first misaligned lane of a request to virtual addresses takes MISALIGN, and the first lane of one to the
scratchpad that leaves the context's tiles MEMFAULT (R119, R121, R124, R265). -/
def Requests (i : Instr) (x : Pre) (o : Op) (own : Flds → State → Prop) (req : Flds → State → Mem) : Prop :=
  ∀ s, Plain s → Issues x o s → ∀ u, u = atBody x s → own (fieldsNow x o s) u → ∀ m, m = req (fieldsNow x o s) u →
    (∀ ps, Clear m u ps →
      Becomes i x s (Group.recount { m.launch s.me (accessesOf m u ps) with partLoad := none }) ∧
      ((accessesOf m u ps).length = (m.todo u.me).length)) ∧
    (Ready s → u.me.orderWait = false → m.counterFull u.me = none →
      (m.spad = false → ∀ p, (m.todo u.me).find? (fun p => p.2.toNat % m.width != 0) = some p →
        TakesTrap i x.px.rep.isSome (repNow x s) s 4 p.2 s.me) ∧
      (m.spad = true → ∀ p, (m.todo u.me).find? (fun p => !u.spadGood u.cur p.2) = some p →
        TakesTrap i x.px.rep.isSome (repNow x s) s 5 p.2 s.me))

/-- A request of any address. -/
def anyAddr : Flds → State → Prop := fun _ _ => True

/-- A 64-bit address that is not an entry of the core's mapping table (R199). -/
def notEntry (x : Pre) (w : Width) : Flds → State → Prop := fun r u => w = .w64 → u.mapSlot? u.cur (u.readS r.a + u.srcS x r.b) = none

/-- Outside the current group, t holds what s holds, but for core c, which is k but for its event counts, and for the order tokens of home
locations (R321). -/
structure OnUnit (s t : State) (c : Nat) (k : Core) : Prop where
  cur : t.cur = s.cur
  groups : ∀ g, g ≠ s.cur → t.grp g = s.grp g
  mem : ∀ a, Memory.byte t.mem a = Memory.byte s.mem a
  clusters : t.clusters = s.clusters
  ctxs : t.ctxs = s.ctxs
  tenants : t.tenants = s.tenants
  hub : { t.hub with tokens := s.hub.tokens } = s.hub
  unit : uncounted (t.core c) = uncounted k
  cores : ∀ d, d ≠ c → uncounted (t.core d) = uncounted (s.core d)

/-- Instruction i completes: the group becomes g in all but bookkeeping and stands behind the repeat, and core c becomes k; nothing else changes
from w, which the instruction's own reads have made of s. -/
def OperatesFrom (i : Instr) (x : Pre) (s w : State) (g : Group) (c : Nat) (k : Core) : Prop :=
  ∃ t, exec i s = .next t ∧ arch t.me = arch g ∧ OnUnit w t c k ∧ Advances x (nextPc x s) s t

/-- Instruction i completes: the group becomes g in all but bookkeeping and stands behind the repeat, core c becomes k, and nothing else
changes. -/
def Operates (i : Instr) (x : Pre) (s : State) (g : Group) (c : Nat) (k : Core) : Prop := OperatesFrom i x s s g c k

/-- The fields of a load, and of a store. -/
def fldsL (c : FCls) (cb : FCls) (d a b : Reg) : List Fld := [⟨.d, c, .wr, d⟩, ⟨.a, .s, .rd, a⟩, ⟨.b, cb, .rd, b⟩]
def fldsS (c : FCls) (cb : FCls) (d a b : Reg) : List Fld := [⟨.d, c, .rd, d⟩, ⟨.a, .s, .rd, a⟩, ⟨.b, cb, .rd, b⟩]

/-- A 64-bit LD or ST at address va reaches doubleword dw of entry k of its core's mapping table, with no order, access before it or
watchpoint in its way (R173, R199). -/
structure AtEntry (x : Pre) (u : State) (va : Dword) (writes : Bool) (k dw : Nat) : Prop where
  entry : u.mapSlot? u.cur va = some (k, dw)
  plain : x.px.ord = none
  order : u.me.orderWait = false
  aligned : va.toNat % 8 = 0
  watch : u.watchAt u.cur false (!writes) writes 8 [va] = none

/-- Entry k of the current core's mapping table (R199). -/
def mapEntry (s : State) (k : Nat) : Dword × Dword := SMap.look (s.core (coreOf s.cur)).maps k (0, 0)

/-- A mapping entry with one doubleword written: V and VA of the first, TILE, N and WR of the second; CTX is kept (R199). -/
def entryWith (e : Dword × Dword) (dw : Nat) (v : Dword) : Dword × Dword :=
  if dw = 0 then (v &&& 0x00FFFFFFFFFFF001, e.2) else (e.1, (e.2 &&& 0x003F000000000000) ||| (v &&& 0x7FFF))

/-- LD and ST of a mapping entry: a load reads it; a store to one that is invalid and stays so only writes it; a store to another context's
valid entry is MEMFAULT (R199, R200). -/
def MapAccesses (x : Pre) (sc : Bool) (d a b : Reg) : Prop :=
  (∀ s o, Plain s → o = opMem (wordR x 0x20 ((Width.w64.code ++ BitVec.ofBool sc ++ 0#1 : BitVec 4).toNat) d a b) (fldsL .s .s d a b) true (ordCode x) →
    Issues x o s → ∀ r u k dw, r = fieldsNow x o s → u = atBody x s → AtEntry x u (u.readS r.a + u.srcS x r.b) false k dw →
    Becomes (.ld x .w64 sc d a b) x s (s.me.setSabs (s.me.sb + r.d.toNat) (if dw = 0 then (mapEntry s k).1 else (mapEntry s k).2))) ∧
  (∀ s o, Plain s → o = opMem (wordR x 0x21 ((Width.w64.code ++ 0#2 : BitVec 4).toNat) d a b) (fldsS .s .s d a b) false (ordCode x) →
    Issues x o s → ∀ r u k dw va v, r = fieldsNow x o s → u = atBody x s → va = u.readS r.a + u.srcS x r.b → v = u.readS r.d →
    AtEntry x u va true k dw →
    (Ready s → mapV (mapEntry s k) = true → mapCtx (mapEntry s k) ≠ s.me.ctx →
      TakesTrap (.st x .w64 d a b) x.px.rep.isSome (repNow x s) s 5 va s.me) ∧
    (mapV (mapEntry s k) = false → mapV (entryWith (mapEntry s k) dw v) = false → (dw = 0 → dbits v 63 56 = 0) →
      Operates (.st x .w64 d a b) x s s.me (coreOf s.cur) { s.core (coreOf s.cur) with
        maps := SMap.put (s.core (coreOf s.cur)).maps k (entryWith (mapEntry s k) dw v) (0, 0) }))

/-- Loads and stores: scalars at s[a] + s[b] by the control thread; lanes of ACT at s[a] + n · v[b], or contiguous at s[a] + s[b] + 4 · lane;
VLD loads are split-phase on their counter. Entries of the core's mapping table are read and written by a 64-bit LD and ST (R199, R411,
R448, R454, R456, R458, R492, R508). -/
def Obligations.LoadsAndStores : Prop := ∀ (x : Pre) (w : Width) (sc : Bool) (c : BitVec 4) (d a b : Reg),
  let one := fun (r : Flds) (u : State) (_ : Nat) => u.readS r.a + u.srcS x r.b
  let at_ := fun (n : Nat) (r : Flds) (u : State) (i : Nat) => u.readS r.a + (u.srcVB x r.b i).signExtend 64 * BitVec.ofNat 64 n
  let row := fun (r : Flds) (u : State) (i : Nat) => u.readS r.a + u.srcS x r.b + BitVec.ofNat 64 (4 * i)
  let lane := fun (r : Flds) (u : State) (i : Nat) => (u.srcVD r.d i).zeroExtend 64
  Requests (.ld x w sc d a b) x (opMem (wordR x 0x20 ((w.code ++ BitVec.ofBool sc ++ 0#1 : BitVec 4).toNat) d a b) (fldsL .s .s d a b) true (ordCode x))
    (notEntry x w) (fun r u => { memLoad x (Width.bytes w) 1 [.s (u.me.sb + r.d.toNat)] none (one r u) with scalar := true, sext := sc }) ∧
  Requests (.st x w d a b) x (opMem (wordR x 0x21 ((w.code ++ 0#2 : BitVec 4).toNat) d a b) (fldsS .s .s d a b) false (ordCode x))
    (notEntry x w) (fun r u => { memSt x (Width.bytes w) 1 (one r u) (fun _ => u.readS r.d) with scalar := true }) ∧
  Requests (.vld x c d a b) x (opMem (wordR x 0x22 c.toNat d a b) (fldsL .v .v d a b) true (ordCode x)) anyAddr
    (fun r u => memLoad x 4 u.me.act [destV u.me r.d] (some c.toNat) (at_ 4 r u)) ∧
  Requests (.vldc x c d a b) x (opMem (wordR x 0x23 c.toNat d a b) (fldsL .v .s d a b) true (ordCode x)) anyAddr
    (fun r u => memLoad x 4 u.me.act [destV u.me r.d] (some c.toNat) (row r u)) ∧
  Requests (.vld2 x c d a b) x (opMem (wordR x 0x24 c.toNat d a b) (fldsL .w .v d a b) true (ordCode x)) anyAddr
    (fun r u => memLoad x 8 u.me.act [destV u.me r.d, destV u.me (r.d + 1)] (some c.toNat) (at_ 8 r u)) ∧
  Requests (.vst x d a b) x (opMem (wordR x 0x25 0 d a b) (fldsS .v .v d a b) false (ordCode x)) anyAddr
    (fun r u => memSt x 4 u.me.act (at_ 4 r u) (lane r u)) ∧
  Requests (.vstc x d a b) x (opMem (wordR x 0x26 0 d a b) (fldsS .v .s d a b) false (ordCode x)) anyAddr
    (fun r u => memSt x 4 u.me.act (row r u) (lane r u)) ∧
  Requests (.vst2 x d a b) x (opMem (wordR x 0x27 0 d a b) (fldsS .w .v d a b) false (ordCode x)) anyAddr
    (fun r u => memSt x 8 u.me.act (at_ 8 r u) (u.readPair r.d)) ∧
  Requests (.spld x d a b) x (opMem (wordR x 0x28 0 d a b) (fldsL .v .v d a b) true (ordCode x)) anyAddr
    (fun r u => { memLoad x 4 u.me.act [destV u.me r.d] none (at_ 4 r u) with spad := true }) ∧
  Requests (.spst x d a b) x (opMem (wordR x 0x29 0 d a b) (fldsS .v .v d a b) false (ordCode x)) anyAddr
    (fun r u => { memSt x 4 u.me.act (at_ 4 r u) (lane r u) with spad := true }) ∧
  MapAccesses x sc d a b

/-- The new value of an atomic on w bytes (R363). -/
def atomResult (op : AtomOp) (w : Nat) (old v cmp : Nat) : Nat :=
  let a : BitVec (8 * w) := BitVec.ofNat _ old
  let b : BitVec (8 * w) := BitVec.ofNat _ v
  match op with
  | .add => (a + b).toNat
  | .and => (a &&& b).toNat
  | .or => (a ||| b).toNat
  | .xor => (a ^^^ b).toNat
  | .min => (if b.toInt < a.toInt then b else a).toNat
  | .max => (if a.toInt < b.toInt then b else a).toNat
  | .minn => min a.toNat b.toNat
  | .maxn => max a.toNat b.toNat
  | .swap => b.toNat
  | .cas => if old = cmp then b.toNat else a.toNat
  | .fadd => (fF32.add .rne false old v).bits

/-- Memory and group after the lanes of a scratchpad atomic, one after the other: the old value goes to the lane, the new one to its word;
a CAS that does not match writes nothing (R363, R449, R450). -/
def spatomRun (m : Mem) (op : AtomOp) : List Hit → Memory → Group → Memory × Group
  | [], mem, g => (mem, g)
  | h :: l, mem, g =>
    let old := Memory.le mem h.loc m.width
    let v := (m.data h.lane).toNat % 2 ^ (8 * m.width)
    let c := (m.cmp h.lane).toNat % 2 ^ (8 * m.width)
    spatomRun m op l (if op = .cas ∧ old ≠ c then mem else Memory.setLe mem h.loc m.width (atomResult op m.width old v c))
      (g.landLoad (m.flight 0 0 none false h 0) old)

/-- ATOM and VATOM leave read-modify-write accesses outstanding; SPATOM, after every earlier access of its group, performs its lanes at
once in rising order, and leaves its destinations pending until a marker (R362, R448 to R451, R478). -/
def Obligations.Atomics : Prop := ∀ (x : Pre) (op : AtomOp) (d a b : Reg),
  let cmp := decide (op = .cas)
  let flds := fun c cb => [⟨.d, c, .rw, d⟩, ⟨.a, .s, .rd, a⟩, (⟨.b, cb, .rd, b⟩ : Fld)]
  let wide := w64Of x
  let dest := fun (r : Flds) (u : State) => if wide then [destV u.me r.d, destV u.me (r.d + 1)] else [destV u.me r.d]
  let at_ := fun (r : Flds) (u : State) (i : Nat) => u.readS r.a + (u.srcVB x r.b i).signExtend 64 * 4
  let val := fun (n : Reg) (u : State) (i : Nat) => if wide then u.readPair n i else (u.srcVD n i).zeroExtend 64
  let req := fun r u => memAtom x op u.me.act (dest r u) (at_ r u) (val r.d u) (val (if wide then r.d + 2 else r.d + 1) u)
  let cls := if cmp then (if wide then .q else .w) else if wide then .w else .v
  Requests (.atom x op d a b) x (opMem (wordR x 0x2A op.code.toNat d a b) (flds (if cmp then .t else .s) .s) false (some 2)) anyAddr
    (fun r u => { memAtom x op 1 [.s (u.me.sb + r.d.toNat)] (fun _ => u.readS r.a + u.srcS x r.b) (fun _ => u.readS r.d)
                    (fun _ => if cmp then u.readS (r.d + 1) else 0) with scalar := true }) ∧
  Requests (.vatom x op d a b) x (opMem (wordR x 0x2B op.code.toNat d a b) (flds cls .v) false (some 2)) anyAddr req ∧
  ∀ o, o = opMem (wordR x 0x2C op.code.toNat d a b) (flds cls .v) false (some 2) → ∀ s, Plain s → Issues x o s → ∀ u, u = atBody x s →
    ∀ m, m = { req (fieldsNow x o s) u with spad := true } → s.me.flights = [] → s.hub.marks = [] → s.hub.l3marks = [] → s.hub.poison = [] →
    ∀ ps, memPlace m u = .inr (ps, u) → u.refusedTile .rw (hitsOf ps) = none →
      u.watchAt u.cur true true true m.width ((hitsOf ps).map (·.va)) = none →
      ∃ t, exec (.spatom x op d a b) s = .next t ∧ arch t.me = arch (spatomRun m op (hitsOf ps) s.mem s.me).2 ∧
        (∀ z, Memory.byte t.mem z = Memory.byte (spatomRun m op (hitsOf ps) s.mem s.me).1 z) ∧ (∀ h, h ≠ s.cur → t.grp h = s.grp h) ∧
        Advances x (nextPc x s) s t

/-- The event that performs an outstanding access or result (R119, R219, R493). -/
noncomputable def landEvent (g : Nat) (f : Flight) : Instr :=
  if f.ctr.isSome then .splitLoadReply g f.id else if f.dest.isEmpty then .accessPerformed g f.id else .variableResultLands g f.id

/-- Flight f of group g can be performed, outside run-ahead and sessions, over storage and registers without errors (R90, R203, R215, R219,
R294, R313). -/
structure MayLand (s : State) (g : Nat) (f : Flight) : Prop where
  slot : g < 18432
  used : (s.grp g).used = true
  mine : (s.grp g).flights.find? (fun e => e.id == f.id) = some f
  ordered : s.mayPerform g f = true
  ahead : (s.grp g).runAhead = none
  alone : s.session? (s.grp g).ctx = none
  calm : s.hub.doomed = []
  marks : s.hub.marks = []
  l3marks : s.hub.l3marks = []
  poison : s.hub.poison = []
  memory : s.mem.wf = true
  inside : f.loc % 64 + f.width ≤ 64
  words : (s.grp g).regMarks = []

/-- After event i group g is `gr`, memory holds `bytes`, and no other group changes. -/
def Lands (i : Instr) (s : State) (g : Nat) (gr : Group) (bytes : Nat → Byte) : Prop :=
  ∃ t, exec i s = .next t ∧ t.grp g = gr ∧ (∀ h, h ≠ g → t.grp h = s.grp h) ∧ (∀ a, Memory.byte t.mem a = bytes a) ∧ t.cur = s.cur

/-- The byte that a cluster reads at a location: its L2's where that is valid, else memory's (R174, R175). -/
def byteSeen (s : State) (k loc : Nat) : Byte :=
  if (s.sector k loc).valid.getLsbD (loc % 64) then (s.sector k loc).byte (loc % 64) else Memory.byte s.mem loc

/-- Cluster k's L2 takes in the line of a location without an eviction: it holds the line, or a way of the line's set is free (R174, R309). -/
def HasWay (s : State) (k loc : Nat) : Prop :=
  ((s.cluster k).linesOf loc).contains (loc / 512) = true ∨ ((s.cluster k).linesOf loc).length < 16 - s.lockedWays (some k) loc

/-- The little-endian value of n bytes. -/
def valueOf (b : Nat → Byte) (loc : Nat) : Nat → Nat
  | 0 => 0
  | n + 1 => (b loc).toNat + 256 * valueOf b (loc + 1) n

/-- A load lands what its cluster sees at its location, or the scratchpad's bytes: a scalar whole, extended by zeros or its sign; a lane of
one register or a pair; its flight is gone, and memory unchanged, but for a line that the load's own makes the L2 evict (R174, R175, R411,
R493). -/
def Obligations.LoadsLand : Prop := ∀ (s : State) (g : Nat) (f : Flight), MayLand s g f → f.kind = .load → (f.acquires && wideScope f.scope) = false →
  let k := cluOf (coreOf g)
  let lands := fun v t => exec (landEvent g f) s = .next t ∧ t.grp g = ((s.grp g).landLoad f v).landed f ∧ (∀ h, h ≠ g → t.grp h = s.grp h) ∧ t.cur = s.cur
  let val := fun v => Lands (landEvent g f) s g (((s.grp g).landLoad f v).landed f) (Memory.byte s.mem)
  (isSpad f.loc = true → val (valueOf (Memory.byte s.mem) f.loc f.width)) ∧
  (isSpad f.loc = false → (s.sector k f.loc).mark = 0 → (s.sector k f.loc).poison = false →
    (s.sector k f.loc).valid ≠ 0 ∨ (s.sector k f.loc).ahead = false →
    (HasWay s k f.loc → val (valueOf (byteSeen s k) f.loc f.width)) ∧
    ((∀ e ∈ (s.cluster k).l2, e.2.mark ≠ 2) → ∃ t, lands (valueOf (byteSeen s k) f.loc f.width) t)) ∧
  (∀ n v, f.dest = [.s n] → v < 2 ^ (8 * f.width) → f.width ≤ 8 → ∀ b : BitVec (8 * f.width), b.toNat = v →
    (s.grp g).landLoad f v = (s.grp g).setSabs n (if f.sext then b.signExtend 64 else b.zeroExtend 64))

/-- A store, or a spilled scalar register, writes its bytes at the scratchpad, or in its cluster's L2, where they become valid and written; an
atomic writes at the point of coherence and lands the old value; a fence below PKG scope and a late result change only their group (R174, R211,
R213, R218, R219, R363, R490). -/
def Obligations.WritesPerformed : Prop := ∀ (s : State) (g : Nat) (f : Flight), MayLand s g f → wideScope f.scope = false →
  let k := cluOf (coreOf g)
  let put := fun (v : Nat) a => if f.loc ≤ a ∧ a < f.loc + f.width then BitVec.ofNat 8 (v / 256 ^ (a - f.loc)) else Memory.byte s.mem a
  (f.kind = .store → isSpad f.loc = true → Lands (landEvent g f) s g ((s.grp g).landed f) (put f.data.toNat)) ∧
  (f.kind = .store ∨ (f.kind = .spill ∧ f.width = 8) → isSpad f.loc = false → 0 < f.width → (s.cluster k).armed = [] → HasWay s k f.loc →
    ((s.cluster k).l2.any fun e => e.1 / 8 == f.loc / 512 && e.2.written != 0 && e.2.owner != (s.grp g).ctx + 1) = false →
    ∃ t, exec (landEvent g f) s = .next t ∧ t.grp g = (s.grp g).landed f ∧ (∀ h, h ≠ g → t.grp h = s.grp h) ∧
      (∀ a, Memory.byte t.mem a = Memory.byte s.mem a) ∧
      ∀ i < 64, let wrote := f.loc % 64 ≤ i ∧ i < f.loc % 64 + f.width
        ((t.sector k f.loc).byte i = if wrote then BitVec.ofNat 8 (f.data.toNat / 256 ^ (i - f.loc % 64)) else (s.sector k f.loc).byte i) ∧
        ((t.sector k f.loc).valid.getLsbD i = true ↔ wrote ∨ (s.sector k f.loc).valid.getLsbD i = true) ∧
        ((t.sector k f.loc).written.getLsbD i = true ↔ wrote ∨ (s.sector k f.loc).written.getLsbD i = true)) ∧
  (∀ op, f.kind = .atomic op → f.dest ≠ [] → (s.sector k f.loc).written = 0 →
    ∀ old cmp, old = valueOf (Memory.byte s.mem) f.loc f.width → cmp = f.cmp.toNat % 2 ^ (8 * f.width) →
    Lands (landEvent g f) s g (((s.grp g).landLoad f old).landed f)
      (if op = .cas ∧ old ≠ cmp then Memory.byte s.mem else put (atomResult op f.width old (f.data.toNat % 2 ^ (8 * f.width)) cmp))) ∧
  (f.kind = .fence ∨ f.kind = .flush ∨ f.kind = .inval → Lands (landEvent g f) s g ((s.grp g).landed f) (Memory.byte s.mem)) ∧
  (f.kind = .sfu ∨ f.kind = .fill → ∀ r, f.dest = [r] → (∀ n, r ≠ .s n) →
    let x := s.grp g
    let y := x.setV r (lanesFn fun i => if f.mask.getLsbD i then vat f.value i 0 else if x.live.getLsbD i then vat (x.getV r) i 0 else 0)
    Lands (landEvent g f) s g (Group.landed { y with fflags := x.fflags ||| f.flags.zeroExtend 64 } f) (Memory.byte s.mem)) ∧
  (f.kind = .fill → ∀ n, f.dest = [.s n] → f.flags = 0 → Lands (landEvent g f) s g (((s.grp g).setSabs n f.data).landed f) (Memory.byte s.mem))

/-- The doubleword at a location as a wait reads it: nothing that its cluster wrote is still in L2 (R221). -/
def AtHome (s : State) (loc : Nat) : Prop := isSpad loc = true ∨ (s.sector (cluOf (coreOf s.cur)) loc).written = 0

/-- Instruction i completes, with memory as `bytes` afterwards; no other group changes from w, which the instruction's own reads have made
of s. -/
def StoresFrom (i : Instr) (x : Pre) (s w : State) (g : Group) (bytes : Nat → Byte) : Prop :=
  ∃ t, exec i s = .next t ∧ arch t.me = arch g ∧ Advances x (nextPc x s) s t ∧ (∀ h, h ≠ s.cur → t.grp h = w.grp h) ∧
    ∀ z, Memory.byte t.mem z = bytes z

/-- Instruction i completes, with memory as `bytes` afterwards; no other group changes. -/
def Stores (i : Instr) (x : Pre) (s : State) (g : Group) (bytes : Nat → Byte) : Prop := StoresFrom i x s s g bytes

/-- Storage without errors. -/
structure Sound (s : State) : Prop where
  marks : s.hub.marks = []
  l3marks : s.hub.l3marks = []
  poison : s.hub.poison = []

/-- No cluster holds a written byte (R174). -/
def Clean (s : State) : Prop := ∀ k, ∀ e ∈ (s.cluster k).l2, e.2.written = 0

/-- FENCE, FLUSH and INVAL leave an ordering action outstanding; PREF changes no register and no byte of memory; WAITC goes on once at most b
loads of its counter are uncounted, and their registers are no longer pending; MWAIT and SYNCW read a word that differs from b, else wait;
SYNCSET writes its word (R399, R424, R431, R461, R462, R513). -/
def Obligations.FencesAndWaits : Prop := ∀ (x : Pre) (k : OrdKind) (sc : Scope) (l : Bool) (d a b : Reg) (s : State), Plain s →
  (Issues x (opStop (wordR x 0x2D 0 0 0 (0#1 ++ k.code ++ sc.code)) [] (if 2 ≤ scopeOrd sc then some 1 else none)) s →
    Becomes (.fence x k sc) x s (s.me.addFence .fence k sc)) ∧
  (Issues x (opStop (wordR x 0x2D 1 0 0 (0#4 ++ sc.code)) [] (if wideScope sc then some 1 else none)) s →
    wideScope sc = false ∨ (atBody x s).ownMaps = [] → Becomes (.flush x sc) x s (s.me.addFence .flush .release sc)) ∧
  (Issues x (opStop (wordR x 0x2D 2 0 0 (0#4 ++ sc.code)) [] (if wideScope sc then some 1 else none)) s →
    Becomes (.inval x sc) x s (s.me.addFence .inval .acquire sc)) ∧
  (∀ o va, o = opMem (wordR x 0x2D 3 (0#6 ++ BitVec.ofBool l) a b) [⟨.a, .s, .rd, a⟩, ⟨.b, .s, .rd, b⟩] true none → Issues x o s →
    va = s.readS (fieldsNow x o s).a + s.srcS x (fieldsNow x o s).b → canonical va = true → s.aperture? s.me.ctx va = none →
    s.hub.marks = [] → s.hub.l3marks = [] → s.hub.poison = [] →
    ∃ t, exec (.pref x l a b) s = .next t ∧ arch t.me = arch s.me ∧ Advances x (nextPc x s) s t ∧
      (Clean s → ∀ z, Memory.byte t.mem z = Memory.byte s.mem z) ∧ ∀ h, h ≠ s.cur → t.grp h = s.grp h) ∧
  (∀ o c n, o = opStop (wordR x 0x2D 4 0 a b) [⟨.a, .c, .rd, a⟩, ⟨.b, .s, .rd, b⟩] none → Issues x o s → c = (fieldsNow x o s).a.toNat →
    n = (s.srcS x (fieldsNow x o s).b).toNat → 255 ≤ n ∨ s.me.uncounted c ≤ n → s.me.takeOwed c (vat s.me.issued c 0 - n) = none →
    ∃ t, exec (.waitc x a b) s = .next t ∧ arch t.me = arch s.me ∧ Elsewhere s t ∧ Advances x (nextPc x s) s t ∧
      (x.z = false → ∀ p, p ∈ t.me.pend ↔ p ∈ s.me.pend ∧ ∀ q, p.2 = .split c q → vat s.me.issued c 0 - n ≤ q)) ∧
  (∀ o va loc hint e, o = opStop (wordR x 0x2D 5 d a b) [⟨.d, .s, .wr, d⟩, ⟨.a, .s, .rd, a⟩, ⟨.b, .s, .rd, b⟩] (some 10) → Issues x o s →
    va = s.readS (fieldsNow x o s).a → s.me.flights = [] → s.me.resumes = false → s.hub.marks = [] → s.hub.l3marks = [] → s.hub.poison = [] →
    va.toNat % 8 = 0 → (atBody x s).spot s.cur va .r true = (.loc loc hint e, atBody x s) → isHost loc = false → isPeer loc = false →
    s.refusedTile .r [{ lane := 0, va := va, loc := loc, hint := hint, enc := e }] = none → s.watchAt s.cur false true false 8 [va] = none →
    AtHome s loc →
    let v := BitVec.ofNat 64 (valueOf (Memory.byte s.mem) loc 8)
    (v ≠ s.srcS x (fieldsNow x o s).b →
      Stores (.mwait x d a b) x s (s.me.setSabs (s.me.sb + (fieldsNow x o s).d.toNat) v) (Memory.byte s.mem)) ∧
    (v = s.srcS x (fieldsNow x o s).b →
      ∃ t, exec (.mwait x d a b) s = .next t ∧ arch t.me = arch s.me ∧ t.me.pc = s.me.pc ∧ t.me.wait = { code := 11, cond := .word loc v va })) ∧
  (∀ o va loc, o = opStop (wordR x 0x2D 6 d a b) [⟨.d, .s, .wr, d⟩, ⟨.a, .s, .rd, a⟩, ⟨.b, .s, .rd, b⟩] (some 10) → Issues x o s →
    va = s.readS (fieldsNow x o s).a → loc = spadOf (cluOf (coreOf s.cur)) va.toNat → s.me.flights = [] →
    s.hub.marks = [] → s.hub.l3marks = [] → s.hub.poison = [] → s.spadGood s.cur va = true → va.toNat % 8 = 0 →
    let v := valueOf (Memory.byte s.mem) loc 8
    (v % 2 ^ 16 ≠ (s.srcS x (fieldsNow x o s).b).toNat % 2 ^ 16 →
      Becomes (.syncw x d a b) x s (s.me.setSabs (s.me.sb + (fieldsNow x o s).d.toNat) (BitVec.ofNat 64 v))) ∧
    (v % 2 ^ 16 = (s.srcS x (fieldsNow x o s).b).toNat % 2 ^ 16 →
      ∃ t, exec (.syncw x d a b) s = .next t ∧ arch t.me = arch s.me ∧ t.me.pc = s.me.pc ∧ t.me.wait = { code := 10, cond := .sync loc (v % 2 ^ 16) })) ∧
  (∀ o va loc, o = opStop (wordR x 0x2D 7 0 a b) [⟨.a, .s, .rd, a⟩, ⟨.b, .s, .rd, b⟩] (some 2) → Issues x o s →
    va = s.readS (fieldsNow x o s).a → loc = spadOf (cluOf (coreOf s.cur)) va.toNat → s.me.flights = [] → s.hub.marks = [] →
    s.mem.wf = true → s.spadGood s.cur va = true → va.toNat % 8 = 0 →
    ∃ t, exec (.syncset x a b) s = .next t ∧ arch t.me = arch s.me ∧ Advances x (nextPc x s) s t ∧ (∀ h, h ≠ s.cur → t.grp h = s.grp h) ∧
      ∀ z, Memory.byte t.mem z = if loc ≤ z ∧ z < loc + 8
        then BitVec.ofNat 8 ((s.srcS x (fieldsNow x o s).b).toNat / 256 ^ (z - loc)) else Memory.byte s.mem z)


/-! ### Barriers, engines, bins, deques, queues and bound registers -/

/-- The group of instruction i waits; nothing else changes from u, which the instruction's own reads have made of s. -/
def ParksFrom (i : Instr) (s u : State) (w : Wait) : Prop :=
  ∃ t, exec i s = .next t ∧ arch t.me = arch s.me ∧ t.me.pc = s.me.pc ∧ t.me.wait = w ∧ Elsewhere u t

/-- Instruction i changes nothing: its group waits. -/
def Parks (i : Instr) (s : State) (w : Wait) : Prop := ParksFrom i s s w

/-- The group's instruction has not been answered by a unit that it waited for. -/
def Fresh (s : State) : Prop := ∀ p q, s.me.wait.cond ≠ .handed p q

/-- The core and the state of the barrier object that a value names on the current group's cluster (R196). -/
def objAt (s : State) (v : Dword) : Nat := objCore (cluOf (coreOf s.cur)) v.toNat
def objOf (s : State) (v : Dword) : BarObj := s.obj (objAt s v) v.toNat

/-- QUEUE at an instruction that names barrier object v: 4 outside its range, 2 for another context's, 3 for a free one (R197, R372). -/
def ObjTraps (i : Instr) (x : Pre) (s : State) (v : Dword) (needHeld : Bool) : Prop :=
  Ready s →
    let fails := fun (n : Dword) => TakesTrap i x.px.rep.isSome (repNow x s) s 0x11 n s.me
    (4096 ≤ v.toNat → fails 4) ∧
    (v.toNat < 4096 → (needHeld = true → s.objAway (objAt s v) v.toNat s.me.ctx = false) →
      ((objOf s v).held = true → (objOf s v).ctx ≠ s.me.ctx → fails 2) ∧
      (needHeld = true → (objOf s v).held = false → fails 3))

/-- The object v may be used by the current group's context. -/
structure OwnObj (s : State) (v : Dword) : Prop where
  range : v.toNat < 4096
  here : s.objAway (objAt s v) v.toNat s.me.ctx = false
  held : (objOf s v).held = true
  mine : (objOf s v).ctx = s.me.ctx

/-- A group without its binding to an object of the current context that is released (R375). -/
def unbound (s : State) (v : Dword) (h : Nat) (g : Group) : Group :=
  match g.binding with
  | some (n, _) =>
    if g.used = true ∧ g.ctx = s.me.ctx ∧ n % 64 = v.toNat % 64 ∧ objCore (cluOf (coreOf h)) n = objAt s v then { g with binding := none } else g
  | none => g

/-- The crew of the current group. -/
def crewMates (s : State) : List Nat := ((s.crew? s.me.crew).map (·.gids)).getD []

/-- BAR holds its group until every live group of its crew has arrived with nothing outstanding; the last one releases them all. BOARR binds its
group and counts one arrival: at EXPECT the generation completes. BOWAIT waits for a generation other than b. BOINIT takes, sizes or
frees an object, whose bindings go with it (R196, R197, R366, R367, R373 to R377). -/
def Obligations.Barriers : Prop := ∀ (x : Pre) (d a b : Reg) (s : State), Plain s →
  (Issues x (opStop (wordR x 0x2E 0 0 0 0) [] (some 7)) s →
    (Canonical s → Fresh s → s.me.flights = [] → wideScope (s.barScope s.cur) = false →
      (∀ h ∈ crewMates s, h ≠ s.cur → (s.grp h).live = 0 ∨ ((s.grp h).wait.cond = .bar ∧ (s.grp h).flights = [])) →
      ∃ t, exec (.bar x) s = .next t ∧ arch t.me = arch s.me ∧ Advances x (nextPc x s) s t ∧
        (∀ z, Memory.byte t.mem z = Memory.byte s.mem z) ∧
        ∀ h, h ≠ s.cur → t.grp h = if h ∈ crewMates s ∧ (s.grp h).wait.cond = .bar
          then { s.grp h with wait := { code := 8, cond := .handed 0 0 } } else s.grp h) ∧
    (Fresh s → (∃ h ∈ crewMates s, h ≠ s.cur ∧ (s.grp h).live ≠ 0 ∧ (s.grp h).wait.cond ≠ .bar) →
      Parks (.bar x) s { code := 8, cond := .bar }) ∧
    (∀ p q, s.me.wait.cond = .handed p q →
      (wideScope (s.barScope s.cur) = false → Becomes (.bar x) x s s.me) ∧
      (wideScope (s.barScope s.cur) = true → Clean s → Stores (.bar x) x s s.me (Memory.byte s.mem)))) ∧
  (∀ o v n, o = opStop (wordR x 0x2E 1 d a 0) [⟨.d, .s, .wr, d⟩, ⟨.a, .s, .rd, a⟩] (some 1) → Issues x o s →
    v = s.readS (fieldsNow x o s).a → n = objOf s v →
    ObjTraps (.boarr x d a) x s v true ∧
    (OwnObj s v →
      (n.expect ≠ 0 → s.me.flights = [] →
        let k := s.core (objAt s v)
        let y := if n.arrived + 1 = n.expect then { n with arrived := 0, gen := (n.gen + 1) % 65536 } else { n with arrived := n.arrived + 1 }
        Operates (.boarr x d a) x s
          { s.me.setSabs (s.me.sb + (fieldsNow x o s).d.toNat) (BitVec.ofNat 64 n.gen) with binding := some (v.toNat, n.gen) } (objAt s v)
          { k with bars := SMap.put k.bars (v.toNat % 64) y BarObj.free }) ∧
      (Ready s → n.expect = 0 → TakesTrap (.boarr x d a) x.px.rep.isSome (repNow x s) s 0x11 6 s.me))) ∧
  (∀ o v gen, o = opStop (wordR x 0x2E 2 0 a b) [⟨.a, .s, .rd, a⟩, ⟨.b, .s, .rd, b⟩] (some 7) → Issues x o s →
    v = s.readS (fieldsNow x o s).a → gen = (s.srcS x (fieldsNow x o s).b).toNat % 65536 →
    ObjTraps (.bowait x a b) x s v true ∧
    (OwnObj s v →
      ((objOf s v).gen ≠ gen → Operates (.bowait x a b) x s s.me (objAt s v) (s.core (objAt s v))) ∧
      ((objOf s v).gen = gen → Parks (.bowait x a b) s { code := 9, cond := .barrier v.toNat gen }))) ∧
  (∀ o v n y, o = opStop (wordR x 0x2E 3 0 a b) [⟨.a, .s, .rd, a⟩, ⟨.b, .s, .rd, b⟩] (some 7) → Issues x o s →
    v = s.readS (fieldsNow x o s).a → n = (s.srcS x (fieldsNow x o s).b).toNat → y = objOf s v →
    (n < 65536 → ObjTraps (.boinit x a b) x s v false) ∧
    (Ready s → 65536 ≤ n → TakesTrap (.boinit x a b) x.px.rep.isSome (repNow x s) s 0x11 4 s.me) ∧
    (n < 65536 → v.toNat < 4096 → (y.held = true → y.ctx = s.me.ctx) →
      let busy := y.held = true ∧ (y.arrived ≠ 0 ∨ (n = 0 ∧ s.objWaited (cluOf (coreOf s.cur)) v.toNat = true))
      let k := s.core (objAt s v)
      (Ready s → busy → TakesTrap (.boinit x a b) x.px.rep.isSome (repNow x s) s 0x11 5 s.me) ∧
      (¬ busy → n ≠ 0 →
        let z : BarObj := if y.held then { y with expect := n } else { held := true, ctx := s.me.ctx, gen := 0, arrived := 0, expect := n }
        Operates (.boinit x a b) x s s.me (objAt s v) { k with bars := SMap.put k.bars (v.toNat % 64) z BarObj.free }) ∧
      (¬ busy → n = 0 → y.held = false → Operates (.boinit x a b) x s s.me (objAt s v) k) ∧
      (Canonical s → ¬ busy → n = 0 → y.held = true → (k.barsBack.any fun e => e.1 == v.toNat % 64) = false →
        ∃ t, exec (.boinit x a b) s = .next t ∧ arch t.me = arch (unbound s v s.cur s.me) ∧ Advances x (nextPc x s) s t ∧
          OnUnit { s with groups := t.groups } t (objAt s v) { k with bars := SMap.del k.bars (v.toNat % 64) } ∧
          ∀ h, h ≠ s.cur → t.grp h = unbound s v h (s.grp h))))

/-! #### Engine commands -/

/-- What the issue of a command checks, after its group's earlier fences and acquires (R223), in the order of R230: ENGINE with a reason, a
full batch, alignment, ranges, tile ownership; then an outstanding flush or release, or a full queue, parks it (R224, R232); else it waits in
its engine's queue with its operands as read and joins the open batch (R229, R241). -/
def Commands (i : Instr) (x : Pre) (o : Op) (op : CmdOp) (landed : List Nat) (chk : Dword → Dword → Dword → Nat → EngChk) : Prop :=
  ∀ s, Plain s → Issues x o s → ∀ r core a b e c, r = fieldsNow x o s → core = coreOf s.cur → a = s.readS r.a → b = s.readS r.b →
    e = s.readS r.e → c = chk a b e core →
    let fails := fun (cause : Nat) (v : Dword) (g : Group) => TakesTrap i x.px.rep.isSome (repNow x s) s cause v g
    let count := (s.me.open?.map (·.count)).getD 0
    let k := s.core core
    (s.me.orderWait = true → Parks i s { code := 31, cond := .order }) ∧
    (s.me.orderWait = false → (∀ n v, Ready s → c.reason = some (n, v) → fails 0x10 v { s.me with lastErr := n }) ∧
    (c.reason = none →
      (Ready s → 4096 ≤ count → fails 0x10 (BitVec.ofNat 64 s.me.batchNum) { s.me with lastErr := 0x0A }) ∧
      (count < 4096 →
        (∀ p, Ready s → c.align.find? (fun p => p.2.toNat % p.1 != 0) = some p → fails 4 p.2 s.me) ∧
        ((∀ p ∈ c.align, p.2.toNat % p.1 = 0) →
          (∀ v, Ready s → c.rngs.findSome? (s.badRng core s.me.ctx) = some v → fails 5 v s.me) ∧
          (c.rngs.findSome? (s.badRng core s.me.ctx) = none →
            (∀ v, Ready s → c.rngs.findSome? (s.ownRng core op.eng) = some v → fails 7 v s.me) ∧
            (c.rngs.findSome? (s.ownRng core op.eng) = none →
              (s.me.sendsHome = true → Parks i s { code := 31, cond := .quiet }) ∧
              (s.me.sendsHome = false → queueCap op.eng ≤ k.queued op.eng →
                Parks i s { code := if op.eng = .matrix then 16 else 31, cond := .engineRoom op.eng }) ∧
              (s.me.sendsHome = false → k.queued op.eng < queueCap op.eng →
                Operates i x s (s.me.joinBatch (tilesOf core c.rngs)) core { k with
                  nextCmd := k.nextCmd + 1
                  cmds := k.cmds ++ [{
                    id := k.nextCmd, gid := s.cur, ctx := s.me.ctx, batch := s.me.batchNum, op := op, a := a, b := b, e := e, landed := landed
                    tiles := tilesOf core c.rngs, status := 0, ended := false, debited := false, clamped := false, phase := 0, msg := []
                    held := 0, work := (s.crew? s.me.crew).bind fun w => w.launch.map fun l => (l, w.scrw) }] })))))))

/-- The reserved bits of a shape word, and destination rows that overlap (R246, R247). -/
def shapeReasons (h : Dword) : List (Bool × (Nat × Dword)) := [(dbits h 63 60 != 0, (3, h)), (rowsClash h, (4, h))]

/-- The checks of a matrix operation on K elements of A, whose halves of C take n blocks of 16 KiB on both cores of the pair (R236, R237,
R240, R420). -/
def matChk (f : MatPair) (k n : Nat) (more : List (Bool × (Nat × Dword))) (a b e : Dword) (core : Nat) : EngChk :=
  let (la, lb, lc) := matSizes f k n
  let off := 4096 * dbits e 18 12
  { reason := firstOf ((core % 2 == 1, (1, e)) :: more ++ [(matClash core off lc a la || matClash core off lc b lb, (4, e))])
    align := [(4096, a), (4096, b)]
    rngs := [.sp a.toNat 0 0 la (matUse core a), .sp b.toNat 0 0 lb (matUse core b), .sp (core % 64 * 2 ^ 19 + off) 0 0 lc .dst,
      .sp ((core + 1) % 64 * 2 ^ 19 + off) 0 0 lc .dst] }

/-- The copies CPY.G2S, S2G, S2S and X, the gather GTHR, the send FSEND and the matrix operations MMA and MMAB: what each reads, writes and
refuses; the collective COLL, which completes at once with 0x15 when it joins one that has failed (R230 to R232, R236 to R240, R246 to R253,
R383 to R387, R402 to R405, R419 to R422). -/
def Obligations.EngineCommands : Prop := ∀ (x : Pre) (f : MatPair) (a b e : Reg),
  Commands (.cpyG2s x a b e) x (opEng x 0x2F 0 a b e) .g2s [] (fun d v h _ =>
    { reason := firstOf (shapeReasons h), align := [(16, d), (16, v)]
      rngs := [.sp d.toNat (shRows h) (shDstr h) (shLen h) .dst, .va v (shRows h) (shSstr h) (shLen h)] ++ syncRng (csaCore d) h }) ∧
  Commands (.cpyS2g x a b e) x (opEng x 0x2F 1 a b e) .s2g [] (fun d v h _ =>
    { reason := firstOf (shapeReasons h), align := [(16, d), (16, v)]
      rngs := [.va d (shRows h) (shDstr h) (shLen h), .sp v.toNat (shRows h) (shSstr h) (shLen h) .src] ++ syncRng (csaCore v) h }) ∧
  Commands (.cpyS2s x a b e) x (opEng x 0x2F 2 a b e) .s2s [] (fun d v h _ =>
    { reason := firstOf (shapeReasons h ++ [((s2sDests d).any (copyClash v.toNat · h), (4, d)), (dbits d 63 32 != 0 && dbits d 31 20 != 0, (6, d))])
      align := ((s2sDests d).map fun n => (16, BitVec.ofNat 64 n)) ++ [(16, v)]
      rngs := ((s2sDests d).map fun n => .sp n (shRows h) (shDstr h) (shLen h) .dst) ++ [.sp v.toNat (shRows h) (shSstr h) (shLen h) .src] ++
        (s2sDests d).flatMap fun n => syncRng (n / 2 ^ 19 % 64) h }) ∧
  Commands (.cpyX x a b e) x (opEng x 0x2F 3 a b e) .x [] (fun d v h core =>
    { reason := firstOf [(dbits h 63 62 == 3 || dbits h 61 60 == 3, (3, h)), (rowsClash h, (4, h))], align := [(16, d), (16, v)]
      rngs := [.va d (shRows h) (shDstr h) (shLen h), .va v (shRows h) (shSstr h) (shLen h)] ++ syncRng core h }) ∧
  Commands (.gthr x a b e) x (opEng x 0x2F 4 a b e) .gthr [] (fun d v h _ =>
    { reason := firstOf [(dbits h 63 60 != 0, (3, h))], align := [(16, d), (16, v)]
      rngs := [.sp d.toNat 0 0 (shLen h * (shRows h + 1)) .dst, .va v 0 0 (shLen h), .own (4 * dbits h 17 0) (4 * (shRows h + 1))] ++
        syncRng (csaCore d) h }) ∧
  Commands (.fsend x a b e) x (opEng x 0x2F 6 a b e) .fsend [0] (fun d v h core =>
    { reason := firstOf [(dbits d 63 44 != 0, (3, d)), (dbits h 63 60 != 0 || dbits h 43 0 != 0, (3, h))], align := [(64, v)]
      rngs := [.sp v.toNat 0 0 64 .src] ++ syncRng core h }) ∧
  Commands (.mma x f a b e) x (opEng x 0x31 f.code.toNat a b e) (.mma f) [] (fun p q h core =>
    matChk f (MatPair.k f) 1 [(dbits h 11 0 != 0 || dbits h 63 19 != 0, (3, h))] p q h core) ∧
  Commands (.mmab x f a b e) x (opEng x 0x32 f.code.toNat a b e) (.mmab f) [] (fun p q h core =>
    let l := max (blockOf (dbits h 1 0)) (blockOf (dbits h 3 2))
    matChk f l (l / min (blockOf (dbits h 1 0)) (blockOf (dbits h 3 2)))
      [(dbits h 11 4 != 0 || dbits h 63 19 != 0, (3, h)), (decide (MatPair.k f < l), (2, h))] p q h core) ∧
  ∀ s, Plain s → ∀ o, o = opEng x 0x2F 5 a b e → Issues x o s → ∀ r d v h core u, r = fieldsNow x o s → d = s.readS r.a → v = s.readS r.b →
    h = s.readS r.e → core = coreOf s.cur → u = atBody x s →
    (Ready s → 7 ≤ dbits h 63 60 ∨ dbits h 17 0 ≠ 0 → TakesTrap (.coll x a b e) x.px.rep.isSome (repNow x s) s 0x10 h { s.me with lastErr := 3 }) ∧
    (dbits h 63 60 < 7 → dbits h 17 0 = 0 → ∀ cm, u.comm s.me.ctx (.engine core) (dbits h 43 32) = (.inr cm, u) →
      s.me.orderWait = false → s.me.sendsHome = false →
      let op := dbits h 63 60
      let dst := Rng.sp d.toNat 0 0 (collDst op cm.ranks.length (shLen h)) .dst
      let src := Rng.sp v.toNat 0 0 (collSrc op (shLen h)) .src
      let rngs := [dst, src] ++ syncRng (csaCore d) h
      let key := dbits h 43 32 * 1024 + core
      let num := SMap.look (s.ctx s.me.ctx).collNum key 0
      let failed := (s.ctx s.me.ctx).collBad.contains (dbits h 43 32, num)
      (failed = true → ∀ q ∈ (s.core core).cmds, q.id ≠ (s.core core).nextCmd) →
      (cm.ranks.filter (· == (s.hub.device.toNat, core))).length = 1 → (5 ≤ op → shLen h % 32 = 0) →
      ¬ (d.toNat < v.toNat + collSrc op (shLen h) ∧ v.toNat < d.toNat + collDst op cm.ranks.length (shLen h)) →
      (s.me.open?.map (·.count)).getD 0 < 4096 → d.toNat % 16 = 0 → v.toNat % 16 = 0 →
      rngs.findSome? (s.badRng core s.me.ctx) = none → rngs.findSome? (s.ownRng core .collective) = none →
      (s.core core).queued .collective < 32 → (s.ctx s.me.ctx).used = true →
      ∃ t, exec (.coll x a b e) s = .next t ∧ arch t.me = arch (s.me.joinBatch (tilesOf core rngs)) ∧ Advances x (nextPc x s) s t ∧
        (∀ g, g ≠ s.cur → t.grp g = s.grp g) ∧ (∀ z, Memory.byte t.mem z = Memory.byte s.mem z) ∧
        t.ctx s.me.ctx = { s.ctx s.me.ctx with collNum := SMap.put (s.ctx s.me.ctx).collNum key (num + 1) 0 } ∧
        (t.core core).cmds = (s.core core).cmds ++ [{
          id := (s.core core).nextCmd, gid := s.cur, ctx := s.me.ctx, batch := s.me.batchNum, op := .coll, a := d, b := v, e := h, landed := [num]
          tiles := tilesOf core rngs, status := if failed then 0x15 else 0, ended := failed, debited := false, clamped := false, phase := 0
          msg := (cm.entry.map (leBytes 4)).flatten, held := 0
          work := (s.crew? s.me.crew).bind fun w => w.launch.map fun l => (l, w.scrw) }])

/-! #### Tiles and batches -/

/-- Core c's tiles from t0 on, n of them, get an owner state, and no other tile changes; nothing else changes but the group, which becomes g
(R222, R468, R474). -/
def Owners (i : Instr) (x : Pre) (s : State) (g : Group) (c t0 n owner : Nat) : Prop :=
  ∃ t, exec i s = .next t ∧ arch t.me = arch g ∧ OnUnit s t c { s.core c with tiles := (t.core c).tiles } ∧ Advances x (nextPc x s) s t ∧
    ∀ j, t.tile c j = if t0 ≤ j ∧ j < t0 + n then { s.tile c j with owner := owner } else s.tile c j

/-- A run of n tiles at cluster scratchpad address v that TGIVE and TTAKE accept (R469, R472). -/
structure TileRun (s : State) (v n : Dword) (c t0 : Nat) : Prop where
  count : 1 ≤ n.toNat ∧ n.toNat ≤ 108
  aligned : v.toNat % 4096 = 0
  inside : s.badRng (coreOf s.cur) s.me.ctx (.sp v.toNat 0 0 (4096 * n.toNat) .sync) = none
  core : c = cluOf (coreOf s.cur) * 64 + v.toNat / 2 ^ 19 % 64
  first : t0 = v.toNat % 2 ^ 19 / 4096

/-- ENGINE 5 for a count, MISALIGN, MEMFAULT (R469, R472). -/
def TileTraps (i : Instr) (x : Pre) (s : State) (v n : Dword) : Prop :=
  Ready s →
    let fails := fun (cause : Nat) (w : Dword) (g : Group) => TakesTrap i x.px.rep.isSome (repNow x s) s cause w g
    (n.toNat = 0 ∨ 108 < n.toNat → fails 0x10 n { s.me with lastErr := 5 }) ∧
    (1 ≤ n.toNat → n.toNat ≤ 108 →
      (v.toNat % 4096 ≠ 0 → fails 4 v s.me) ∧
      (v.toNat % 4096 = 0 → ∀ w, s.badRng (coreOf s.cur) s.me.ctx (.sp v.toNat 0 0 (4096 * n.toNat) .sync) = some w → fails 5 w s.me))

/-- TGIVE gives tiles that its threads own to an engine; TTAKE takes them back once no command names them, and reports the status of a batch that
used them; TCHK reads a tile's owner and whether a command names it. All three wait for their group's earlier fences and acquires (R190, R222, R223,
R243, R466, R468 to R474). -/
def Obligations.TileOwnership : Prop := ∀ (x : Pre) (a b e : Reg) (s : State), Plain s →
  (∀ o v n w, o = opEng x 0x30 0 a b e → Issues x o s → v = s.readS (fieldsNow x o s).a → n = s.readS (fieldsNow x o s).b →
    w = s.srcS x (fieldsNow x o s).e →
    let ok := (1 ≤ w.toNat ∧ w.toNat ≤ 5) ∨ (9 ≤ w.toNat ∧ w.toNat ≤ 13)
    (s.me.orderWait = true → Parks (.tgive x a b e) s { code := 31, cond := .order }) ∧
    (s.me.orderWait = false → (Ready s → ¬ ok → TakesTrap (.tgive x a b e) x.px.rep.isSome (repNow x s) s 0x10 w { s.me with lastErr := 3 }) ∧
    (ok → TileTraps (.tgive x a b e) x s v n ∧
      ∀ c t0, TileRun s v n c t0 →
        ((∀ i < n.toNat, (s.tile c (t0 + i)).owner = 0) →
          (s.tilesTouched c t0 n.toNat = false → Owners (.tgive x a b e) x s s.me c t0 n.toNat w.toNat) ∧
          (s.tilesTouched c t0 n.toNat = true → Parks (.tgive x a b e) s { code := 15, cond := .quiet })) ∧
        (∀ i < n.toNat, Ready s → (s.tile c (t0 + i)).owner ≠ 0 → (∀ j < i, (s.tile c (t0 + j)).owner = 0) →
          TakesTrap (.tgive x a b e) x.px.rep.isSome (repNow x s) s 7 (v + BitVec.ofNat 64 (4096 * i)) s.me)))) ∧
  (∀ o v n, o = opStop (wordR x 0x30 1 a b 0) [⟨.a, .s, .rd, a⟩, ⟨.b, .s, .rd, b⟩] (some 6) → Issues x o s →
    v = s.readS (fieldsNow x o s).a → n = s.readS (fieldsNow x o s).b →
    TileTraps (.ttake x a b) x s v n ∧
    (Fresh s → s.me.orderWait = true → ∀ c t0, TileRun s v n c t0 → Parks (.ttake x a b) s { code := 31, cond := .order }) ∧
    ∀ c t0, TileRun s v n c t0 → s.me.orderWait = false →
      let late := s.me.toReport fun q => q.tiles.any ((List.range n.toNat).map fun i => c * 128 + t0 + i).contains
      (s.tilesBusy c t0 n.toNat = false → late = none → Owners (.ttake x a b) x s s.me c t0 n.toNat 0) ∧
      (s.tilesBusy c t0 n.toNat = true → ∃ t, exec (.ttake x a b) s = .next t ∧ arch t.me = arch s.me ∧ t.me.pc = s.me.pc ∧
        t.me.wait = { code := 15, cond := .tiles c t0 n.toNat } ∧ OnUnit s t c (s.core c)) ∧
      (s.tilesBusy c t0 n.toNat = false → ∀ q, late = some q → (s.ctx s.me.ctx).tvec ≠ 0 → s.me.intrap = false →
        ∃ t, exec (.ttake x a b) s = .next t ∧ t.me.pc = (s.ctx s.me.ctx).tvec ∧ t.me.tval = statusVal q ∧
          t.me.tcause.toNat % 256 = (if q.status = 0x18 then 0x0A else 0x10) ∧ ∀ p ∈ t.me.batches, ¬ (p.num = q.num ∧ p.retired = true))) ∧
  (∀ o v, o = opStop (wordR x 0x30 2 a b 0) [⟨.a, .s, .wr, a⟩, ⟨.b, .s, .rd, b⟩] (some 6) → Issues x o s →
    v = s.readS (fieldsNow x o s).b →
    (s.me.orderWait = true → Parks (.tchk x a b) s { code := 31, cond := .order }) ∧
    (s.me.orderWait = false → s.spadGood s.cur v = true →
      let c := cluOf (coreOf s.cur) * 64 + v.toNat / 2 ^ 19 % 64
      let t0 := v.toNat % 2 ^ 19 / 4096
      Becomes (.tchk x a b) x s (s.me.setSabs (s.me.sb + (fieldsNow x o s).a.toNat)
        (BitVec.ofNat 64 ((s.tile c t0).owner + if s.tilesBusy c t0 1 then 16 else 0)))) ∧
    (Ready s → s.me.orderWait = false → s.spadGood s.cur v = false → TakesTrap (.tchk x a b) x.px.rep.isSome (repNow x s) s 5 v s.me))

/-- The open batch, or a new one, as MBATCH closes it: with ARRIVE on the object of bits 11:0 when bit 12 is set (R242). -/
def closedBatch (g : Group) (v : Dword) : Batch :=
  let fresh : Batch := {
    num := g.batchNum, count := 0, left := 0, arrive := none, status := 0, closed := false, retired := false, reported := false, tiles := [] }
  { (g.batches.find? fun b => !b.closed).getD fresh with closed := true, arrive := if v.getLsbD 12 then some (v.toNat % 4096) else none }

/-- MBATCH closes the batch and gives its number; one without outstanding commands retires at once, and arrives on its object, or has status
0x11 when the context does not hold that. MBWAIT goes on once every batch up to b has retired, and reports the first status. MQRY reads the
engines' state (R241 to R245, R415 to R418, R423). -/
def Obligations.Batches : Prop := ∀ (x : Pre) (d a : Reg) (s : State), Plain s →
  (∀ o v q g, o = opStop (wordR x 0x33 0 d a 0) [⟨.d, .s, .wr, d⟩, ⟨.a, .s, .rd, a⟩] (some 6) → Issues x o s →
    v = s.readS (fieldsNow x o s).a → q = closedBatch s.me v →
    g = s.me.setSabs (s.me.sb + (fieldsNow x o s).d.toNat) (BitVec.ofNat 64 s.me.batchNum) →
    let closed := fun (l : List Batch) => { g with batches := s.me.batches.filter (·.closed) ++ l, batchNum := (s.me.batchNum + 1) % 65536 }
    (Ready s → dbits v 63 13 ≠ 0 → TakesTrap (.mbatch x d a) x.px.rep.isSome (repNow x s) s 0x10 v { s.me with lastErr := 8 }) ∧
    (dbits v 63 13 = 0 → 8 ≤ s.me.openBatches → Parks (.mbatch x d a) s { code := 14, cond := .batchRoom }) ∧
    (dbits v 63 13 = 0 → s.me.openBatches < 8 →
      (q.left ≠ 0 → Becomes (.mbatch x d a) x s (closed (if q.retired = true ∧ q.status = 0 then [] else [q]))) ∧
      (q.left = 0 → q.arrive = none → Becomes (.mbatch x d a) x s (closed (if q.status = 0 then [] else [{ q with retired := true }]))) ∧
      (q.left = 0 → ∀ n, q.arrive = some n →
        let at_ := objCore (cluOf (coreOf s.cur)) n
        let y := s.obj at_ n
        (y.held = true → y.ctx = s.me.ctx →
          Operates (.mbatch x d a) x s (closed (if q.status = 0 then [] else [{ q with retired := true }])) at_
            { s.core at_ with bars := SMap.put (s.core at_).bars (n % 64) y.arrive BarObj.free }) ∧
        (y.held = false ∨ y.ctx ≠ s.me.ctx → s.objAway at_ n s.me.ctx = false →
          Becomes (.mbatch x d a) x s (closed [{ q with retired := true, status := if q.status = 0 then 0x11 else min q.status 0x11 }]))))) ∧
  (∀ o v n, o = opStop (wordR x 0x33 1 d a 0) [⟨.d, .s, .wr, d⟩, ⟨.a, .s, .rd, a⟩] (some 6) → Issues x o s →
    v = s.readS (fieldsNow x o s).a → n = v.toNat →
    let done := ∀ b ∈ s.me.batches, s.me.covers n b = true → b.retired = true
    (Ready s → n = s.me.batchNum ∨ 65536 ≤ n →
      TakesTrap (.mbwait x d a) x.px.rep.isSome (repNow x s) s 0x10 v { s.me with lastErr := 7 }) ∧
    (n < 65536 → n ≠ s.me.batchNum →
      (¬ done → Parks (.mbwait x d a) s { code := 14, cond := .batches n }) ∧
      (done → s.me.toReport (s.me.covers n) = none →
        Becomes (.mbwait x d a) x s (s.me.setSabs (s.me.sb + (fieldsNow x o s).d.toNat) (BitVec.ofNat 64 s.me.openBatches))) ∧
      (done → Ready s → ∀ q, s.me.toReport (s.me.covers n) = some q →
        TakesTrap (.mbwait x d a) x.px.rep.isSome (repNow x s) s (if q.status = 0x18 then 0x0A else 0x10)
          (BitVec.ofNat 64 (q.num + q.status * 2 ^ 16))
          { s.me with batches := s.me.batches.filter fun p => !(p.num == q.num && p.retired) }))) ∧
  SetsScalar (.mqry x d) x (opStop (wordR x 0x33 2 d 0 0) [⟨.d, .s, .wr, d⟩] (some 10)) (fun _ s =>
    let lead := s.core (coreOf s.cur / 2 * 2)
    BitVec.ofNat 64 (s.me.batchNum * 2 ^ 48 + s.me.lastErr * 2 ^ 40 + (s.me.open?.map (·.count)).getD 0 * 2 ^ 16 + s.me.openBatches * 2 ^ 8 +
      lead.queued .matrix * 2 ^ 3 + (if lead.matrixBusy then 2 else 0) + if s.hub.narrowed.contains (dieOf (coreOf s.cur)) then 1 else 0))

/-! #### Bins and launches -/

/-- The arguments that SPAWN deposits: those of the lanes of ACT, in rising order (R67). -/
def spawnArgs (x : Pre) (r : Reg) (s : State) : List Word := (lanesOf s.me.act).map (s.srcVB x r)

/-- A closed bin in the launch buffer (R68, R69, R323). -/
def closedBin (k : Core) (q : Bin) (cause : Nat) : Bin := { q with closing := cause + 1, cfg := (k.cfgOf q.ctx q.entry).getD 0 }

/-- SPAWN deposits its lanes' arguments in the open bin of its entry, or opens one; a full bin goes to the launch buffer. BINCFG sets, replaces
or removes a configuration and closes the open bin. BINFLUSH closes every bin of its context. LAUNCH submits the record at its
address (R36, R66 to R69, R368 to R370, R409, R410, R452). -/
def Obligations.BinsAndLaunches : Prop := ∀ (x : Pre) (a b : Reg) (s : State), Plain s → ∀ c core k, c = s.me.ctx → core = coreOf s.cur →
  k = s.core core →
  (∀ o e args, o = opStop (wordR x 0x34 0 0 a b) [⟨.a, .s, .rd, a⟩, ⟨.b, .v, .rd, b⟩] (some 5) → Issues x o s →
    e = s.readS (fieldsNow x o s).a → args = spawnArgs x (fieldsNow x o s).b s →
    (Ready s → e.toNat % 4 ≠ 0 → TakesTrap (.spawn x a b) x.px.rep.isSome (repNow x s) s 4 e s.me) ∧
    (e.toNat % 4 = 0 →
      (Ready s → canonical e = false → TakesTrap (.spawn x a b) x.px.rep.isSome (repNow x s) s 5 e s.me) ∧
      (canonical e = true →
        (Ready s → k.cfgOf c e = none → TakesTrap (.spawn x a b) x.px.rep.isSome (repNow x s) s 0x11 e s.me) ∧
        ((k.cfgOf c e).isSome →
          (s.me.act = 0 → Becomes (.spawn x a b) x s s.me) ∧
          (s.me.act ≠ 0 → s.me.flights = [] → k.buffer.length < 4 →
            (∀ q, k.binOf c e = some q → q.closing = 0 → (∀ p ∈ k.bins, p.index = q.index → p = q) →
              (q.args.length + args.length < 32 → Operates (.spawn x a b) x s s.me core
                { k with bins := k.bins.map fun p => if p.index = q.index then { p with args := q.args ++ args } else p }) ∧
              (q.args.length + args.length = 32 → k.bins.Nodup → (∀ p ∈ k.bins, p.closing = 0) →
                Operates (.spawn x a b) x s s.me core { k with
                  bins := k.bins.filter fun p => p.index != q.index
                  buffer := k.buffer ++ [closedBin k { q with args := q.args ++ args } 0] })) ∧
            (∀ n, k.binOf c e = none → k.freeBin = some n → args.length < 32 → Operates (.spawn x a b) x s s.me core
              { k with bins := k.bins ++ [{ ctx := c, entry := e, args := args, cfg := 0, start := k.cycles, closing := 0, index := n }] })))))) ∧
  (∀ o e v, o = opStop (wordR x 0x34 1 0 a b) [⟨.a, .s, .rd, a⟩, ⟨.b, .s, .rd, b⟩] (some 5) → Issues x o s →
    e = s.readS (fieldsNow x o s).a → v = s.srcS x (fieldsNow x o s).b → e.toNat % 4 = 0 → canonical e = true →
    let set := fun (q : Core) => { q with binCfg := (q.binCfg.filter fun p => !(p.1 == c && p.2.1 == e)) ++ if v = 0 then [] else [(c, e, v)] }
    let full := v ≠ 0 ∧ k.cfgOf c e = none ∧ 16 ≤ (k.binCfg.filter (·.1 == c)).length
    (Ready s → full → TakesTrap (.bincfg x a b) x.px.rep.isSome (repNow x s) s 0x11 7 s.me) ∧
    (Ready s → ¬ full → v ≠ 0 → badBinCfg v = true → TakesTrap (.bincfg x a b) x.px.rep.isSome (repNow x s) s 0x11 8 s.me) ∧
    (Canonical s → ¬ full → (v ≠ 0 → badBinCfg v = false) →
      (k.binOf c e = none → Operates (.bincfg x a b) x s s.me core (set k)) ∧
      (∀ q, k.binOf c e = some q → k.buffer.length < 4 → q.closing = 0 → k.bins.Nodup → (∀ p ∈ k.bins, p.index = q.index → p = q) →
        (∀ p ∈ k.bins, p.closing = 0) → Operates (.bincfg x a b) x s s.me core
          (set { k with bins := k.bins.filter fun p => p.index != q.index, buffer := k.buffer ++ [closedBin k q 2] })))) ∧
  (Issues x (opStop (wordR x 0x34 2 0 0 0) [] (some 5)) s → (∀ l, s.me.wait.cond ≠ .flush l) →
    ((∀ q ∈ k.bins, q.ctx ≠ c) → Becomes (.binflush x) x s s.me) ∧
    (∀ q, k.bins = [q] → q.ctx = c → q.closing = 0 → k.buffer.length < 4 →
      Operates (.binflush x) x s s.me core { k with bins := [], buffer := k.buffer ++ [closedBin k q 2] })) ∧
  (∀ o va u, o = opStop (wordR x 0x34 3 0 a 0) [⟨.a, .s, .rd, a⟩] (some 5) → Issues x o s → va = s.readS (fieldsNow x o s).a → u = atBody x s →
    (Ready s → va.toNat % 256 ≠ 0 → TakesTrap (.launch x a) x.px.rep.isSome (repNow x s) s 4 va s.me) ∧
    (va.toNat % 256 = 0 → ∀ l hint enc, u.spot s.cur va .r false = (.loc l hint enc, u) → s.me.flights = [] →
      (256 ≤ s.admitted → Clean s → Parks (.launch x a) s { code := 31, cond := .launches }) ∧
      (s.admitted < 256 → Clean s → Sound s → ∀ rec w, homeDws u.releaseWide l va 32 = .inr (rec, w) → w.me = u.me → w.recReason c rec = 0 →
        fieldAt rec 0xC0 4 = 0xFFFFFFFF → fieldAt rec 0xC4 4 = 0xFFFFFFFF →
        let y := recLaunch rec c none false va
        ∃ t, exec (.launch x a) s = .next t ∧ arch t.me = arch s.me ∧ Advances x (nextPc x s) s t ∧
          (∀ g, g ≠ s.cur → t.grp g = s.grp g) ∧ (∀ z, Memory.byte t.mem z = Memory.byte s.mem z) ∧ t.hub.nextLaunch = w.hub.nextLaunch + 1 ∧
          SMap.find? t.hub.launches w.hub.nextLaunch =
            some { y with stage := if y.boundp ≠ 0 then 1 else 2, logNo := w.hub.nextLaunch % 65536 })))

/-! #### Deques and queues -/

/-- The group waits at a deque of core c with a request added (R73, R391). -/
def Asks (i : Instr) (s : State) (c : Nat) (k : Core) : Prop :=
  ∃ t, exec i s = .next t ∧ arch t.me = arch s.me ∧ t.me.pc = s.me.pc ∧ t.me.wait = { code := 13, cond := .deque } ∧ OnUnit s t c k

/-- The group with a pair of scalar registers written. -/
def withTwo (g : Group) (r : Reg) (p q : Dword) : Group := (g.setSabs (g.sb + r.toNat) p).setSabs (g.sb + (r + 1).toNat) q

/-- A group that a deque has answered completes: an entry popped or stolen is an acquire at PKG scope (R391). -/
def Takes (i : Instr) (x : Pre) (s : State) (r : Reg) : Prop :=
  ∀ p q, s.me.wait.cond = .handed p q →
    (q ≠ 0 → Becomes i x s (withTwo s.me r p q)) ∧ (q = 0 → Stores i x s (withTwo s.me r p q) (Memory.byte s.mem))

/-- DQPUSH, DQPOP and DQSTEAL wait at a deque with a request, and complete with what it answers; a push or pop at a deque
that another context holds is QUEUE 1, a core out of range QUEUE 11; DQLEN counts the entries of the context's deque, and none of another's
(R71, R73, R390 to R392). -/
def Obligations.Deques : Prop := ∀ (x : Pre) (d a b : Reg) (s : State), Plain s → ∀ c core k, c = s.me.ctx → core = coreOf s.cur →
  k = s.core core →
  (∀ o, o = opStop (wordR x 0x35 0 d 0 b) [⟨.d, .s, .wr, d⟩, ⟨.b, .s, .rd, b⟩] (some 4) → Issues x o s →
    let r := fieldsNow x o s
    (∀ p q, s.me.wait.cond = .handed p q → Becomes (.dqpush x d b) x s (s.me.setSabs (s.me.sb + r.d.toNat) p)) ∧
    (Fresh s → k.dqHolder = none ∨ k.dqHolder = some c → s.dqWaits = false → s.me.flights = [] → Clean s →
      Asks (.dqpush x d b) s core
        { k with dqHolder := some c, dqReqs := k.dqReqs ++ [{ gid := s.cur, op := 0, val := s.srcS x r.b, since := k.cycles }] }) ∧
    (Ready s → Fresh s → ∀ n, k.dqHolder = some n → n ≠ c → TakesTrap (.dqpush x d b) x.px.rep.isSome (repNow x s) s 0x11 1 s.me)) ∧
  (∀ o, o = opStop (wordR x 0x35 1 d 0 0) [⟨.d, .t, .wr, d⟩] (some 4) → Issues x o s →
    Takes (.dqpop x d) x s (fieldsNow x o s).d ∧
    (Fresh s → k.dqHolder = none ∨ k.dqHolder = some c → s.dqWaits = false → s.me.flights = [] →
      Asks (.dqpop x d) s core { k with dqHolder := some c, dqReqs := k.dqReqs ++ [{ gid := s.cur, op := 1, val := 0, since := k.cycles }] }) ∧
    (Ready s → Fresh s → ∀ n, k.dqHolder = some n → n ≠ c → TakesTrap (.dqpop x d) x.px.rep.isSome (repNow x s) s 0x11 1 s.me)) ∧
  (∀ o v, o = opStop (wordR x 0x35 2 d a 0) [⟨.d, .t, .wr, d⟩, ⟨.a, .s, .rd, a⟩] (some 4) → Issues x o s →
    v = (s.readS (fieldsNow x o s).a).toNat →
    Takes (.dqsteal x d a) x s (fieldsNow x o s).d ∧
    (Fresh s → v ≤ 767 → s.dqWaits = false → s.me.flights = [] →
      Asks (.dqsteal x d a) s v
        { s.core v with dqReqs := (s.core v).dqReqs ++ [{ gid := s.cur, op := 2, val := 0, since := (s.core v).cycles }] }) ∧
    (Ready s → Fresh s → 767 < v → TakesTrap (.dqsteal x d a) x.px.rep.isSome (repNow x s) s 0x11 11 s.me)) ∧
  (∀ o v, o = opStop (wordR x 0x35 3 d a 0) [⟨.d, .s, .wr, d⟩, ⟨.a, .s, .rd, a⟩] (some 4) → Issues x o s →
    v = (s.readS (fieldsNow x o s).a).toNat →
    (v ≤ 767 → Becomes (.dqlen x d a) x s (s.me.setSabs (s.me.sb + (fieldsNow x o s).d.toNat)
      (BitVec.ofNat 64 (if (s.core v).dqHolder = some c then (s.core v).deque.length else 0)))) ∧
    (Ready s → 767 < v → TakesTrap (.dqlen x d a) x.px.rep.isSome (repNow x s) s 0x11 11 s.me))

/-- Bytes with others placed from a location on. -/
def putBytes (l : Nat) (b : List Byte) (f : Nat → Byte) : Nat → Byte := fun z => if l ≤ z ∧ z < l + b.length then b.getD (z - l) 0 else f z

/-- Bytes with doublewords placed from a location of a page on, where the page's class puts them (R290). -/
def putRow (s : State) (l : Nat) (b : List Byte) (f : Nat → Byte) : Nat → Byte :=
  (List.range (b.length / 8)).foldl (fun f i => putBytes (s.locPlus l (8 * i)) ((b.drop (8 * i)).take 8) f) f

/-- The n doublewords of an entry that starts at a location of its page (R290). -/
def rowAt (s : State) (l n : Nat) : List Byte := (List.range n).flatMap fun i => Memory.bytes s.mem (s.locPlus l (8 * i)) 8

/-- HEAD, TAIL, FREE and INFLIGHT of a header placed at its home (R434). -/
def putHeader (h : QHdr) (head tail free : Nat) (f : Nat → Byte) : Nat → Byte :=
  putBytes (h.loc + 0x10) (leBytes 8 head ++ leBytes 8 tail ++ leBytes 4 free ++ leBytes 4 h.inflight) f

/-- The request of the current group, waiting at a queue's home. -/
def asked (s : State) (r : QueueReq) : State := s.onHub fun h => { h with queueReqs := h.queueReqs ++ [r] }

/-- A put or get that finds its queue's header h, passes every check of R436 on its places `ls`, and is alone at the queue. -/
structure QueueOpen (u : State) (v va : Dword) (h : QHdr) (put : Bool) (ls : List Nat) : Prop where
  fresh : ∀ p q, u.me.wait.cond ≠ .handed p q
  fault : u.me.wait.cond ≠ .fault
  slot : u.cur < 18432
  asks : u.myReq = none
  header : queueHeader v 2 u = .inr (h, u)
  aligned : h.e64 = true → va.toNat % 64 = 0
  places : queuePlaces ((if h.e64 then [((if put then Acc.r else Acc.w), true, 64, va)] else []) ++
    [((if put then Acc.w else Acc.r), false, h.size, h.slot (if put then h.tail else h.head))]) u = .inr (ls, u)
  alone : ∀ r ∈ u.hub.queueReqs, r.queue ≠ h.id
  quiet : u.me.flights = []
  clean : Clean u
  memory : u.mem.wf = true
  sound : Sound u

/-- A put of queue instruction i: with a slot free, its entry goes to the slot of TAIL, the header counts it, and the group becomes g; else it
waits for a slot, or takes the status `full` (R74, R434 to R437). -/
def Puts (i : Instr) (x : Pre) (s : State) (v va : Dword) (g : Group) (full : Option Group) : Prop :=
  ∀ u h ls, u = atBody x s → QueueOpen u v va h true ls →
    (∀ b v, (if h.e64 then loadDws u (ls.headD 0) va 8 = .inr (b, v) else b = leBytes 8 va.toNat ∧ v = u) → v.me = u.me → Clean v →
      v.hub.queueReqs = s.hub.queueReqs → Sound v → v.mem.wf = true →
      ∀ r w, r = { queue := h.id, gid := s.cur, put := true, entry := b, dest := 0 } → w = asked v.releaseWide r → w.findQueue h.id = (.ok h, w) →
        (0 < h.free → ∀ l hint enc, w.devSpot (queueCtx h.id) (h.slot h.tail) .w = (.loc l hint enc, w) →
          StoresFrom i x s v g (putHeader h h.head ((h.tail + 1) % 2 ^ 64) (h.free - 1) (putRow s l b (Memory.byte v.mem)))) ∧
        (h.free = 0 → full = none → s.me.live ≠ 0 → ∃ t, exec i s = .next t ∧ arch t.me = arch s.me ∧ t.me.pc = s.me.pc ∧
          t.me.wait = { code := 12, cond := .queue } ∧ t.hub.queueReqs = s.hub.queueReqs ++ [r] ∧ ∀ n, n ≠ s.cur → t.grp n = v.grp n)) ∧
    (h.free = 0 → ∀ n, full = some n → Operates i x s n (coreOf s.cur) (s.core (coreOf s.cur)))

/-- A get of queue instruction i: with an entry present, the entry of HEAD is taken: its first doubleword goes to the group g, a 64-byte entry
to the scratchpad or memory at va, and the header counts it; else it waits, or takes the status `empty` (R74, R434 to R437). -/
def Gets (i : Instr) (x : Pre) (s : State) (v va : Dword) (g : Dword → Group) (empty : Option Group) : Prop :=
  ∀ u h ls, u = atBody x s → QueueOpen u v va h false ls →
    (∀ r w, r = { queue := h.id, gid := s.cur, put := false, entry := [], dest := va } → w = asked u r → w.findQueue h.id = (.ok h, w) →
      (h.filled ≠ 0 → ∀ l hint enc dest, w.getDest h r = (.inl dest, w) →
        w.devSpot (queueCtx h.id) (h.slot h.head) .r = (.loc l hint enc, w) →
        let b := rowAt s l (h.size / 8)
        let f := putHeader h ((h.head + 1) % 2 ^ 64) h.tail (h.free + 1) (Memory.byte s.mem)
        Stores i x s (g (BitVec.ofNat 64 (fieldAt b 0 8))) (match dest with
          | none => f
          | some (n, _) => if isSpad n then putRow s n b f else f)) ∧
      (h.filled = 0 → empty = none → s.me.live ≠ 0 → ∃ t, exec i s = .next t ∧ arch t.me = arch s.me ∧ t.me.pc = s.me.pc ∧
        t.me.wait = { code := 12, cond := .queue } ∧ t.hub.queueReqs = s.hub.queueReqs ++ [r] ∧ ∀ n, n ≠ s.cur → t.grp n = s.grp n)) ∧
    (h.filled = 0 → ∀ n, empty = some n → Operates i x s n (coreOf s.cur) (s.core (coreOf s.cur)))

/-- QPUT, QGET, QTRYPUT and QTRYGET move an entry between the group and the queue, waiting or with a status; a group that its queue's home has
served meanwhile completes with what it was given, or raises EXHAUST; QFREE reads the free slots (R74, R434 to R437). -/
def Obligations.Queues : Prop := ∀ (x : Pre) (d a b : Reg) (s : State), Plain s →
  let fd : List Fld := [⟨.d, .s, .wr, d⟩, ⟨.a, .s, .rd, a⟩, ⟨.b, .s, .rd, b⟩]
  let ft : List Fld := [⟨.d, .t, .wr, d⟩, ⟨.a, .s, .rd, a⟩, ⟨.b, .s, .rd, b⟩]
  let served := fun (i : Instr) (g : Dword → Group) (get : Bool) => s.myReq = none →
    (∀ p, s.me.wait.cond = .handed p 0 → if get then Stores i x s (g p) (Memory.byte s.mem) else Becomes i x s (g p)) ∧
    (∀ p q, Ready s → s.me.wait.cond = .handed p q → q ≠ 0 → TakesTrap i x.px.rep.isSome (repNow x s) s 0x0A p s.me)
  (∀ o, o = opStop (wordR x 0x36 0 0 a b) [⟨.a, .s, .rd, a⟩, ⟨.b, .s, .rd, b⟩] (some 3) → Issues x o s →
    let r := fieldsNow x o s
    Puts (.qput x a b) x s (s.readS r.a) (s.srcS x r.b) s.me none ∧ served (.qput x a b) (fun _ => s.me) false) ∧
  (∀ o, o = opStop (wordR x 0x36 1 d a b) fd (some 3) → Issues x o s →
    let r := fieldsNow x o s
    let g := fun v => s.me.setSabs (s.me.sb + r.d.toNat) v
    Gets (.qget x d a b) x s (s.readS r.a) (s.srcS x r.b) g none ∧ served (.qget x d a b) g true) ∧
  (∀ o h, o = opStop (wordR x 0x36 2 d a 0) [⟨.d, .s, .wr, d⟩, ⟨.a, .s, .rd, a⟩] (some 3) → Issues x o s →
    queueHeader (s.readS (fieldsNow x o s).a) 0 (atBody x s) = .inr (h, atBody x s) → (∀ r ∈ s.hub.queueReqs, r.queue ≠ h.id) →
    Operates (.qfree x d a) x s (s.me.setSabs (s.me.sb + (fieldsNow x o s).d.toNat) (BitVec.ofNat 64 h.free)) (coreOf s.cur)
      (s.core (coreOf s.cur))) ∧
  (∀ o, o = opStop (wordR x 0x36 3 d a b) fd (some 3) → Issues x o s →
    let r := fieldsNow x o s
    let g := fun v => s.me.setSabs (s.me.sb + r.d.toNat) v
    Puts (.qtryput x d a b) x s (s.readS r.a) (s.srcS x r.b) (g 0) (some (g 1)) ∧ served (.qtryput x d a b) (fun _ => g 0) false) ∧
  (∀ o, o = opStop (wordR x 0x36 4 d a b) ft (some 3) → Issues x o s →
    let r := fieldsNow x o s
    Gets (.qtryget x d a b) x s (s.readS r.a) (s.srcS x r.b) (fun v => withTwo s.me r.d v 0) (some (withTwo s.me r.d 0 1)) ∧
    served (.qtryget x d a b) (fun v => withTwo s.me r.d v 0) true) ∧
  (∀ o i v, (o = opStop (wordR x 0x36 0 0 a b) [⟨.a, .s, .rd, a⟩, ⟨.b, .s, .rd, b⟩] (some 3) ∧ i = .qput x a b ∨
      o = opStop (wordR x 0x36 1 d a b) fd (some 3) ∧ i = .qget x d a b) → Issues x o s → v = (s.readS (fieldsNow x o s).a).toNat →
    Ready s → Fresh s → s.myReq = none → 2 ^ 32 ≤ v ∨ v / 2 ^ 26 % 64 ≠ s.me.ctx → TakesTrap i x.px.rep.isSome (repNow x s) s 0x11 12 s.me)

/-- What a group reads leaves its own state and every context as they are. -/
structure SameFor (u w : State) : Prop where
  cur : w.cur = u.cur
  me : w.me = u.me
  ctxs : w.ctxs = u.ctxs
  tenants : w.tenants = u.tenants
  calm : w.hub.doomed = u.hub.doomed

/-- The bound register of the current context that register n of an instruction names becomes y, at its home and on the group's core, as an
acq_rel at PKG scope; nothing else that it says changes from w, which the instruction's own reads have made of s (R302, R465). -/
def Binds (i : Instr) (x : Pre) (s w : State) (n : Nat) (y : Bound) : Prop :=
  let c := s.me.ctx
  let core := coreOf s.cur
  let all := vset (s.ctx c).bounds n y
  ∃ t, exec i s = .next t ∧ arch t.me = arch s.me ∧ Advances x (nextPc x s) s t ∧ (∀ h, h ≠ s.cur → t.grp h = w.grp h) ∧
    (∀ z, Memory.byte t.mem z = Memory.byte w.mem z) ∧ t.ctx c = { s.ctx c with bounds := all } ∧ (∀ e, e ≠ c → t.ctx e = s.ctx e) ∧
    uncounted (t.core core) = uncounted { w.core core with bounds := SMap.put (w.core core).bounds c all noBounds }

/-- TBSET reads a 32-byte descriptor and sets a bound register, unused when its V is 0; a bad one is BOUND 9's descriptor trap; TBCLR clears
one. RMARK writes nothing outside a session. DMBOX sends its 64 bytes to the debug ring (KIND 1) or to a core's debug unit (KIND 2); another
KIND is QUEUE 9 (R302, R303, R388, R389, R443, R464, R465, R540). -/
def Obligations.BoundsAndMessages : Prop := ∀ (x : Pre) (d a b : Reg) (s : State), Plain s →
  (∀ o va, o = opStop (wordR x 0x37 0 d a 0) [⟨.d, .bd, .wr, d⟩, ⟨.a, .s, .rd, a⟩] (some 1) → Issues x o s → va = s.readS (fieldsNow x o s).a →
    (Ready s → va.toNat % 32 ≠ 0 → TakesTrap (.tbset x d a) x.px.rep.isSome (repNow x s) s 4 va s.me) ∧
    (va.toNat % 32 = 0 → s.me.flights = [] → ∀ rec w, readDws (atBody x s) va 4 = .inr (rec, w) → SameFor (atBody x s) w →
      (Ready s → fieldAt rec 0x1B 1 ≠ 0 → boundRefused rec = true →
        TakesTrapFrom (.tbset x d a) x.px.rep.isSome (repNow x s) s w 9 va s.me) ∧
      ((s.ctx s.me.ctx).used = true → Canonical w → Clean w →
        (fieldAt rec 0x1B 1 = 0 → Binds (.tbset x d a) x s w (fieldsNow x o s).d.toNat Bound.clear) ∧
        (fieldAt rec 0x1B 1 ≠ 0 → boundRefused rec = false → Binds (.tbset x d a) x s w (fieldsNow x o s).d.toNat (boundOf rec))))) ∧
  (∀ o, o = opStop (wordR x 0x37 1 d 0 0) [⟨.d, .bd, .wr, d⟩] (some 1) → Issues x o s → s.me.flights = [] → (s.ctx s.me.ctx).used = true →
    Canonical s → Clean s → Binds (.tbclr x d) x s s (fieldsNow x o s).d.toNat Bound.clear) ∧
  (Issues x (opStop (wordR x 0x38 1 0 0 b) [⟨.b, .s, .rd, b⟩] none) s → Becomes (.rmark x b) x s s.me) ∧
  (∀ o va, o = opStop (wordR x 0x38 2 0 a 0) [⟨.a, .s, .rd, a⟩] none → Issues x o s → va = s.readS (fieldsNow x o s).a →
    (Ready s → va.toNat % 64 ≠ 0 → TakesTrap (.dmbox x a) x.px.rep.isSome (repNow x s) s 4 va s.me) ∧
    (va.toNat % 64 = 0 → s.me.flights = [] → ∀ rec w, readDws (atBody x s) va 8 = .inr (rec, w) → SameFor (atBody x s) w →
      let m : Vector Dword 8 := Vector.ofFn fun i => BitVec.ofNat 64 (fieldAt rec (8 * i.val) 8)
      let kind := dbits (vat m 0 0) 7 0
      let core := dbits (vat m 0 0) 25 16
      let tn := (s.ctx s.me.ctx).tenant
      let ring := (s.tenant tn).debugRing
      (Ready s → kind ≠ 1 → kind ≠ 2 ∨ 768 ≤ core → TakesTrapFrom (.dmbox x a) x.px.rep.isSome (repNow x s) s w 0x11 9 s.me) ∧
      (Ready s → kind = 1 ∨ kind = 2 ∧ core < 768 → (s.ctx s.me.ctx).encl = true → (s.ctx s.me.ctx).policy.getLsbD 2 = false →
        TakesTrapFrom (.dmbox x a) x.px.rep.isSome (repNow x s) s w 0x11 10 s.me) ∧
      ((s.ctx s.me.ctx).encl = false →
        (kind = 2 → core < 768 → OperatesFrom (.dmbox x a) x s w s.me core { w.core core with dbg := (w.core core).dbg ++
          [{ msg := m, host := false, tenant := tn, ctx := s.me.ctx, waiting := [], begun := false }] }) ∧
        (kind = 1 → ring.sen.getLsbD 0 = false → OperatesFrom (.dmbox x a) x s w s.me (coreOf s.cur) (w.core (coreOf s.cur))) ∧
        (kind = 1 → w.mem.wf = true → ring.sen.getLsbD 0 = true → ring.lost = 0 → ring.swr.toNat + 64 - ring.srd.toNat ≤ ring.size →
          StoresFrom (.dmbox x a) x s w s.me (putBytes (hostLoc (ring.sbase.toNat / 4096 * 4096 + ring.swr.toNat % ring.size))
            (msgBytes (vset m 0 (withBits (withBits (vat m 0 0) 25 16 (coreOf s.cur)) 31 26 s.me.ctx)).toList) (Memory.byte w.mem))) ∧
        (kind = 1 → ring.sen.getLsbD 0 = true → ring.lost = 0 → ring.size < ring.swr.toNat + 64 - ring.srd.toNat →
          ParksFrom (.dmbox x a) s w { code := 31, cond := .debugRing }))))

/-! ### Events of groups, cores and launches -/

/-- The event i completes: t holds g at group `n`, and every other group and every byte of memory of s. -/
def GroupBecomes (i : Instr) (s : State) (n : Nat) (g : Group) : Prop :=
  ∃ t, exec i s = .next t ∧ (∀ h, t.grp h = if h = n then g else s.grp h) ∧ ∀ z, Memory.byte t.mem z = Memory.byte s.mem z

/-- A crew's last group ends: the crew's tiles are free and the release of its level is outstanding (R27, R33, R398). -/
def CrewRetires (s : State) (g : Nat) (y : Crew) (l : Nat) (x : Launch) : Prop :=
  ∃ t, exec (.groupEnd g) s = .next t ∧ (∀ h, t.grp h = if h = g then Group.idle else s.grp h) ∧
    (∀ i, i < y.tiles → (t.tile y.core (y.tile + i)).held = false) ∧ t.launch? l = some { x with releases := x.releases ++ [(1, y.scrw)] }

/-- The group whose bundle has a run-ahead stands at its checkpoint again (R206). -/
def restored (s : State) (g : Nat) : State :=
  { s.setGrp g { SMap.look s.checkpoints g Group.idle with runAhead := none } with checkpoints := SMap.del s.checkpoints g }

/-- The release of unit u of level lv has performed (R33): the count of its parent unit goes up, and a whole parent owes its own release. -/
def released (x : Launch) (lv u : Nat) : Launch :=
  let p := u / x.extent (lv + 1)
  let n := SMap.look x.ended ((lv + 1) * 2 ^ 40 + p) 0 + 1
  { x with
    retired := if lv = 1 then x.retired + 1 else x.retired
    ended := SMap.put x.ended ((lv + 1) * 2 ^ 40 + p) n 0
    releases := (x.releases.filter (· != (lv, u))) ++ if n < x.extent (lv + 1) then [] else [(lv + 1, p)] }

/-- One access of the awaited load of group g lands at the checkpoint while others are outstanding: the run-ahead goes on (R206). -/
def landsBehind (s : State) (g : Nat) (f : Flight) : State :=
  let p := (restored s g).perform g f
  (({ p with checkpoints := SMap.put p.checkpoints g (p.grp g) Group.idle }).setGrp g { s.grp g with flights := (p.grp g).flights }).reap

/-- RUNAHEAD_END restores the checkpoint once nothing of the awaited load is outstanding; its last access lands there as without run-ahead, and one
before it leaves the run-ahead standing. FETCH_RETURN brings the missing sector and ends the wait. GROUP_END frees the slot of a group without live
lanes. RETIREMENT_RELEASE_DONE counts a unit at its parent, and at the top level the vector is raised and the completion word is written.
CHUNK_COUNT_LIMIT ends a full chunk with code 0. TURN_END gives the turn to the next residency slot with a ready group, and forfeits it where none
has one. SPAWN_BIN_TIMER closes a bin whose timer has run out. PROGRESS_EVICTION takes the unit's crew from its core (R27, R33, R37, R49, R68, R76,
R77, R80, R206, R285, R317, R323, R398). -/
def Obligations.GroupEvents : Prop := ∀ s : State, s.hub.doomed = [] →
  (∀ g r, g < 18432 → (s.grp g).runAhead = some r →
    ((∀ f ∈ (s.grp g).flights, f.seq ≠ r.awaited) → exec (.runaheadEnd g) s = .next (restored s g)) ∧
    (∀ f, (s.grp g).flights.find? (fun f => f.seq == r.awaited && s.mayPerform g f) = some f →
      let more := (((restored s g).perform g f).grp g).flights.any fun e => e.seq == r.awaited
      (more = true → exec (.runaheadEnd g) s = .next (landsBehind s g f)) ∧
      (more = false → (restored s g).mayPerform g f = true →
        ((restored s g).grp g).flights.find? (fun e => e.id == f.id && e.markerResult) = some f →
        exec (.runaheadEnd g) s = exec (.variableResultLands g f.id) (restored s g)))) ∧
  (∀ g l hint enc, g < 18432 → (s.grp g).wait.cond = .fetch → (s.grp g).runAhead = none → s.session? (s.grp g).ctx = none → Sound s →
    HasWay s (cluOf (coreOf g)) l → ∀ u, u = s.onGrp g (fun x => { x with wait := Wait.none }) →
    u.spot g (s.grp g).pc .x false = (.loc l hint enc, u) → s.sector (cluOf (coreOf g)) l = Sector.empty →
    ∃ t, exec (.fetchReturn g) s = .next t ∧ t.groups = u.groups ∧ t.mem = s.mem ∧
      (t.sector (cluOf (coreOf g)) l).valid = BitVec.ofNat 64 (2 ^ 64 - 1) ∧
      ∀ z < 64, (t.sector (cluOf (coreOf g)) l).byte z = Memory.byte s.mem (l / 64 * 64 + z)) ∧
  (∀ g y, g < 18432 → Canonical s → (s.grp g).used = true → (s.grp g).live = 0 → (s.grp g).runAhead = none → (s.grp g).flights = [] →
    (s.grp g).binding = none → (s.grp g).batches = [] → s.session? (s.grp g).ctx = none → s.crew? (s.grp g).crew = some y →
    ((∃ h ∈ y.gids, h ≠ g) → GroupBecomes (.groupEnd g) s g Group.idle ∧
      ∃ t, exec (.groupEnd g) s = .next t ∧ t.crew? (s.grp g).crew = some { y with gids := y.gids.filter (· != g) }) ∧
    (∀ l x, y.gids = [g] → y.away = 0 → s.tilesBusy y.core y.tile y.tiles = false → (s.core y.core).maps = [] → y.launch = some l →
      s.launch? l = some x → 1 < x.levels.length → (x.levels.getD 1 { extent := 1, domain := 1, scope := 1, nofence := false }).nofence = false →
      CrewRetires s g y l x)) ∧
  (∀ l lv u x, s.mem.wf = true → s.launch? l = some x → (lv, u) ∈ x.releases → x.stage ≠ 4 → (∀ k, (s.cluster k).l2 = []) → s.unitBusy l lv u = false →
    (lv + 1 < x.levels.length → (x.levels.getD (lv + 1) { extent := 1, domain := 0, scope := 0, nofence := false }).nofence = false →
      exec (.retirementReleaseDone l lv u) s = .next (s.setLaunch l (released x lv u))) ∧
    (x.levels.length = lv + 1 → x.held = 0 → x.status = 0 → x.reason = 0 →
      let y := { x with
        releases := x.releases.filter (· != (lv, u)), retired := if lv = 1 then x.retired + 1 else x.retired, stage := 5, status := 1 }
      (x.outq ≠ 0xFFFFFFFF → x.donep = 0 → 
        exec (.retirementReleaseDone l lv u) s = .next (((s.setLaunch l { y with stage := 4 }).notify y).setLaunch l y)) ∧
      (∀ a hint enc, x.outq ≠ 0xFFFFFFFF → x.donep ≠ 0 → Sound s → s.session? x.ctx = none → isSpad a = false →
        (∀ v, v = (s.setLaunch l { y with stage := 4 }).notify y → v.devSpot x.ctx x.donep .w = (.loc a hint enc, v)) →
        ∃ t, exec (.retirementReleaseDone l lv u) s = .next t ∧ t.groups = s.groups ∧ t.launch? l = some y ∧
          ∀ z, Memory.byte t.mem z = putBytes a (leBytes 8 (1 + y.retired % 2 ^ 32 * 2 ^ 32)) (Memory.byte s.mem) z))) ∧
  (∀ g, g < 18432 →
    ((s.grp g).chunk.count < 16384 → exec (.chunkCountLimit g) s = .next s) ∧
    (∀ tn k clu, s.session? (s.grp g).ctx = some (tn, k) → (s.sess tn k).replay = false → (s.sess tn k).closing = false →
      (s.grp g).chunk.live = true → (s.grp g).chunk.count = 16384 → clu = cluOf (coreOf g) → clu < 12 →
      ∃ t rec, exec (.chunkCountLimit g) s = .next t ∧ t.groups = (s.setGrp g { s.grp g with chunk := { Chunk.new with ended := true } }).groups ∧ t.mem = s.mem ∧
        vat (t.sess tn k).order clu 0 = vat (s.sess tn k).order clu 0 + 1 ∧
        vat (t.sess tn k).bufs clu [] = vat (s.sess tn k).bufs clu [] ++ [rec] ∧ (recKind rec = 1 ∨ recKind rec = 2) ∧
        recField rec 27 4 = 0 ∧ recField rec 31 14 = 16383)) ∧
  (∀ core k, core < 768 → k = s.core core → k.issuedNow 0 = false → k.issuedNow 1 = false → k.turnLeft = 0 ∨ (∀ c, k.turnCtx = some c → s.readyIn core c = false) →
    (∀ n c, 1 ≤ n → n ≤ 4 → vat k.resident ((k.turn + n) % 4) none = some c → s.readyIn core c = true →
      (∀ m e, 1 ≤ m → m < n → vat k.resident ((k.turn + m) % 4) none = some e → s.readyIn core e = false) →
      exec (.turnEnd core) s = .next (s.setCore core { k with turn := (k.turn + n) % 4, turnLeft := 256 * s.weightOn core c })) ∧
    ((∀ i c, i < 4 → vat k.resident i none = some c → s.readyIn core c = false) →
      exec (.turnEnd core) s = .next (s.setCore core { k with turnLeft := 0 }))) ∧
  (∀ core bin k b timer, core < 768 → bin < 16 → k = s.core core → k.bins.find? (fun b => b.index == bin && b.closing == 0) = some b →
    timer = dbits ((k.cfgOf b.ctx b.entry).getD 0) 23 0 →
    (timer = 0 ∨ k.cycles - b.start < timer → exec (.spawnBinTimer core bin) s = .next s) ∧
    (timer ≠ 0 → timer ≤ k.cycles - b.start → s.session? b.ctx = none → k.buffer.length < 4 → k.bins.Nodup →
      (∀ p ∈ k.bins, p.closing = 0) → (∀ p ∈ k.bins, p.index = bin → p = b) →
      exec (.spawnBinTimer core bin) s =
        .next (s.setCore core { k with bins := k.bins.filter fun p => p.index != bin, buffer := k.buffer ++ [closedBin k b 1] }))) ∧
  (∀ core, core < 768 →
    (s.evictee core = none → exec (.progressEviction core) s = .next s) ∧
    (∀ w x l y slot pages, Canonical s → Clean s → Sound s → s.evictee core = some (w, x) → s.crew? w = some x → x.launch = some l →
      s.launch? l = some y → s.unitOf w x = [(w, x)] → s.session? x.ctx = none → (s.core core).maps = [] →
      (∀ g ∈ x.gids, g < 18432 ∧ (s.grp g).used = true ∧ (s.grp g).flights = [] ∧ (s.grp g).runAhead = none ∧
        (s.grp g).chunk.count = 0) → s.cmdsHold x.gids = false →
      (s.evictSlots x.ctx).head? = some slot →
      (∀ v, v = x.gids.foldl (fun st g => st.onGrp g fun z => { z with leaving := true }) s →
        v.savePages x.ctx slot .w 16 = (.inr pages, v)) →
      ∃ t, exec (.progressEviction core) s = .next t ∧ (∀ g ∈ x.gids, t.grp g = Group.idle) ∧
        (∀ g, g < 2 ^ 15 → g ∉ x.gids → t.grp g = s.grp g) ∧
        t.launch? l = some { y with evicted := y.evicted ++ [x.unit], stage := 2 } ∧
        (∃ z, t.crew? w = some z ∧ z.away = 2 ∧ z.slot = slot ∧ z.gids.length = x.gids.length ∧ ∀ g ∈ z.gids, 2 ^ 15 ≤ g) ∧
        ∀ i, i < x.tiles → (t.tile core (x.tile + i)).held = false))

/-! ### Submission, launches, placement and deques -/

/-- No cluster holds a sector and no sector has an error or poison. -/
structure Calm (s : State) : Prop where
  l2 : ∀ k, (s.cluster k).l2 = []
  sound : Sound s

/-- The event i completes: groups, cores and clusters stay, memory is `bytes` afterwards, and the launch table is `ls`. -/
def LaunchesBecome (i : Instr) (s : State) (ls : SMap Launch) (bytes : Nat → Byte) : Prop :=
  ∃ t, exec i s = .next t ∧ t.groups = s.groups ∧ t.cores = s.cores ∧ t.clusters = s.clusters ∧ t.hub.launches = ls ∧
    ∀ z, Memory.byte t.mem z = bytes z

/-- A queue that a unit of the device finds with no request waiting. -/
structure QueueHere (s : State) (id : Nat) (h : QHdr) : Prop where
  found : s.findQueue id = (.ok h, s)
  place : isSpad h.loc = false ∧ isSpad (h.loc + 0x10) = false
  alone : ∀ r ∈ s.hub.queueReqs, r.queue ≠ id

/-- A submission queue with ERR set and a CODE; codes 1 and 3 clear EN (R52, R54). -/
def queueErr (x : SubQueue) (code : Nat) : SubQueue :=
  { x with
    qhead := withBits (withBits x.qhead 31 24 code) 15 15 1, qctl := if code = 1 ∨ code = 3 then withBits x.qctl 0 0 0 else x.qctl }

/-- The event i ends with an error of a submission queue, whose registers become y, and with its vector raised when enabled (R52, R54). -/
def QueueErrs (i : Instr) (s : State) (tn q : Nat) (y : SubQueue) : Prop :=
  ∃ t, exec i s = .next t ∧ t.subq tn q = y ∧ t.groups = s.groups ∧ t.mem = s.mem ∧
    t.hub.irqs = s.hub.irqs ++ if (s.subq tn q).qctl.getLsbD 1 then [(tn, dbits (s.subq tn q).qctl 18 8)] else []

/-- One request served at the deque of a core: the deque becomes l, the request goes, and its group is handed a and b (R72, R73, R391). -/
def DequeServes (s : State) (core : Nat) (r : DqReq) (l : List Dword) (a b : Dword) : Prop :=
  ∃ t, exec (.dequeService core) s = .next t ∧ t.core core = { s.core core with deque := l, dqReqs := [] } ∧
    (∀ c, c ≠ core → t.core c = s.core c) ∧ t.mem = s.mem ∧
    ∀ h, t.grp h = if h = r.gid then { s.grp h with wait := { code := 13, cond := .handed a b } } else s.grp h

/-- The slot that group i of a crew takes on an empty core: the two schedulers in turn (R60). -/
def slotFor (core i : Nat) : Nat := 24 * core + 12 * (i % 2) + i / 2

/-- What the pass of R61 does with a launch of one crew, on a device without groups: the crew goes to the lowest core of its range, each
group to its slot with its start registers (R40, R60, R62, R81, R279). -/
def FirstPlacement (s : State) (l : Nat) (x : Launch) : Prop :=
  ∃ t w, exec .placementPass s = .next t ∧ t.launch? l = some { x with next := 1, stage := 3, fresh := false } ∧
    (∃ y, t.crew? w = some y ∧ y.ctx = x.ctx ∧ y.launch = some l ∧ y.core = x.cfirst ∧ y.tile = 0 ∧ y.tiles = x.spad / 4096 ∧ y.away = 0 ∧
      y.gids = (List.range x.groups).map (slotFor x.cfirst)) ∧
    (∀ i, i < x.spad / 4096 → t.tile x.cfirst i = { held := true, crew := w, ctx := x.ctx, owner := 0 }) ∧
    (∀ i, i < x.groups →
      let g := t.grp (slotFor x.cfirst i)
      g.used = true ∧ g.ctx = x.ctx ∧ g.crew = w ∧ g.index = i ∧ g.pc = x.entry ∧ g.arg = x.argp ∧ g.scrw = 0 ∧ g.sx.toList.headD 0 = BitVec.ofNat 64 i ∧
      g.live = BitVec.ofNat 32 (2 ^ x.extent 0 - 1) ∧ g.em = g.live ∧ g.av = x.vregs ∧ g.as = x.sregs ∧ g.ordinal = i ∧
      g.spad = BitVec.ofNat 64 (x.cfirst % 64 * 2 ^ 19) ∧ g.wait = Wait.none ∧ g.links = [] ∧ g.fflags = 0) ∧
    ∀ g, (∀ i, i < x.groups → g ≠ slotFor x.cfirst i) → t.grp g = Group.idle

/-- QTAIL, QBASE and QCTL writes; the fetch of a queue's entry admits its launch, holds back an AFTER entry until the launch before it has
completed, and skips a bad one; INQ, bound array and OUTQ of a launch; the first placement of a crew; the deque's service (R36, R39, R51 to R56, R60
to R62, R72, R73, R302). -/
def Obligations.LaunchEvents : Prop := ∀ s : State, s.hub.doomed = [] →
  (∀ tn q v x, tn < 16 → q < 8 → x = s.subq tn q →
    (dbits v 14 0 < 2 ^ (dbits x.qbase 3 0 + 4) →
      exec (.qtailDoorbell tn q v) s = .next (s.setSubq tn q { x with qtail := BitVec.ofNat 64 (dbits v 14 0) })) ∧
    (2 ^ (dbits x.qbase 3 0 + 4) ≤ dbits v 14 0 → QueueErrs (.qtailDoorbell tn q v) s tn q (queueErr x 1)) ∧
    (x.qctl.getLsbD 0 = false → exec (.qbaseWrite tn q v) s = .next (s.setSubq tn q { x with qbase := withBits v 11 4 0 })) ∧
    (x.qctl.getLsbD 0 = true → QueueErrs (.qbaseWrite tn q v) s tn q (queueErr x 2)) ∧
    (v.getLsbD 0 = false ∨ x.qctl.getLsbD 0 = true ∨ dbits x.qbase 3 0 < 12 →
      exec (.qctlWrite tn q v) s = .next (s.setSubq tn q { x with
        qctl := withBits (withBits v 63 19 0) 7 2 0, last := if v.getLsbD 0 && !x.qctl.getLsbD 0 then none else x.last }))) ∧
  (256 ≤ s.admitted → ∀ fail, exec (.submissionEntryFetch fail) s = .next s) ∧
  (∀ tn q rest x b c flags va, s.admitted < 256 → s.fetchOrder = (tn, q) :: rest → x = s.subq tn q →
    b = Memory.bytes s.mem (hostLoc (x.qbase.toNat / 4096 * 4096 + 16 * dbits x.qhead 14 0)) 16 →
    c = fieldAt b 8 2 → flags = fieldAt b 0x0A 2 → va = BitVec.ofNat 64 (fieldAt b 0 8) →
    let bad := 64 ≤ c ∨ (s.ctx c).used = false ∨ (s.ctx c).tenant ≠ tn ∨ 4 ≤ flags ∨ fieldAt b 0x0C 4 ≠ 0
    QueueErrs (.submissionEntryFetch true) s tn q (queueErr (x.pass none) 3) ∧
    let inRange := dbits x.qbase 3 0 < 12 ∧ dbits x.qtail 14 0 < 2 ^ (dbits x.qbase 3 0 + 4)
    (¬ inRange → QueueErrs (.submissionEntryFetch false) s tn q (queueErr x 1)) ∧
    (inRange → bad → QueueErrs (.submissionEntryFetch false) s tn q (queueErr (x.pass none) 4)) ∧
    (inRange → ¬ bad →
      (∀ l y, rest = [] → flags % 2 = 1 → x.last = some l → s.launch? l = some y → y.finished = false →
        exec (.submissionEntryFetch false) s = .next s) ∧
      (flags % 2 = 0 ∨ (∀ l y, x.last = some l → s.launch? l = some y → y.finished = true) →
        (va.toNat % 256 ≠ 0 → QueueErrs (.submissionEntryFetch false) s tn q (queueErr (x.pass none) 5)) ∧
        (∀ l hint enc rec, va.toNat % 256 = 0 → s.devSpot c va .r = (.loc l hint enc, s) → s.unitRead c l va 32 = (some rec, s) →
          s.recReason c rec = 0 → fieldAt rec 0xC0 4 = 0xFFFFFFFF → fieldAt rec 0xC4 4 = 0xFFFFFFFF → s.session? c = none →
          let y := recLaunch rec c (some (tn, q)) (bitN flags 1) va
          ∃ t, exec (.submissionEntryFetch false) s = .next t ∧ t.groups = s.groups ∧ t.mem = s.mem ∧
            t.subq tn q = x.pass (some s.hub.nextLaunch) ∧ t.hub.nextLaunch = s.hub.nextLaunch + 1 ∧
            t.launch? s.hub.nextLaunch =
              some { y with stage := if y.boundp ≠ 0 then 1 else 2, logNo := s.hub.nextLaunch % 65536 })))) ∧
  (∀ l x, s.mem.wf = true → s.launch? l = some x → x.held = 0 → Calm s → s.session? x.ctx = none →
    (∀ h, x.stage = 0 → QueueHere s x.inq.toNat h →
      (h.filled = 0 → exec (.inqTake l) s = .next s) ∧
      (h.filled ≠ 0 → LaunchesBecome (.inqTake l) s (SMap.ins s.hub.launches l { x with stage := if x.boundp ≠ 0 then 1 else 2 })
        (putHeader h ((h.head + 1) % 2 ^ 64) h.tail (h.free + 1) (Memory.byte s.mem)))) ∧
    (∀ bs, x.stage = 1 → (s.ctx x.ctx).used = true → s.boundArray x.ctx x.boundp 16 = (.inr bs, s) →
      ∃ t, exec (.boundArrayLoad l) s = .next t ∧ t.groups = s.groups ∧ t.launch? l = some { x with stage := 2 } ∧
        (t.ctx x.ctx).bounds.toList = (List.range 16).map (fun i =>
          let b := bs.getD i []
          if fieldAt b 0x1B 1 = 0 ∨ boundRefused b = true then Bound.clear else boundOf b)) ∧
    (∀ h, x.stage = 5 → QueueHere s x.outq.toNat h →
      (h.free = 0 → exec (.outqPut l) s = .next s) ∧
      (∀ a hint enc, h.free ≠ 0 → s.devSpot x.ctx (h.slot h.tail) .w = (.loc a hint enc, s) → isSpad (a + 4096) = false →
        LaunchesBecome (.outqPut l) s (SMap.del s.hub.launches l) (putHeader h h.head ((h.tail + 1) % 2 ^ 64) (h.free - 1)
          (putRow s a (leBytes 8 x.word.toNat ++ if h.e64 then List.replicate 56 0 else []) (Memory.byte s.mem)))))) ∧
  (∀ l x, s.groups = [] → s.cores = [] → s.hub.crews = [] → s.hub.launches = [(l, x)] → x.stage = 2 → x.levels.length = 2 →
    (x.levels.map (·.domain)) = [0, 1] → 1 ≤ x.groups → x.groups ≤ 24 → 0 < x.vregs → x.groups * x.vregs ≤ 2048 → x.groups * x.sregs ≤ 1024 →
    x.extent 0 ≤ 32 → x.spad / 4096 ≤ usable x.cls / 4096 → x.next = 0 → x.evicted = [] → x.dies = [] → x.stuck = 0 → x.reserved = 0 → x.fresh = true →
    1 ≤ x.ccount → x.cfirst + x.ccount ≤ 768 → s.session? x.ctx = none → (s.ctx x.ctx).dequeBack = [] → (s.ctx x.ctx).barsAway = [] →
    (s.ctx x.ctx).mapsBack = [] → FirstPlacement s l x) ∧
  (∀ core k r, core < 768 → k = s.core core → k.dqReqs = [r] → Canonical s → s.session? (s.grp r.gid).ctx = none →
    (r.op = 0 → DequeServes s core r (if k.deque.length < 1024 then k.deque ++ [r.val] else k.deque) (if k.deque.length < 1024 then 0 else 1) 0) ∧
    (r.op = 1 → DequeServes s core r k.deque.dropLast (k.deque.getLast?.getD 0) (if k.deque = [] then 1 else 0)) ∧
    (r.op = 2 → k.dqHolder = some (s.grp r.gid).ctx → DequeServes s core r (k.deque.drop 1) (k.deque.head?.getD 0) (if k.deque = [] then 1 else 0)) ∧
    (r.op = 2 → k.dqHolder ≠ some (s.grp r.gid).ctx → DequeServes s core r k.deque 0 1)) ∧
  ∀ core k p r v, core < 768 → k = s.core core → k.dqReqs = [p, r] → p.op = 1 → r.op = 2 → p.gid ≠ r.gid → k.deque = [v] → Canonical s →
    s.session? (s.grp p.gid).ctx = none → s.session? (s.grp r.gid).ctx = none → k.dqHolder = some (s.grp r.gid).ctx →
    ∃ t, exec (.dequeService core) s = .next t ∧ (t.core core).deque = [] ∧ (t.core core).dqReqs = [] ∧
      (t.grp p.gid).wait.cond = .handed v 0 ∧ (t.grp r.gid).wait.cond = .handed 0 1

/-! ### Engines -/

/-- Command q of a core can go on, outside sessions, over sound storage, with no bound register set, no sync word and no byte of its context
unwritten in L2 (R190, R234, R247, R302). -/
structure EngineRuns (s : State) (core : Nat) (q : Cmd) : Prop where
  mine : s.cmd? core q.id = some q
  one : ∀ p ∈ (s.core core).cmds, p.id = q.id → p = q
  runs : s.cmdRuns q = true
  alone : s.session? q.ctx = none
  sound : Sound s
  clean : Clean s
  memory : s.mem.wf = true
  calm : s.hub.doomed = []
  bounds : ∀ spad, s.boundsFor core q.ctx spad = []
  sync : shSync q.e = 0xFFFF

/-- The event i completes: command q of the core becomes p, no group changes, and memory is `bytes` afterwards. -/
def CommandBecomes (i : Instr) (s : State) (core : Nat) (q p : Cmd) (bytes : Nat → Byte) : Prop :=
  ∃ t, exec i s = .next t ∧ t.groups = s.groups ∧ t.cmd? core q.id = some p ∧ ∀ z, Memory.byte t.mem z = bytes z

/-- Sixteen bytes from each source location copied to the destination location beside it, as memory f held them before. -/
def copied (f : Nat → Byte) (ps : List (Nat × Nat)) : Nat → Byte :=
  ps.foldl (fun b p => putBytes p.2 ((List.range 16).map fun i => f (p.1 + i)) b) f

/-- The location of 32-bit element (i, n) of C, of a matrix operation on a core's pair: rows 0 to 63 on the leader, 64 to 127 on its neighbour
(R236). -/
def cellC (core : Nat) (e : Dword) (i n : Nat) : Nat :=
  spadOf (cluOf core) ((core % 64 + i / 64) * 2 ^ 19 + 4096 * dbits e 18 12 + 256 * (i % 64) + 4 * n)

/-- The elements of size z from an operand's byte a on, in the bytes f. -/
def elemsAt (f : Nat → Byte) (core a k z : Nat) : List Nat := (List.range k).map fun i => valueOf f (spadOf (cluOf core) (a + i * z)) z

/-- COPY_PIECE_LANDS copies the granules of one sector or row; GATHER_ROW_LANDS reads a row's index and lands the row it names, which is then noted
as done; MATRIX_OPERATION makes C the matrix sum of A, B and C; COLLECTIVE_COMPLETE of one rank lands its own words; ENGINE_COMMAND_COMPLETE takes
the command out of its queue and its batch (R234, R237, R238, R241, R243, R248, R253, R254, R385, R405, R421, R473). -/
def Obligations.EngineEvents : Prop := ∀ (s : State) (core : Nat) (q : Cmd),
  (EngineRuns s core q →
    (∀ k js src dst, q.op.eng = .copy → k < q.granules → k ∉ q.landed → js = s.landUnit core q k → (q.dsts k).length = 1 →
      (∀ a u, EPlace.sp a u ∈ js.flatMap q.dsts → s.writeOrder core q a = true) →
      s.engSpots core q .r q.srcCls (js.map (q.src 0)) = (.inr src, s) → s.engSpots core q .w q.dstCls (js.flatMap q.dsts) = (.inr dst, s) →
      CommandBecomes (.copyPieceLands core q.id k 1) s core q
        { q with landed := q.landed ++ js, ended := decide (q.granules ≤ q.landed.length + js.length) }
        (copied (Memory.byte s.mem) ((src.map (·.1)).zip (dst.map (·.1))))) ∧
    (∀ row l hl a ha d hd i, q.op = .gthr → shLen q.e = 16 → row ≤ shRows q.e → row ∉ q.landed → shRows q.e + 1 + row ∉ q.landed →
      q.landed.length + 1 < 2 * (shRows q.e + 1) → s.writeOrder core q (q.a.toNat + 16 * row) = true →
      s.engSpot core q (.sp (core % 64 * 2 ^ 19 + 4 * dbits q.e 17 0 + 4 * row) .src) .r none = (.loc l hl, s) →
      i = valueOf (Memory.byte s.mem) l 4 →
      s.engSpot core q (.va (q.b + BitVec.ofNat 64 (16 * i))) .r none = (.loc a ha, s) →
      s.engSpot core q (.sp (q.a.toNat + 16 * row) .dst) .w none = (.loc d hd, s) →
      CommandBecomes (.gatherRowLands core q.id row) s core q
        { q with landed := q.landed ++ [row, shRows q.e + 1 + row], ended := decide (2 * (shRows q.e + 1) ≤ q.landed.length + 2) }
        (copied (Memory.byte s.mem) [(a, d)]))) ∧
  (∀ pair f, pair < 384 → core = 2 * pair → q.op = .mma f → EngineRuns s core q →
    (s.core core).cmds.find? (fun p => decide (p.op.eng = .matrix) && !p.ended) = some q →
    (s.core core).matrixBusy = false → s.hub.matrixHold = false → q.a.toNat + 128 * MatPair.k f * MatPair.sA f ≤ 2 ^ 25 →
    q.b.toNat + 64 * MatPair.k f * MatPair.sB f ≤ 2 ^ 25 →
    (∀ c, c < 32768 → s.engSpot core q (.sp ((core % 64 + c / 16384) * 2 ^ 19 + 4096 * dbits q.e 18 12 + c % 16384) .dst) .w none =
      (.loc (spadOf (cluOf core) ((core % 64 + c / 16384) * 2 ^ 19 + 4096 * dbits q.e 18 12 + c % 16384)) 0, s)) →
    (∀ i n j, i < 128 → n < 64 → (j < 128 * MatPair.k f * MatPair.sA f →
        cellC core q.e i n + 4 ≤ spadOf (cluOf core) (q.a.toNat + j) ∨ spadOf (cluOf core) (q.a.toNat + j) < cellC core q.e i n) ∧
      (j < 64 * MatPair.k f * MatPair.sB f →
        cellC core q.e i n + 4 ≤ spadOf (cluOf core) (q.b.toNat + j) ∨ spadOf (cluOf core) (q.b.toNat + j) < cellC core q.e i n)) →
    ∃ t, exec (.matrixOperation pair) s = .next t ∧ t.groups = s.groups ∧ (t.core core).matrixBusy = true ∧
      t.cmd? core q.id = some { q with ended := true } ∧
      (∀ i n, i < 128 → n < 64 → valueOf (Memory.byte t.mem) (cellC core q.e i n) 4 =
        matSum f (elemsAt (Memory.byte s.mem) core (q.a.toNat + i * MatPair.k f * MatPair.sA f) (MatPair.k f) (MatPair.sA f))
          (elemsAt (Memory.byte s.mem) core (q.b.toNat + n * MatPair.k f * MatPair.sB f) (MatPair.k f) (MatPair.sB f))
          (valueOf (Memory.byte s.mem) (cellC core q.e i n) 4) % 2 ^ 32) ∧
      ∀ z, (∀ i n, i < 128 → n < 64 → z < cellC core q.e i n ∨ cellC core q.e i n + 4 ≤ z) → Memory.byte t.mem z = Memory.byte s.mem z) ∧
  (∀ cm, EngineRuns s core q → q.op = .coll → dbits q.e 63 60 = 1 → s.collCmds q.ctx (dbits q.e 43 32) = [(core, q)] →
    s.comm q.ctx (.engine core) (dbits q.e 43 32) = (.inr cm, s) → s.collReady core q = true → cm.ranks = [(s.hub.device.toNat, core)] → q.msg = (cm.entry.map (leBytes 4)).flatten →
    q.a.toNat % 16 = 0 → q.b.toNat % 16 = 0 →
    (∀ i, i < shLen q.e / 16 →
      s.engSpot core q (.sp (q.a.toNat + 16 * i) .dst) .w none = (.loc (spadOf (cluOf core) (q.a.toNat + 16 * i)) 0, s)) →
    CommandBecomes (.collectiveComplete q.ctx (dbits q.e 43 32) []) s core q { q with ended := true }
      (fun z =>
        let a := spadOf (cluOf core) q.a.toNat
        if a ≤ z ∧ z < a + shLen q.e then Memory.byte s.mem (spadOf (cluOf core) q.b.toNat + (z - a)) else Memory.byte s.mem z)) ∧
  ∀ b, Canonical s → s.hub.doomed = [] → s.cmd? core q.id = some q → (∀ e ∈ s.hub.crews, e.2.gids ≠ []) →
    (q.ended = false → exec (.engineCommandComplete core q.id) s = .next s) ∧
    (q.ended = true → q.gid < 2 ^ 20 → (s.grp q.gid).batches.find? (fun b => b.num == q.batch && !b.retired) = some b →
      let y := { b with left := b.left - 1, status := if b.status = 0 then q.status else if q.status = 0 then b.status else min b.status q.status }
      let last := b.closed && b.left == 1
      b.left ≠ 0 → (last = true → b.arrive = none) →
      ∃ t, exec (.engineCommandComplete core q.id) s = .next t ∧ t.mem = s.mem ∧
        (t.core core).cmds = (s.core core).cmds.filter (·.id != q.id) ∧
        ∀ g, t.grp g = if g = q.gid then { s.grp g with
          batches := (((s.grp g).batches.map fun x => if x.num = b.num && !x.retired then { y with retired := last } else x)).filter
            fun x => !(x.retired && x.status == 0) } else s.grp g)

/-! ### The fabric -/

/-- The event i completes: no group changes, memory is `bytes` afterwards, and of the hub only the credits, the answers to peers, the tokens
of home locations and L3's lines differ from s. -/
def FabricBecomes (i : Instr) (s : State) (credits : List (Nat × Nat)) (replies : List (Nat × Nat × Dword)) (bytes : Nat → Byte) : Prop :=
  ∃ t, exec i s = .next t ∧ t.groups = s.groups ∧ t.cores = s.cores ∧ t.hub.credits = credits ∧ t.hub.peerReplies = replies ∧
    { t.hub with credits := s.hub.credits, peerReplies := s.hub.peerReplies, tokens := s.hub.tokens, slices := s.hub.slices } = s.hub ∧
    ∀ z, Memory.byte t.mem z = bytes z

/-- FSEND q of a core, alone with its number. -/
structure Sends (s : State) (core : Nat) (q : Cmd) : Prop where
  mine : s.cmd? core q.id = some q
  one : ∀ p ∈ (s.core core).cmds, p.id = q.id → p = q
  send : q.op = .fsend
  runs : s.cmdRuns q = true
  away : q.toDev ≠ s.hub.device.toNat
  calm : s.hub.doomed = []

/-- The state with command q of a core replaced by p, and the messages that the ports hold by `sent`. -/
def sentAs (s : State) (core : Nat) (q p : Cmd) (sent : List (Nat × Nat × Nat × Nat × Nat)) : State :=
  { s.setCore core { s.core core with cmds := (s.core core).cmds.map fun r => if r.id = q.id then p else r } with
    hub := { s.hub with sent := sent } }

/-- An export-table entry breaks R356's table. -/
def ExportBad (w r l : Dword) (tn valid : Byte) : Prop :=
  w.toNat % 2 ^ 21 ≠ 0 ∨ r.toNat % 2 ^ 21 ≠ 0 ∨ l.toNat % 2 ^ 21 ≠ 0 ∨ l = 0 ∨ 2 ^ 39 < w.toNat + l.toNat ∨ 0xC000000000 < r.toNat + l.toNat ∨
    15 < tn.toNat ∨ 1 < valid.toNat

/-- A peer's credit request takes a free slot, is kept while there is none, or is turned away; a grant lets the port take an FSEND's row, unless it
is poisoned; a peer's message fills the slot at TAIL; an acknowledgement ends the send, a failure notice ends it with status 0x16, or 0x17 where its
queue is no endpoint; a link goes down and is reported; a peer reads and writes what the export table gives its tenant, in pages of the frame's
class; the table takes entries that keep its rules (R75, R243, R252, R260, R353, R355, R356, R403, R434, R436). -/
def Obligations.FabricEvents : Prop := ∀ s : State, s.hub.doomed = [] →
  (∀ dev tn id h, dev ≠ s.hub.device.toNat → s.mem.wf = true →
    (s.findQueue id = (.none, s) →
      exec (.fabricCreditRequest dev tn id) s = .next (s.onHub fun u => { u with peerReplies := u.peerReplies ++ [(dev, 0x16, BitVec.ofNat 64 id)] })) ∧
    (QueueHere s id h →
      (h.fabric = false ∨ h.e64 = false ∨ h.peer ≠ tn → exec (.fabricCreditRequest dev tn id) s =
        .next (s.onHub fun u => { u with peerReplies := u.peerReplies ++ [(dev, 0x17, BitVec.ofNat 64 id)] })) ∧
      (h.fabric = true → h.e64 = true → h.peer = tn → Calm s →
        ∀ w, w = (s.onHub fun u => { u with queueReqs := u.queueReqs ++ [{ queue := id, gid := 2 ^ 20 + dev, put := true, entry := [], dest := 0 }] }) →
          w.findQueue id = (.ok h, w) →
          (h.free = 0 → exec (.fabricCreditRequest dev tn id) s = .next w) ∧
          (h.free ≠ 0 → FabricBecomes (.fabricCreditRequest dev tn id) s (s.hub.credits ++ [(dev, id)]) s.hub.peerReplies
            (putHeader { h with inflight := h.inflight + 1 } h.head h.tail (h.free - 1) (Memory.byte s.mem)))))) ∧
  (∀ core q l, Sends s core q → s.hub.marks = [] → s.hub.l3marks = [] → s.session? q.ctx = none → l = spadOf (cluOf core) q.b.toNat → q.phase = 0 →
    (∀ p ∈ (s.core core).cmds, p.op = .fsend → p.ended = false → p.phase = 0 → p.toDev = q.toDev → p.toQueue = q.toQueue → q.id ≤ p.id) →
    (l / 64 ∉ s.hub.poison → exec (.fabricCreditGrant core q.id) s =
      .next (sentAs s core q { q with phase := 2, msg := Memory.bytes s.mem l 64 } (s.hub.sent ++ [(q.toDev, q.toQueue, core, q.id, q.landed.headD 0)]))) ∧
    (l / 64 ∈ s.hub.poison → q.status = 0 → exec (.fabricCreditGrant core q.id) s =
      .next ((sentAs s core q { q with status := 0x19, ended := true } s.hub.sent).onHub fun u =>
        { u with peerReplies := u.peerReplies ++ [(q.toDev, 0x19, BitVec.ofNat 64 q.toQueue)] }))) ∧
  (∀ dev tn id clu order ext payload h a hint enc, dev ≠ s.hub.device.toNat → s.mem.wf = true → Calm s → QueueHere s id h →
    s.session? (queueCtx id) = none → s.devSpot (queueCtx id) (h.slot h.tail) .w = (.loc a hint enc, s) →
    ((dev, id) ∉ s.hub.credits → exec (.fabricDelivery dev tn id clu order ext payload) s = .next s) ∧
    ((dev, id) ∈ s.hub.credits → FabricBecomes (.fabricDelivery dev tn id clu order ext payload) s (s.hub.credits.erase (dev, id))
      (s.hub.peerReplies ++ [(dev, tn, BitVec.ofNat 64 id)])
      (putHeader { h with inflight := h.inflight - 1 } h.head ((h.tail + 1) % 2 ^ 64) h.free
        (putRow s a (leBytes 64 payload.toNat) (Memory.byte s.mem))))) ∧
  (∀ core q rest, Sends s core q → rest = s.hub.sent.filter (fun m => m.2.2.1 != core || m.2.2.2.1 != q.id) →
    (q.phase = 2 → shSync q.e = 0xFFFF → exec (.fabricAcknowledgement core q.id) s = .next (sentAs s core q { q with ended := true } rest)) ∧
    (q.phase ≠ 2 → exec (.fabricAcknowledgement core q.id) s = .next s) ∧
    (q.phase = 2 ∨ q.phase = 0 → q.status = 0 →
      exec (.fabricFailureNotice core { cmd := q.id, refused := false }) s = .next (sentAs s core q { q with status := 0x16, ended := true } rest)) ∧
    (q.phase = 0 → q.status = 0 →
      exec (.fabricFailureNotice core { cmd := q.id, refused := true }) s = .next (sentAs s core q { q with status := 0x17, ended := true } rest))) ∧
  (∀ port, port < 18 →
    (port ∈ s.hub.portsDown → exec (.fabricLinkDown port) s = .next s) ∧
    (port ∉ s.hub.portsDown → exec (.fabricLinkDown port) s = .next (s.onHub fun u =>
      { u with portsDown := u.portsDown ++ [port], mcLog := u.mcLog ++ [leBytes 8 port] }))) ∧
  (∀ tn off n data k e, s.hub.exports = [(k, e)] →
    let ok := 1 ≤ n ∧ n ≤ 8 ∧ off % n = 0 ∧ e.valid = true ∧ e.tenant = tn ∧ e.wbase ≤ off ∧ off + n ≤ e.wbase + e.len
    let a := e.rbase + (off - e.wbase)
    let answers := fun (p : PeerAccess) (status : Nat) (v : Dword) => exec (.peerWindowRequest tn p off n data) s =
      .next (s.onHub fun u => { u with peerReplies := u.peerReplies ++ [(tn, status, v)] })
    (∀ p, ¬ ok → answers p 2 0) ∧
    (∀ p, ok → s.fmtAt a ≠ p.cls → answers p 3 0) ∧
    (∀ c, ok → s.fmtAt a = c → Sound s → s.session? (64 + tn) = none → isLocal a = false ∨ a % 512 < lineData c →
      (∀ i, i < n → isLocal (a + i) = isLocal a ∧ s.fmtAt (a + i) = c ∧ (a % 512 < lineData c → (a + i) % 512 < lineData c)) →
      answers { wr := false, cls := c } 1 (BitVec.ofNat 64 (valueOf (Memory.byte s.mem) a n))) ∧
    (∀ c, ok → s.fmtAt a = c → s.mem.wf = true → Calm s → isSpad a = false → (∀ c, s.session? c = none) →
      FabricBecomes (.peerWindowRequest tn { wr := true, cls := c } off n data) s s.hub.credits (s.hub.peerReplies ++ [(tn, 1, 0)])
        (putBytes a (leBytes n data.toNat) (Memory.byte s.mem)))) ∧
  ∀ k w r l tn valid, k < 256 →
    (valid = 0 → exec (.exportTableWrite k w r l tn valid) s = .next (s.onHub fun u => { u with exports := SMap.del u.exports k })) ∧
    (valid ≠ 0 → ExportBad w r l tn valid → exec (.exportTableWrite k w r l tn valid) s = .next s) ∧
    (valid ≠ 0 → (∃ e ∈ s.hub.exports, e.1 ≠ k ∧ e.2.valid = true ∧ e.2.wbase < w.toNat + l.toNat ∧ w.toNat < e.2.wbase + e.2.len) →
      exec (.exportTableWrite k w r l tn valid) s = .next s) ∧
    (valid ≠ 0 → ¬ ExportBad w r l tn valid →
      (∀ e ∈ s.hub.exports, e.1 ≠ k → e.2.valid = true → w.toNat + l.toNat ≤ e.2.wbase ∨ e.2.wbase + e.2.len ≤ w.toNat) →
      let e : Export := { wbase := w.toNat, rbase := r.toNat, len := l.toNat, tenant := tn.toNat, valid := true }
      exec (.exportTableWrite k w r l tn valid) s = .next (s.onHub fun u => { u with exports := SMap.ins u.exports k e }))

/-! ### Translation events and the fault service -/

/-- The tables of s are in canonical form, and what s holds in its caches and sectors is calm. -/
structure Plainly (s : State) : Prop where
  canon : Canonical s
  clusters : SMap.wf Cluster.empty s.clusters = true
  calm : Calm s
  doomed : s.hub.doomed = []

/-- Nothing but groups waits for fault f. -/
structure GroupsOnly (s : State) (f : Nat) (x : FaultRec) : Prop where
  launches : ∀ e ∈ s.hub.launches, e.2.held ≠ f + 1
  cmds : ∀ k ∈ s.cores, ∀ q ∈ k.2.cmds, q.held ≠ f + 1
  writes : ∀ w ∈ s.hub.heldWrites, x.holds w = false

/-- The event i ends fault f, which only groups waited for: each group of its context becomes g of it, and memory is `bytes` afterwards. -/
def FaultEnds (i : Instr) (s : State) (f c : Nat) (g : Group → Group) (bytes : Nat → Byte) : Prop :=
  ∃ t, exec i s = .next t ∧ t.hub.faults = SMap.del s.hub.faults f ∧ (∀ z, Memory.byte t.mem z = bytes z) ∧
    ∀ n, t.grp n = if (s.grp n).used = true ∧ (s.grp n).ctx = c then g (s.grp n) else s.grp n

/-- A record of fault x with entry e and cause `why`, in the next place of its tenant's ring: page, entry, context, kind, cause and TAG (R270). -/
def faultRecord (x : FaultRec) (e : Dword) (why tag : Nat) : List Byte :=
  leBytes 8 x.page.toNat ++ leBytes 8 e.toNat ++ leBytes 2 x.ctx ++ leBytes 1 x.kind ++ leBytes 1 why ++ leBytes 4 tag ++ leBytes 8 0

/-- The event i opens fault f at its tenant's fault ring, or keeps it for the ring while there is no room (R270, R352). -/
def Escalates (i : Instr) (s : State) (f : Nat) (x : FaultRec) (e : Dword) (why : Nat) : Prop :=
  let tn := (s.ctx x.ctx).tenant
  let r := (s.tenant tn).faultRing
  let room := r.rctl.getLsbD 0 = true ∧ r.rwr.toNat + 32 - r.rrd.toNat ≤ 2 ^ dbits r.rlog2 5 0
  let tag := r.seq % 2 ^ 32
  (room → ∃ t, exec i s = .next t ∧ t.groups = s.groups ∧
    t.hub.faults = SMap.ins s.hub.faults f { x with pte := e, why := why, stage := 5, tag := tag } ∧
    (t.tenant tn).faultRing = { r with rwr := r.rwr + 32, seq := r.seq + 1 } ∧ t.hub.irqs = s.hub.irqs ++ [(tn, dbits r.rctl 26 16)] ∧
    ∀ z, Memory.byte t.mem z = putBytes (hostLoc (r.rbase.toNat / 4096 * 4096 + r.rwr.toNat % 2 ^ dbits r.rlog2 5 0))
      (faultRecord x e why tag) (Memory.byte s.mem) z) ∧
  (¬ room → exec i s = .next (s.onHub fun h => { h with faults := SMap.ins h.faults f { x with pte := e, why := why, stage := 4 } }))

/-- The entry of a page in the tables of its context, with its location, whatever memory holds from byte lo to byte hi. -/
def EntryAt (s : State) (c : Nat) (page : Dword) (l : Nat) (e : Dword) (lo hi : Nat) : Prop :=
  isSpad l = false ∧ (l + 8 ≤ lo ∨ hi < l) ∧ ∀ m : Memory, (∀ z, z < lo ∨ hi < z → Memory.byte m z = Memory.byte s.mem z) →
    State.entryAt { s with mem := m } page (s.ctx c).ptroot.toNat 3 = some (l, e)

/-- A page's 64 KiB moved from slot `src` to slot `dst`, whose bytes the others' are not: every data byte is at its new place, the entry at l is
e, and no other byte changes (R227, R290). -/
def PageMoved (s t : State) (src dst l : Nat) (e : Dword) : Prop :=
  let lo := s.pageByte dst 0
  let hi := s.pageByte dst 65535
  (∀ i, i < 65536 → Memory.byte t.mem (s.pageByte dst i) = Memory.byte s.mem (s.pageByte src i)) ∧
  ∀ z, z < lo ∨ hi < z → Memory.byte t.mem z = putBytes l (leBytes 8 e.toNat) (Memory.byte s.mem) z

/-- The data bytes of one slot lie apart from those of another. -/
def Apart (s : State) (a b : Nat) : Prop := s.pageByte a 65535 < s.pageByte b 0 ∨ s.pageByte b 65535 < s.pageByte a 0

/-- A leaf with another slot and state, MOT cleared in a RESIDENT one (R257). -/
def moved (e : Dword) (slot state : Nat) : Dword :=
  let f := withBits (withBits e 51 13 (slot / 8192)) 2 1 state
  if state = 0 then withBits f 12 12 0 else f

/-- A walk's end notes its outcome for its groups and fills the TLBs; a walk that a shoot-down overtook starts again. A shoot-down drops the
entries in its range. The fault service unit resumes, waits, takes a slot or writes a record, by the entry it finds; an expansion and a
migration-on-touch bring the page in; FRES gives a page up, or has it walked and, where it is still parkable,
escalated again. Firmware moves a page and compresses one; the second-touch filter is cleared
(R179, R183, R227, R262, R264, R265, R269, R270, R272, R274, R275, R352). -/
def Obligations.FaultEvents : Prop := ∀ s : State, Plainly s →
  (∀ k w, k < 12 → (s.cluster k).walks.find? (·.begun) = some w → cluOf w.core = k →
    let rest := (s.cluster k).walks.filter (·.id != w.id)
    (s.staleWalk w = true →
      exec (.walkComplete k) s = .next (s.onCluster k fun q => { q with walks := rest ++ [{ w with seq := s.hub.shootSeq.toNat }] })) ∧
    (∀ r code, s.staleWalk w = false → w.quiet = false → s.walk k w.ctx w.page = (r, s) → r ≠ .poison →
      code = (match r with
        | .bad => 1
        | .leaf e => if pteParks e.pte then (if pteState e.pte = 1 then 3 else 4) else 0
        | _ => 4) →
      ∃ t, exec (.walkComplete k) s = .next t ∧ t.mem = s.mem ∧ (t.cluster k).walks.map (·.id) = rest.map (·.id) ∧
        (∀ g, t.grp g = if g ∈ w.gids then { s.grp g with walked := (w.page, code) :: (s.grp g).walked.filter (·.1 != w.page) } else s.grp g) ∧
        ∀ e, r = .leaf e → code = 0 → e ∈ (t.core w.core).l1tlb ∧ e ∈ (t.cluster k).l2tlb)) ∧
  (∀ x, s.hub.shoots.find? (·.id == x.id) = some x → s.shootWaits x = [] →
    ∃ t, exec (.shootdownComplete x.id) s = .next t ∧ t.groups = s.groups ∧
      (∀ c e, e ∈ (t.core c).l1tlb ↔ e ∈ (s.core c).l1tlb ∧ x.covers e.ctx e.base e.size = false) ∧
      (∀ k e, e ∈ (t.cluster k).l2tlb ↔ e ∈ (s.cluster k).l2tlb ∧ x.covers e.ctx e.base e.size = false) ∧
      t.hub.shoots = s.hub.shoots.filter (·.id != x.id) ∧ t.hub.shootSeq = s.hub.shootSeq + 1 ∧
      (x.tenant = none → t.mem = s.mem) ∧
      ∀ tn a rest done, x.tenant = some tn → (s.tenant tn).cmds = a :: rest → done = valueOf (Memory.byte s.mem) (hostLoc (a.toNat + 56)) 8 →
        SMap.wf Tenant.reset s.tenants = true → (t.tenant tn).cmds = rest ∧
        ∀ z, Memory.byte t.mem z = if done = 0 then Memory.byte s.mem z else putBytes (hostLoc done) (leBytes 8 1) (Memory.byte s.mem) z) ∧
  (∀ f x, List.find? (fun (e : Nat × FaultRec) => e.1 == f) s.hub.faults = some (f, x) → GroupsOnly s f x →
    let back := fun (y : Group) => { y with missing := y.missing.filter fun p => !(x.covers p.1) }
    (x.stage = 0 ∨ x.stage = 3 →
      (∀ e, s.devWalk x.ctx x.page = (.leaf e, s) →
        (pteParks e.pte = false → FaultEnds (.faultService f) s f x.ctx back (Memory.byte s.mem)) ∧
        (pteState e.pte = 2 → exec (.faultService f) s =
          .next (s.onHub fun h => { h with faults := SMap.ins h.faults f { x with pte := e.pte, stage := 3 } })) ∧
        (pteState e.pte = 1 → pteSize e.pte = 0 → s.poolOf (s.ctx x.ctx).tenant (clsOf (dbits e.pte 4 3)) ≠ [] →
          ∃ t n, exec (.faultService f) s = .next t ∧ t.groups = s.groups ∧ t.mem = s.mem ∧
            n ∈ s.poolOf (s.ctx x.ctx).tenant (clsOf (dbits e.pte 4 3)) ∧ t.hub.pool = s.hub.pool.filter (· != n) ∧
            t.hub.faults = SMap.ins s.hub.faults f { x with pte := e.pte, stage := 1, dst := n * 65536 }) ∧
        (pteState e.pte = 1 → s.poolOf (s.ctx x.ctx).tenant (clsOf (dbits e.pte 4 3)) = [] → Escalates (.faultService f) s f x e.pte 1)) ∧
      (∀ e, s.devWalk x.ctx x.page = (.absent e, s) → Escalates (.faultService f) s f x e 0)) ∧
    (∀ l img b, x.stage = 1 → pteSize x.pte = 0 → EntryAt s x.ctx x.page l x.pte (s.pageByte x.dst 0) (s.pageByte x.dst 65535) →
      img = leafAddr x.pte → List.find? (fun (e : Nat × List Byte) => e.1 == img) s.hub.cellar = some (img, b) → b.length = 65536 → isLocal x.dst = true →
      x.dst % 65536 = 0 → s.slotOk x.dst = true →
      ∃ t, exec (.cellarExpansionDone f) s = .next t ∧ t.hub.faults = SMap.del s.hub.faults f ∧ t.hub.cellar = SMap.del s.hub.cellar img ∧
        (∀ i, i < 65536 → Memory.byte t.mem (s.pageByte x.dst i) = b.getD i 0) ∧
        (∀ z, z < s.pageByte x.dst 0 ∨ s.pageByte x.dst 65535 < z →
          Memory.byte t.mem z = putBytes l (leBytes 8 (moved x.pte x.dst 0).toNat) (Memory.byte s.mem) z) ∧
        ∀ n, (s.grp n).used = true → (s.grp n).ctx = x.ctx → t.grp n = back (s.grp n)) ∧
    (∀ l src, x.stage = 2 → pteSize x.pte = 0 → src = leafAddr x.pte → isHost src = true → isHost (src + 65535) = true → isLocal x.dst = true →
      x.dst % 65536 = 0 → s.slotOk x.dst = true → EntryAt s x.ctx x.page l x.pte (s.pageByte x.dst 0) (s.pageByte x.dst 65535) →
      s.session? x.ctx = none →
      (∀ g v k a, (s.grp g).wait.cond ≠ .word v k a) → (∀ g v k, (s.grp g).wait.cond ≠ .sync v k) →
      ∃ t, exec (.migrateOnTouchDone f) s = .next t ∧ t.hub.faults = SMap.del s.hub.faults f ∧ PageMoved s t src x.dst l (moved x.pte x.dst 0) ∧
        ∀ n, (s.grp n).used = true → (s.grp n).ctx = x.ctx → t.grp n = back (s.grp n)) ∧
    (∀ tn v, tn < 16 → x.stage = 5 → (s.ctx x.ctx).tenant = tn → x.tag = dbits v 31 0 →
      (∀ e ∈ s.hub.faults, e.2.stage = 5 → (s.ctx e.2.ctx).tenant = tn → e.2.tag = dbits v 31 0 → e = (f, x)) →
      (v.getLsbD 32 = true → s.fetchOrder = [] → x.gids ≠ [] → FaultEnds (.fresWrite tn false v) s f x.ctx
        (fun y => if y.missing.any fun p => x.covers p.1 then { y with missing := [], givenUp := (x.page, x.size) :: y.givenUp } else y)
        (Memory.byte s.mem)) ∧
      (v.getLsbD 32 = false →
        (∀ e, s.devWalk x.ctx x.page = (.absent e, s) → Escalates (.fresWrite tn false v) s f x e 0) ∧
        ∀ e, s.devWalk x.ctx x.page = (.leaf e, s) →
          (pteParks e.pte = true → Escalates (.fresWrite tn false v) s f x e.pte 1) ∧
          (pteParks e.pte = false → FaultEnds (.fresWrite tn false v) s f x.ctx back (Memory.byte s.mem))))) ∧
  (∀ tn v, tn < 16 →
    exec (.fresWrite tn true v) s = .next s ∧
    ((∀ e ∈ s.hub.faults, e.2.stage = 5 → (s.ctx e.2.ctx).tenant = tn → e.2.tag ≠ dbits v 31 0) → exec (.fresWrite tn false v) s =
      .next (s.onTenant tn fun y => { y with faultRing := { y.faultRing with rstat := withBits y.faultRing.rstat 63 63 1 } }))) ∧
  (∀ c va dst page e l, page = BitVec.ofNat 64 (s.pageSpan c va).1 → s.inLarder c page.toNat 65536 = false → s.resident? c page = some e → pteSize e = 0 → EntryAt s c page l e (2 ^ 64) 0 →
    ((∀ m ∈ s.hub.migrations, m.ctx = c → m.page ≠ page) → s.canMove c e dst.toNat = true →
      ∃ t, exec (.pageMigration c va dst) s = .next t ∧ t.groups = s.groups ∧
        t.hub.migrations = s.hub.migrations ++ [{ ctx := c, page := page, dst := dst.toNat, shoot := s.hub.nextShoot }] ∧
        t.hub.pool = s.hub.pool.filter (· != dst.toNat / 65536) ∧
        t.hub.shoots = s.hub.shoots ++
          [{ id := s.hub.nextShoot, ctx := some c, base := page.toNat, size := 65536, tenant := none, seq := 0 }] ∧
        ∀ z, Memory.byte t.mem z = putBytes l (leBytes 8 (withBits e 2 1 2).toNat) (Memory.byte s.mem) z) ∧
    (∀ img, (∀ g, (s.grp g).flights = []) → img.toNat = leafAddr e → s.slotOk img.toNat = true →
      ∃ t b, exec (.cellarCompression c va img) s = .next t ∧ SMap.find? t.hub.cellar img.toNat = some b ∧ b.length = 65536 ∧
        (∀ i, i < 65536 → b.getD i 0 = Memory.byte s.mem (s.pageByte img.toNat i)) ∧
        ∀ z, Memory.byte t.mem z = putBytes l (leBytes 8 (moved e img.toNat 1).toNat) (Memory.byte s.mem) z)) ∧
  (∀ m e l old, s.hub.migrations = [m] → (∀ x ∈ s.hub.shoots, x.id ≠ m.shoot) → (s.pageSpan m.ctx m.page).1 = m.page.toNat → s.hub.faults = [] →
    s.session? m.ctx = none →
    EntryAt s m.ctx m.page l e (s.pageByte m.dst 0) (s.pageByte m.dst 65535) → pteState e = 2 → pteSize e = 0 → old = leafAddr e →
    isLocal old = true → isLocal m.dst = true → s.slotOk old = true → s.slotOk m.dst = true → m.dst % 65536 = 0 → old % 65536 = 0 →
    Apart s old m.dst →
    ∃ t, exec (.pageMigration m.ctx m.page 0) s = .next t ∧ t.hub.migrations = [] ∧ PageMoved s t old m.dst l (moved e m.dst 0)) ∧
  ∀ n x, n < 96 → x = SMap.look s.hub.slices n Slice.reset →
    (x.misses < 2 ^ x.w → exec (.filterClear n) s = .next s) ∧
    (2 ^ x.w ≤ x.misses → exec (.filterClear n) s = .next (s.onHub fun h =>
      { h with slices := SMap.put h.slices n { x with filter := [], misses := 0, clears := x.clears + 1 } Slice.reset }))

/-! ### Storage firmware, the package and the TDI -/

/-- Groups, cores, contexts and tenants stay as they are. -/
def SameGroups (s t : State) : Prop := t.groups = s.groups ∧ t.cores = s.cores ∧ t.ctxs = s.ctxs ∧ t.tenants = s.tenants

/-- The management controller's log has one more record, of a kind and a unit (R310). -/
def Reports (s t : State) (kind unit : Nat) : Prop :=
  ∃ b, t.hub.mcLog = s.hub.mcLog ++ [b] ∧ b.length = 32 ∧ fieldAt b 0x12 1 = kind ∧ fieldAt b 0x14 2 = unit

/-- The device after a loss of its state: what is left are host and peer memory, the retirement list and the controller's log (R8, R20); the
model keeps its agenda and its count of free values. -/
def emptied (s : State) (h : Hub) : State :=
  { State.reset with hub := h, mem := s.mem.filter (fun c => isHost c.1 || isPeer c.1), agenda := s.agenda, fresh := s.fresh }

/-- The power budget in milliwatts: C-dies, H-dies, HBM, fabric and PCIe, regulator losses, management, and the arbiter's headroom (R13). -/
def budget : List Nat := [8700000, 1600000, 1100000, 900000, 1600000, 100000, 1000000]

/-- A pin is swapped while its channel has a lane left; a sector is pinned in L3, or its page retired when its set has no way left; a frame that
nothing names takes a format, with every line zero and every mapping shot down; INJECT marks in test mode only, which no enclave lets begin, and
whose end drops armed marks; RESET and HOST_SELF_TEST keep the retirement list; alarms and temperatures narrow a C-die, quiet intervals widen it, 15
kW with every die narrowed holds matrix issue, an interval takes the arbiter's grants inside R14's bounds, 115 degrees cuts the power; the home of a
line, by R176's example; TDI states, and the terminations of a TDI error; a link that goes down hands over the core dumps (R7 to R10, R14 to R20,
R176, R292, R306, R307, R309, R312, R346, R348, R527, R531). -/
def Obligations.PackageEvents : Prop := ∀ s : State, s.hub.doomed = [] →
  (∀ stack channel pin, stack < 12 → channel < 32 → pin < 64 →
    let mine := s.hub.swaps.filter fun e => e.1 == stack && e.2.1 == channel
    ((stack, channel, pin) ∈ s.hub.swaps ∨ 4 ≤ mine.length → exec (.pinSwap stack channel pin) s = .next s) ∧
    ((stack, channel, pin) ∉ s.hub.swaps → mine.length < 4 → ∃ t, exec (.pinSwap stack channel pin) s = .next t ∧ SameGroups s t ∧ t.mem = s.mem ∧
      t.hub.swaps = s.hub.swaps ++ [(stack, channel, pin)] ∧ Reports s t 0x08 (0x3000 + stack))) ∧
  (∀ pa, isLocal pa = true → pa / 64 ∉ s.hub.pinned → Sound s → (∀ c, s.session? c = none) →
    let shared := s.hub.pinned.any fun k => k / 8 == pa / 512
    (shared = true ∨ s.lockedWays none pa < 2 → ∃ t, exec (.sectorPin pa) s = .next t ∧ SameGroups s t ∧ t.mem = s.mem ∧
      t.hub.pinned = pa / 64 :: s.hub.pinned ∧ Reports s t 0x09 (0x2000 + sliceOf pa)) ∧
    (shared = false → 2 ≤ s.lockedWays none pa → ∃ t, exec (.sectorPin pa) s = .next t ∧ t.groups = s.groups ∧ t.mem = s.mem ∧
      t.hub.pinned = s.hub.pinned ∧ s.slotAt pa ∈ t.hub.retiredSlots ∧ s.slotAt pa / 65536 ∉ t.hub.pool ∧ Reports s t 0x06 (unitOf pa))) ∧
  (∀ frame fmt, frame < 393216 →
    (s.frameHeld frame = true → exec (.format frame fmt) s = .next s) ∧
    (s.frameHeld frame = false → Canonical s → SMap.wf Cls.p s.hub.formats = true →
      ∃ t, exec (.format frame fmt) s = .next t ∧ SameGroups s t ∧ SMap.look t.hub.formats frame .p = fmt ∧
        (∀ z, Memory.byte t.mem z = if z / 2 ^ 21 = frame then 0 else Memory.byte s.mem z) ∧
        (∀ f, f ≠ frame → SMap.look t.hub.formats f .p = SMap.look s.hub.formats f .p) ∧
        t.hub.shoots = s.hub.shoots ++ [{ id := s.hub.nextShoot, ctx := none, base := 0, size := 2 ^ 64, tenant := none, seq := 0 }])) ∧
  (∀ u d k pa core off, isLocal pa = true → k < 12 → core < 768 → off < usable (s.core core).format →
    let m := if u then 2 else 1
    (s.hub.testMode = false → ∀ site, exec (.inject site u d) s = .next s) ∧
    (s.hub.testMode = true →
      exec (.inject (.hbm pa) u d) s = .next (s.onHub fun h => { h with marks := SMap.ins h.marks (pa / 64) m }) ∧
      exec (.inject (.l3 pa) u d) s = .next (s.onHub fun h => { h with l3marks := SMap.ins h.l3marks (pa / 64) m }) ∧
      exec (.inject (.row core off) u d) s = .next (s.onHub fun h => { h with marks := SMap.ins h.marks (s.secKey (spadLoc core off)) m }) ∧
      exec (.inject (.l2 k pa) u true) s = .next (s.onCluster k fun q =>
        { q with armed := (pa / 64, u) :: q.armed.filter fun e => e.1 != pa / 64 }) ∧
      ((s.sector k pa).valid = 0 → exec (.inject (.l2 k pa) u false) s = .next s) ∧
      ((s.sector k pa).valid ≠ 0 → exec (.inject (.l2 k pa) u false) s = .next (s.setSector k pa { s.sector k pa with mark := m })))) ∧
  ((∃ e ∈ s.ctxs, e.2.used = true ∧ e.2.encl = true) → exec .testModeEntry s = .next s) ∧
  ((∀ e ∈ s.ctxs, e.2.used = true → e.2.encl = false) → exec .testModeEntry s = .next (s.onHub fun h => { h with testMode := true })) ∧
  (s.hub.testMode = false → exec .testModeExit s = .next s) ∧
  (s.hub.testMode = true → SMap.wf Cluster.empty s.clusters = true → (∀ tn k, (s.sess tn k).en = false) →
    ∃ t, exec .testModeExit s = .next t ∧ SameGroups s t ∧ t.mem = s.mem ∧ t.hub = { s.hub with testMode := false } ∧
      ∀ k, t.cluster k = { s.cluster k with armed := [] }) ∧
  (∀ bad bootOk dev all short, all = s.hub.retiredCores ++ (bad.filter fun p => decide (p < 816) && !(s.hub.retiredCores.contains p)).eraseDups →
    short = (List.range 12).filter (fun k => decide ((((List.range 68).map (68 * k + ·)).filter fun p => !(all.contains p)).length < 64)) →
    let h := { Hub.reset with retiredCores := all, mappedCores := all, mcLog := s.hub.mcLog }
    (bootOk = true → short = [] → s.hub.pinned = [] → exec (.reset bad bootOk dev) s = .next (emptied s { h with device := dev })) ∧
    (bootOk = false ∨ short ≠ [] → ∃ t, exec (.reset bad bootOk dev) s = .next t ∧ t.hub.up = false ∧ t.hub.linkUp = false ∧
      t.hub.retiredCores = all ∧ t.hub.pinned = s.hub.pinned ∧ t.groups = [] ∧ s.hub.mcLog.length < t.hub.mcLog.length)) ∧
  (∀ core pass, core < 768 →
    (pass = true ∨ (s.core core).resident.toList.any (·.isSome) = true ∨ (s.core core).unavailable = true →
      exec (.hostSelfTest core pass) s = .next s) ∧
    (∀ p, pass = false → (s.core core).resident = Vector.replicate 4 none → (s.core core).unavailable = false →
      (((List.range 68).map (68 * (core / 64) + ·)).filter fun q => !(s.hub.mappedCores.contains q))[core % 64]? = some p →
      exec (.hostSelfTest core pass) s = .next { s.setCore core { s.core core with unavailable := true } with
        hub := { s.hub with retiredCores := s.hub.retiredCores ++ [p] } })) ∧
  (∀ die temp, die < 6 →
    (∃ h, exec (.powerAlarm die) s = .next { s with hub := h } ∧ (∀ d, d ∈ h.narrowed ↔ d ∈ s.hub.narrowed ∨ d = die) ∧
      (∀ d, d ∈ h.alarmed ↔ d ∈ s.hub.alarmed ∨ d = die) ∧ ∀ d, d ∈ h.clean ↔ d ∈ s.hub.clean ∧ d ≠ die) ∧
    (105 ≤ temp → ∃ h, exec (.junctionTemperatureAlarm die temp) s = .next { s with hub := h } ∧
      (∀ d, d ∈ h.narrowed ↔ d ∈ s.hub.narrowed ∨ d = die) ∧ ∀ d, d ∈ h.hot ↔ d ∈ s.hub.hot ∨ d = die) ∧
    (100 ≤ temp → temp < 105 → exec (.junctionTemperatureAlarm die temp) s = .next s) ∧
    (temp < 100 → ∃ h, exec (.junctionTemperatureAlarm die temp) s = .next { s with hub := h } ∧ (∀ d, d ∈ h.hot ↔ d ∈ s.hub.hot ∧ d ≠ die) ∧
      ∀ d, d ∈ h.narrowed ↔ d ∈ s.hub.narrowed ∧ (d ≠ die ∨ die ∉ s.hub.clean ∨ s.dieBusy die = true))) ∧
  (∀ v, ∃ h, exec (.arbiterInterval v) s = .next { s with hub := h } ∧ h.alarmed = [] ∧
    (∀ d, d ∈ h.narrowed ↔ d ∈ s.hub.narrowed ∧ (6 ≤ d ∨ d ∈ s.hub.alarmed ∨ d ∈ s.hub.hot ∨ s.dieBusy d = true)) ∧
    h.matrixHold = (if 15000000 ≤ v.mw ∧ h.narrowed.length = 6 then true else if v.mw < 14500000 then false else s.hub.matrixHold) ∧
    let ok := v.grants.toList.sum ≤ 15000000 ∧ (∀ i, i < 6 → budget.getD i 0 * 4 ≤ vat v.grants i 0 * 5) ∧
      ((List.range 6).map fun i => vat v.grants i 0 - vat s.hub.power i 0).sum ≤ 1000000
    (ok → h.power = v.grants) ∧ (¬ ok → h.power = s.hub.power)) ∧
  Hub.reset.power.toList = budget ∧
  (sliceOf 0x100000200 = 33 ∧ stackOf 0x100000200 = 4 ∧ stackLine 0x100000200 = 699049 ∧ pseudoChannel 0x100000200 = (10, 9)) ∧
  (∀ die temp, die < 8 →
    (temp < 115 → exec (.overtemperatureCutoff die temp) s = .next s) ∧
    (115 ≤ temp → exec (.overtemperatureCutoff die temp) s = .next (emptied s { Hub.reset with
      retiredCores := s.hub.retiredCores, mappedCores := s.hub.retiredCores, up := false, powered := false, linkUp := false
      pinned := s.hub.pinned, mcLog := s.hub.mcLog ++ [leBytes 2 die ++ leBytes 2 temp] }))) ∧
  (∀ tn st, tn < 16 →
    (st ≠ .error → exec (.tdiStateChange tn st) s = .next (s.onTenant tn fun y => { y with tdi := st })) ∧
    exec (.tdiStateChange tn .error) s = .next s ∧
    ((∀ c, c < 64 → (s.ctx c).encl = true → (s.ctx c).tenant ≠ tn) → exec (.tdiError tn) s = .next (s.onTenant tn fun y => { y with tdi := .error })) ∧
    exec (.tdiError tn) s = .next ((s.onTenant tn fun y => { y with tdi := .error }).onHub fun h => { h with
      doomed := ((List.range 64).filter fun c => (s.ctx c).used && (s.ctx c).encl && (s.ctx c).tenant == tn).map fun c => (c, 2) }).reap) ∧
  (SMap.wf Tenant.reset s.tenants = true → ∃ t, exec .hostLinkDown s = .next t ∧ t.hub.linkUp = false ∧ t.groups = s.groups ∧ t.mem = s.mem ∧
    ∀ tn, tn < 16 → t.tenant tn = { s.tenant tn with dump := [] } ∧ ((s.tenant tn).dump ≠ [] → (tn, (s.tenant tn).dump) ∈ t.hub.dumped))

/-! ### Tenant commands -/

/-- Tenant tn's oldest command lies at host I/O address a, the link is up, and no shoot-down of a command before it is under way (R350). -/
structure Commanded (s : State) (tn : Nat) (a : Dword) (rest : List Dword) : Prop where
  tenant : tn < 16
  pending : (s.tenant tn).cmds = a :: rest
  link : s.hub.linkUp = true
  ready : ∀ x ∈ s.hub.shoots, x.tenant ≠ some tn
  calm : Calm s
  canon : Canonical s
  tenants : SMap.wf Tenant.reset s.tenants = true
  doomed : s.hub.doomed = []

/-- Doubleword i of the command at host I/O address a. -/
def wordOf (s : State) (a : Dword) (i : Nat) : Dword := BitVec.ofNat 64 (valueOf (Memory.byte s.mem) (hostLoc (a.toNat + 8 * i)) 8)

/-- Memory after the completion word of the command at a, with a refusal's code or 0 (R350). -/
def answered (s : State) (a : Dword) (code : Nat) : Nat → Byte :=
  let done := (wordOf s a 7).toNat
  if done = 0 then Memory.byte s.mem else putBytes (hostLoc done) (leBytes 8 (if code = 0 then 1 else 2 + 256 * code)) (Memory.byte s.mem)

/-- The event i answers the command at a: the machine is u, with the command no longer pending and its completion word written. -/
def Obeys (i : Instr) (s : State) (tn : Nat) (a : Dword) (rest : List Dword) (code : Nat) (u : State) : Prop :=
  ∃ m, exec i s = .next { u.onTenant tn (fun y => { y with cmds := rest }) with mem := m } ∧ ∀ z, Memory.byte m z = answered u a code z

/-- The events of the commands, with their OP and their number of operands. -/
noncomputable def tenantCommands (tn : Nat) : List (Instr × Nat × Nat) :=
  [(.create tn, 1, 2), (.terminate tn, 2, 0), (.preempt tn, 3, 2), (.returnCtx tn, 4, 2), (.refill tn, 5, 1), (.shoot tn, 6, 3), (.pool tn, 7, 2),
   (.share tn, 8, 2), (.sealin tn, 9, 3), (.rekey tn, 10, 1), (.attest tn, 11, 2)]

/-- Context number c is allotted to tenant tn (R351). -/
def Owns (s : State) (tn c : Nat) : Prop := SMap.look s.hub.allot c 0 = tn + 1

/-- The command at a has OP op, a context of the tenant, which exists but for CREATE, and zeros behind its operands. -/
structure WellPut (s : State) (tn : Nat) (a : Dword) (op used c : Nat) : Prop where
  aligned : (wordOf s a 7).toNat % 8 = 0
  code : dbits (wordOf s a 0) 7 0 = op
  about : dbits (wordOf s a 0) 13 8 = c
  owns : Owns s tn c
  there : (s.ctx c).used = !(op == 1)
  zeros : dbits (wordOf s a 0) 63 14 = 0 ∧ ∀ i, used < i → i < 7 → wordOf s a i = 0

/-- A descriptor that keeps the rules of R277 for tenant tn. -/
def GoodDescriptor (tn : Nat) (b : List Byte) : Prop :=
  let f := fieldAt b
  (f 0 8 % 8192 = 0 ∧ f 0 8 < 0xC000000000) ∧ (f 8 8 % 4 = 0 ∧ canonical (BitVec.ofNat 64 (f 8 8)) = true) ∧ (12 ≤ f 0x18 1 ∧ f 0x18 1 ≤ 24) ∧
  f 0x10 8 % 2 ^ f 0x18 1 = 0 ∧ f 0x19 1 = tn ∧ f 0x1A 1 ≤ 1 ∧ f 0x20 8 % 2 ^ 25 = 0 ∧ f 0x28 8 % 2 ^ 20 = 0 ∧
  (1 ≤ f 0x32 2 ∧ f 0x32 2 ≤ 768 ∧ f 0x30 2 + f 0x32 2 ≤ 768) ∧ f 0x34 1 ≤ 64 ∧ f 0x1B 5 = 0 ∧ f 0x35 3 = 0 ∧ f 0x3C 4 = 0 ∧ f 0x48 184 = 0

/-- One crew of one group of context c stands at rest on a core: no session, no access outstanding, no engine command, no mapping entry, and
no other crew on the device. -/
structure AtRest (s : State) (c w g : Nat) (x : Crew) : Prop where
  crew : s.hub.crews = [(w, x)]
  here : x.away = 0 ∧ x.ctx = c ∧ x.gids = [g]
  slot : g < 18432 ∧ coreOf g = x.core ∧ x.core < 768
  group : (s.grp g).used = true ∧ (s.grp g).ctx = c ∧ (s.grp g).flights = [] ∧ (s.grp g).runAhead = none ∧ (s.grp g).chunk.count = 0
  plain : s.session? c = none
  quiet : (s.core x.core).cmds = [] ∧ (s.core x.core).maps = []
  done : s.cmdsHold x.gids = false

/-- What the eleven tenant commands do (R269, R274, R277, R284, R285, R299, R309, R350, R351, R358 to R360). A completion address out of
alignment drops the command; OP, context and zero fields are checked in this order (the model's order). CREATE makes the context of its
descriptor; TERMINATE frees a context without groups and launches; PREEMPT takes a crew from its core and RETURN brings it back with its
image; REFILL, POOL, SHARE and REKEY set what they name; SHOOT starts a shoot-down, whose end answers it; SEALIN writes the plaintext;
ATTEST writes the report and its signatures. -/
def Obligations.TenantCommands : Prop := ∀ s : State, ∀ tn a rest, Commanded s tn a rest →
  let w := wordOf s a
  let c := dbits (w 0) 13 8
  (∀ e ∈ tenantCommands tn,
    ((w 7).toNat % 8 ≠ 0 → exec e.1 s = .next (s.onTenant tn fun y => { y with cmds := rest, align := true })) ∧
    ((w 7).toNat % 8 = 0 → dbits (w 0) 7 0 = 0 ∨ 11 < dbits (w 0) 7 0 → Obeys e.1 s tn a rest 6 s) ∧
    ((w 7).toNat % 8 = 0 → dbits (w 0) 7 0 = e.2.1 →
      (¬ Owns s tn c ∨ (s.ctx c).used = (e.2.1 == 1) → Obeys e.1 s tn a rest 1 s) ∧
      (Owns s tn c → (s.ctx c).used = !(e.2.1 == 1) → dbits (w 0) 63 14 ≠ 0 ∨ (∃ i, e.2.2 < i ∧ i < 7 ∧ w i ≠ 0) → Obeys e.1 s tn a rest 2 s))) ∧
  (WellPut s tn a 1 2 c →
    let b := Memory.bytes s.mem (hostLoc (w 1).toNat) 256
    let f := fieldAt b
    ((w 1).toNat % 256 ≠ 0 ∨ 8 ≤ (w 2).toNat → Obeys (.create tn) s tn a rest 2 s) ∧
    ((w 1).toNat % 256 = 0 → (w 2).toNat < 8 →
      (¬ GoodDescriptor tn b → Obeys (.create tn) s tn a rest 3 s) ∧
      (GoodDescriptor tn b → f 0x1A 1 = 1 → (s.tenant tn).tdi ≠ .run → Obeys (.create tn) s tn a rest 5 s) ∧
      (GoodDescriptor tn b → f 0x1A 1 = 0 ∨ (s.tenant tn).tdi = .run → Obeys (.create tn) s tn a rest 0 (s.setCtx c { Ctx.none with
        used := true, ptroot := BitVec.ofNat 64 (f 0 8), tvec := BitVec.ofNat 64 (f 8 8), attb := BitVec.ofNat 64 (f 0x10 8), atts := f 0x18 1
        tenant := tn, encl := f 0x1A 1 == 1, spapb := BitVec.ofNat 64 (f 0x20 8), saveb := BitVec.ofNat 64 (f 0x28 8), sfirst := f 0x30 2
        scount := f 0x32 2, evslots := f 0x34 1, errbud := BitVec.ofNat 32 (f 0x38 4), commp := BitVec.ofNat 64 (f 0x40 8)
        policy := (w 2).truncate 3, descr := hostLoc (w 1).toNat, bytes := b })))) ∧
  (WellPut s tn a 2 0 c → (∀ g, (s.grp g).used = true → (s.grp g).ctx ≠ c) → (∀ e ∈ s.hub.launches, e.2.ctx ≠ c) →
    SMap.wf Ctx.none s.ctxs = true → s.session? c = none →
    ∃ t, exec (.terminate tn) s = .next t ∧ (t.ctx c).used = false ∧ (t.tenant tn).cmds = rest ∧
      (∀ core i, i < 4 → vat (t.core core).resident i none ≠ some c) ∧ (∀ core i, (t.tile core i).held = true → (t.tile core i).ctx ≠ c) ∧
      ((s.tenant tn).errorRing.rctl = 0 → ∀ z, Memory.byte t.mem z = answered s a 0 z)) ∧
  (∀ sf sc, sf = (s.ctx c).sfirst → sc = (s.ctx c).scount →
    (∀ e ∈ [(Instr.preempt tn, 3), (Instr.returnCtx tn, 4)], WellPut s tn a e.2 2 c → (w 1).toNat < sf ∨ sf + sc < (w 1).toNat + (w 2).toNat →
      Obeys e.1 s tn a rest 2 s) ∧
    (sf ≤ (w 1).toNat → (w 1).toNat + (w 2).toNat ≤ sf + sc →
      (WellPut s tn a 3 2 c → (∀ e ∈ s.hub.crews, e.2.ctx ≠ c) → Obeys (.preempt tn) s tn a rest 0 s) ∧
      (WellPut s tn a 4 2 c → (∀ e ∈ s.hub.crews, e.2.ctx ≠ c) → (∀ e ∈ s.hub.crews, e.2.away ≠ 3) → Obeys (.returnCtx tn) s tn a rest 0 s) ∧
      (∀ n g x pages, WellPut s tn a 3 2 c → AtRest s c n g x → (w 1).toNat ≤ x.core → x.core < (w 1).toNat + (w 2).toNat →
        (∀ v, v = s.onGrp g (fun z => { z with leaving := true }) → v.savePages c (x.core - sf) .w 16 = (.inr pages, v)) →
        ∃ t, exec (.preempt tn) s = .next t ∧ t.grp g = Group.idle ∧ (t.tenant tn).cmds = rest ∧
          (∃ y, t.crew? n = some y ∧ y.away = 1 ∧ y.slot = x.core - sf ∧ y.core = x.core ∧ ∃ k, y.gids = [k] ∧ 2 ^ 15 ≤ k ∧ (t.grp k).used = true ∧
            (t.grp k).pc = (s.grp g).pc ∧ (t.grp k).em = (s.grp g).em ∧ (t.grp k).index = (s.grp g).index) ∧
          ∀ i, i < x.tiles → (t.tile x.core (x.tile + i)).held = false) ∧
      (∀ n k x v, WellPut s tn a 4 2 c → s.hub.crews = [(n, x)] → x.away = 1 → x.ctx = c → x.gids = [k] → 2 ^ 15 ≤ k → x.core < 768 → (w 1).toNat ≤ x.core →
        x.core < (w 1).toNat + (w 2).toNat → v = s.onHub (fun h => { h with crews := [(n, { x with away := 3 })] }) →
        (v.backAt x.core { x with away := 3 } true = none → (∃ pages, v.savePages c x.slot .r 16 = (.inr pages, v)) →
          Obeys (.returnCtx tn) s tn a rest 0 v) ∧
        (∀ t0 pages, v.backAt x.core { x with away := 3 } true = some t0 → v.savePages c x.slot .r 16 = (.inr pages, v) → s.session? c = none →
          x.tiles = 0 → (s.ctx c).collAway = [] → (s.ctx c).binsAway = [] → (s.ctx c).mapsBack = [] → s.hub.queueReqs = [] → s.hub.faults = [] →
          (s.grp k).used = true → (∀ i, i < 24 → (s.grp (24 * x.core + i)).used = false) →
          let r := (s.imageRead c x.core pages (0x1000 + 1024 * x.first) 128).1
          ∃ t, exec (.returnCtx tn) s = .next t ∧ t.grp k = Group.idle ∧ (t.tenant tn).cmds = rest ∧
            (∃ y, t.crew? n = some y ∧ y.away = 0 ∧ y.core = x.core ∧ y.gids = [24 * x.core]) ∧
            ∃ g, g = t.grp (24 * x.core) ∧ g.used = true ∧ g.ctx = (s.grp k).ctx ∧ g.pc = BitVec.ofNat 64 (fieldAt r 0 8) ∧
              g.em = BitVec.ofNat 32 (fieldAt r 8 4) ∧ g.live = BitVec.ofNat 32 (fieldAt r 12 4) ∧ g.fflags = BitVec.ofNat 64 (fieldAt r 0x58 8) ∧
              g.ordinal = fieldAt r 0x98 4)))) ∧
  (WellPut s tn a 5 1 c →
    (2 ^ 32 ≤ (w 1).toNat → Obeys (.refill tn) s tn a rest 2 s) ∧
    ((w 1).toNat < 2 ^ 32 → ∃ tok, Obeys (.refill tn) s tn a rest 0
      ((s.onCtx c fun x => { x with errbud := (w 1).truncate 32 }).onHub fun h => { h with tokens := tok }))) ∧
  (WellPut s tn a 6 3 c →
    let bad := (w 1).toNat % 65536 ≠ 0 ∨ canonical (w 1) = false ∨ 1 < (w 3).toNat
    (bad → Obeys (.shoot tn) s tn a rest 2 s) ∧
    (¬ bad → exec (.shoot tn) s = .next (s.onHub fun h => { h with
      nextShoot := h.nextShoot + 1
      shoots := h.shoots ++ [{ id := h.nextShoot, ctx := if w 3 = 1 then none else some c, base := (w 1).toNat, size := (w 2).toNat, tenant := some tn, seq := 0 }] }))) ∧
  (WellPut s tn a 7 2 c →
    let f := (w 1).toNat / 2 ^ 21
    let slots := ((List.range (slotsIn (SMap.look s.hub.formats f .p))).map (32 * f + ·)).filter fun n => !(s.hub.retiredSlots.contains (n * 65536))
    let window := (w 1).toNat < 0xC000000000 ∧ SMap.look s.hub.window f 0 = tn + 1
    ((w 1).toNat % 2 ^ 21 ≠ 0 ∨ 1 < (w 2).toNat → Obeys (.pool tn) s tn a rest 2 s) ∧
    ((w 1).toNat % 2 ^ 21 = 0 → (w 2).toNat ≤ 1 →
      (¬ window → Obeys (.pool tn) s tn a rest 4 s) ∧
      (window → w 2 = 1 → (s.ctx c).encl = true → SMap.look s.hub.formats f .p ≠ .p → Obeys (.pool tn) s tn a rest 5 s) ∧
      (window → w 2 = 1 → (s.ctx c).encl = false ∨ SMap.look s.hub.formats f .p = .p →
        Obeys (.pool tn) s tn a rest 0 (s.onHub fun h => { h with pool := h.pool ++ slots.filter fun n => !h.pool.contains n })) ∧
      (window → w 2 = 0 → (∃ n ∈ slots, n ∉ s.hub.pool) → Obeys (.pool tn) s tn a rest 4 s) ∧
      (window → w 2 = 0 → (∀ n ∈ slots, n ∈ s.hub.pool) →
        Obeys (.pool tn) s tn a rest 0 (s.onHub fun h => { h with pool := h.pool.filter fun n => !slots.contains n })))) ∧
  (WellPut s tn a 8 2 c →
    let window := (w 1).toNat < 0xC000000000 ∧ SMap.look s.hub.window ((w 1).toNat / 2 ^ 21) 0 = tn + 1
    ((w 1).toNat % 65536 ≠ 0 → Obeys (.share tn) s tn a rest 2 s) ∧
    ((w 1).toNat % 65536 = 0 →
      (¬ window → Obeys (.share tn) s tn a rest 4 s) ∧
      (window → Obeys (.share tn) s tn a rest 0 (s.onHub fun h => { h with shared := SMap.put h.shared (w 1).toNat (w 2) 0 })))) ∧
  (WellPut s tn a 9 3 c →
    let blob := Memory.bytes s.mem (hostLoc (w 1).toNat) (w 3).toNat
    let plain := (List.range (w 3).toNat).map fun i => (Config.crypto 0 blob).getD i 0
    ((s.ctx c).encl = false → Obeys (.sealin tn) s tn a rest 5 s) ∧
    (∀ l hint m, (s.ctx c).encl = true → (w 2).toNat % 65536 + (w 3).toNat ≤ 65536 →
      s.devSpot c (w 2) .w = (.loc l hint true, s) →
      (∀ z, Memory.byte m z = (List.range (w 3).toNat).foldl (fun f i => putBytes (s.locPlus l i) [plain.getD i 0] f) (Memory.byte s.mem) z) →
      if Config.verifies 0 blob then Obeys (.sealin tn) s tn a rest 0 ((s.setMem m).onCtx c fun x => { x with digests := x.digests ++ [secret 1 48 blob] })
      else Obeys (.sealin tn) s tn a rest 2 s)) ∧
  (WellPut s tn a 10 1 c →
    ((s.ctx c).encl = false → Obeys (.rekey tn) s tn a rest 5 s) ∧
    (∀ e, (s.ctx c).encl = true → (s.devWalk c (w 1)).1 = .leaf e →
      (e.pte.getLsbD 8 = true → canonical (w 1) = true → Obeys (.rekey tn) s tn a rest 0
        ((s.onCtx c fun x => { x with exhausted := false }).onHub fun h => { h with
          encLines := h.encLines.filter fun l => SMap.look h.encPages (s.slotAt (l.1 * 512) / 65536) 0 != c + 1 })) ∧
      (e.pte.getLsbD 8 = false ∨ canonical (w 1) = false → Obeys (.rekey tn) s tn a rest 2 s))) ∧
  (WellPut s tn a 11 2 c →
    ((s.ctx c).encl = false ∨ 2 ^ 20 ≤ s.hub.reports → Obeys (.attest tn) s tn a rest 5 s) ∧
    ((s.ctx c).encl = true → s.hub.reports < 2 ^ 20 →
      ∃ rep sig, rep.length = 264 ∧ sig.length = 1236 ∧ (rep.drop 0x70).take 32 = Memory.bytes s.mem (hostLoc (w 1).toNat) 32 ∧
        fieldAt rep 0x90 8 = (s.ctx c).policy.toNat ∧ fieldAt rep 0x101 7 = 0 ∧
        Obeys (.attest tn) s tn a rest 0
          ((s.onHub fun h => { h with reports := h.reports + 1 }).setMem (Memory.setBytes s.mem (hostLoc (w 2).toNat) (rep ++ sig)))))

/-! ### Registers, sessions and the sampler -/

/-- A tenant's fault ring, or its error ring. -/
def ringOf (s : State) (tn : Nat) (err : Bool) : Ring := if err then (s.tenant tn).errorRing else (s.tenant tn).faultRing

/-- The state with that ring replaced. -/
def withRing (s : State) (tn : Nat) (err : Bool) (r : Ring) : State :=
  s.onTenant tn fun y => if err then { y with errorRing := r } else { y with faultRing := r }

/-- No other session slot than k of tenant tn is open. -/
def OnlySession (s : State) (tn k : Nat) : Prop := ∀ i j, (i, j) ≠ (tn, k) → (s.sess i j).en = false

/-- LCTL with its reserved bits and EN clear (R313). -/
def lctlOf (v : Dword) : Dword := withBits (withBits (withBits v 63 16 0) 9 4 0) 0 0 0

/-- The code that refuses EN for slot k, of session x with the new LCTL, in the model's order (R314): 0 for none. -/
def OpenCode (s : State) (tn : Nat) (x : Session) (code : Nat) : Prop :=
  let c := dbits x.lctl 15 10
  let n := dbits x.lsize 5 0
  let one := n < (if s.hub.testMode then 12 else 30) ∨ 36 < n ∨ 1 < dbits x.lctl 3 2
  let five := (s.ctx c).used = false ∨ SMap.look s.hub.allot c 0 ≠ tn + 1
  let two := ∃ i, 65536 * i < 2 ^ n ∧ s.larderPage c (x.lbase + BitVec.ofNat 64 (65536 * i)) = false
  let three := (s.session? c).isSome = true ∨ ∃ e ∈ s.hub.crews, e.2.ctx = c ∧ e.2.away = 0
  let four := (s.ctx c).encl = true ∧ (s.ctx c).policy.getLsbD 0 = false
  (one ∧ code = 1) ∨ (¬ one ∧ five ∧ code = 5) ∨ (¬ one ∧ ¬ five ∧ two ∧ code = 2) ∨ (¬ one ∧ ¬ five ∧ ¬ two ∧ three ∧ code = 3) ∨
    (¬ one ∧ ¬ five ∧ ¬ two ∧ ¬ three ∧ four ∧ code = 4) ∨ (¬ one ∧ ¬ five ∧ ¬ two ∧ ¬ three ∧ ¬ four ∧ code = 0)

/-- The events that writes of a tenant's BAR0 are, by their offset (R349). -/
noncomputable def barEvents (tn : Nat) (v : Dword) : List (Nat × Instr) :=
  ((List.range 8).flatMap fun q => [(0x1000 + 32 * q, .qbaseWrite tn q v), (0x1008 + 32 * q, .qctlWrite tn q v), (0x1010 + 32 * q, .qtailDoorbell tn q v)]) ++
  [(0x3010, .ringEnable tn false v), (0x3020, .ringRrdWrite tn false v), (0x3030, .fresWrite tn false v),
   (0x3050, .ringEnable tn true v), (0x3060, .ringRrdWrite tn true v), (0x3070, .fresWrite tn true v)] ++
  (List.range 4).flatMap fun k => [(0x4010 + 64 * k, if v.getLsbD 0 then .sessionOpen tn k v else .sessionClose tn k v),
   (0x4018 + 64 * k, .lwrWrite tn k v), (0x4020 + 64 * k, .lrdWrite tn k v), (0x4028 + 64 * k, .replayResume tn k v)]

/-- RRD and RCTL of the fault and error rings; a session's LCTL, opened, refused or closed, LRD, LWR and LSTAT; a recorder's oldest record goes
into the ring; a register write is the event of its offset, and the rest of the map; the operator's settings (log entry 20); a
sample (R179, R313, R314, R325 to R330, R333 to R336, R349 to R352, R540, R541). -/
def Obligations.RegistersAndSessions : Prop := ∀ s : State, s.hub.doomed = [] → SMap.wf Tenant.reset s.tenants = true →
  (∀ tn err v r, tn < 16 → r = ringOf s tn err →
    let held := s.hub.faults.filter fun e => e.2.stage == 4 && (s.ctx e.2.ctx).tenant == tn
    (v.toNat % 32 ≠ 0 ∨ v.toNat < r.rrd.toNat ∨ r.rwr.toNat < v.toNat →
      exec (.ringRrdWrite tn err v) s = .next (withRing s tn err { r with rstat := withBits r.rstat 63 63 1 })) ∧
    (v.toNat % 32 = 0 → r.rrd.toNat ≤ v.toNat → v.toNat ≤ r.rwr.toNat → err = true ∨ held = [] →
      exec (.ringRrdWrite tn err v) s = .next (withRing s tn err { r with rrd := v })) ∧
    (err = true ∨ held = [] →
      exec (.ringEnable tn err v) s = .next (withRing s tn err { r with rctl := withBits (withBits v 63 27 0) 15 1 0 })) ∧
    (∀ f x y, s.mem.wf = true → err = false → held = [(f, x)] → v.toNat % 32 = 0 → r.rrd.toNat ≤ v.toNat →
      v.toNat ≤ r.rwr.toNat → y = { r with rrd := v } → r.rctl.getLsbD 0 = true → r.rwr.toNat + 32 - v.toNat ≤ r.size →
      ∃ t, exec (.ringRrdWrite tn err v) s = .next t ∧ (t.tenant tn).faultRing = { y with rwr := r.rwr + 32, seq := r.seq + 1 } ∧
        t.hub.faults = SMap.ins s.hub.faults f { x with stage := 5, tag := r.seq % 2 ^ 32 } ∧
        ∀ z, Memory.byte t.mem z = putBytes (hostLoc (r.rbase.toNat / 4096 * 4096 + r.rwr.toNat % r.size))
          (faultRecord x x.pte x.why (r.seq % 2 ^ 32)) (Memory.byte s.mem) z)) ∧
  (∀ tn k v x y, tn < 16 → k < 4 → x = s.sess tn k → y = { x with lctl := lctlOf v } →
    let put := fun (z : Session) => s.onSess tn k fun _ => z
    (v.getLsbD 0 = false → exec (.sessionOpen tn k v) s = .next s) ∧
    (v.getLsbD 0 = true → exec (.sessionClose tn k v) s = .next s) ∧
    (v.getLsbD 0 = true → x.en = true →
      exec (.sessionOpen tn k v) s = .next (if withBits x.lctl 0 0 0 = lctlOf v then s else put { x with lstat := withBits x.lstat 15 8 0x11 })) ∧
    (∀ n, v.getLsbD 0 = true → x.en = false → OpenCode (put y) tn y n → n ≠ 0 →
      exec (.sessionOpen tn k v) s = .next (put { y with lstat := withBits y.lstat 15 8 n })) ∧
    (v.getLsbD 0 = true → x.en = false → OpenCode (put y) tn y 0 → y.replay = false →
      ∃ t nonce, exec (.sessionOpen tn k v) s = .next t ∧ t.groups = s.groups ∧ t.mem = s.mem ∧
        t.sess tn k = { Session.reset with
          lbase := x.lbase, lsize := x.lsize, lctl := withBits y.lctl 0 0 1, lwr := x.lwr, lrd := x.lrd, lstop := x.lstop, nonce := nonce
          bufs := vset Session.reset.bufs 12 [mkRec 0x1E 24 15 [(16, 12, s.hub.device.toNat), (32, 6, dbits v 15 10), (64, 64, nonce.toNat)]] }) ∧
    (v.getLsbD 0 = false → x.en = false → exec (.sessionClose tn k v) s = .next (put y)) ∧
    (v.getLsbD 0 = false → x.en = true → withBits x.lctl 0 0 0 = lctlOf v →
      (x.closing = true → exec (.sessionClose tn k v) s = .next s) ∧
      (x.closing = false → x.replay = false ∨ ((s.gidsCtx x.ctx) = [] ∧ ∀ e ∈ s.hub.launches, e.2.ctx ≠ x.ctx) →
        exec (.sessionClose tn k v) s = .next (put { x with closing := true, lstat := withBits x.lstat 1 1 0 }))) ∧
    (x.closing = false → exec (.sessionCloseComplete tn k) s = .next s) ∧
    (x.closing = true → (s.ctx x.ctx).used = true → x.replay = false → (∃ b ∈ x.bufs.toList, b ≠ []) → exec (.sessionCloseComplete tn k) s = .next s) ∧
    (x.closing = true → s.gidsCtx x.ctx = [] → (s.ctx x.ctx).used = false ∨ (x.replay = true ∧ ∀ e ∈ s.hub.launches, e.2.ctx ≠ x.ctx) ∨
        (x.replay = false ∧ x.bufs = Session.reset.bufs ∧ x.horizon = false ∧ (s.ctx x.ctx).encl = false) →
      exec (.sessionCloseComplete tn k) s =
        .next (put { x with lctl := withBits x.lctl 0 0 0, closing := false, log := [], bufs := Session.reset.bufs })) ∧
    (x.replay = true → exec (.lrdWrite tn k v) s = .next s) ∧
    (x.replay = false →
      (v = x.lwr ∨ (v = x.lrd ∧ v.toNat ≤ x.lwr.toNat) → exec (.lrdWrite tn k v) s = .next (put { x with lrd := v, lstat := withBits x.lstat 1 1 0 })) ∧
      (∀ h n, s.ringGet x x.lrd.toNat 8 = some h → n = x.lrd.toNat + 8 * (recField h 6 5 + 1) → v.toNat < x.lwr.toNat →
        (v.toNat = n → exec (.lrdWrite tn k v) s = .next (put { x with lrd := v, lstat := withBits x.lstat 1 1 0 })) ∧
        (x.lrd.toNat < v.toNat → v.toNat < n → exec (.lrdWrite tn k v) s = .next (put { x with lstat := withBits x.lstat 15 8 0x10 }))) ∧
      (x.lwr.toNat < v.toNat ∨ v.toNat < x.lrd.toNat → v ≠ x.lwr →
        exec (.lrdWrite tn k v) s = .next (put { x with lstat := withBits x.lstat 15 8 0x10 }))) ∧
    (x.replay = false → exec (.lwrWrite tn k v) s = .next s) ∧
    (x.replay = true →
      (x.en = false → exec (.lwrWrite tn k v) s = .next (put { x with lwr := v })) ∧
      (∀ u h b n, x.en = true → (s.ctx x.ctx).encl = false → x.log = [] → u = put { x with lwr := v } →
        u.ringGet (u.sess tn k) x.lrd.toNat 8 = some h → x.lrd.toNat + 8 ≤ v.toNat → n = 8 * (recField h 6 5 + 1) →
        (v.toNat = x.lrd.toNat + n → u.ringGet (u.sess tn k) x.lrd.toNat n = some b → recKind h ∈ [1, 3, 4, 5, 6, 7, 8, 9, 10, 12] →
          recKind b = recKind h →
          exec (.lwrWrite tn k v) s = .next (put { x with lwr := v, lrd := v, log := [b] })) ∧
        (recKind h = 0 ∨ (13 ≤ recKind h ∧ recKind h < 0x1C) → u.session? x.ctx = some (tn, k) → s.gidsCtx x.ctx = [] → x.lstat.getLsbD 2 = false →
          exec (.lwrWrite tn k v) s = .next (put { x with lwr := v, lstat := withBits (withBits x.lstat 15 8 5) 2 2 1 })))) ∧
    (∀ y, y = (if v.getLsbD 2 && x.lstat.getLsbD 2 then { x with lstat := withBits (withBits x.lstat 15 8 0) 2 2 0 } else x) →
      (v.getLsbD 3 = false ∨ x.lstat.getLsbD 3 = false → exec (.replayResume tn k v) s = .next (put y)) ∧
      (v.getLsbD 3 = true → x.lstat.getLsbD 3 = true →
        let w := put { y with lstat := withBits y.lstat 3 3 0 }
        (x.lstop.getLsbD 63 = true → dbits x.lstop 47 0 < vat x.order (dbits x.lstop 51 48) 0 → exec (.replayResume tn k v) s = .next w) ∧
        (x.lstop.getLsbD 63 = false ∨ vat x.order (dbits x.lstop 51 48) 0 ≤ dbits x.lstop 47 0 → Canonical s →
          ∃ t, exec (.replayResume tn k v) s = .next t ∧ t.tenants = w.tenants ∧ t.mem = s.mem ∧ ∀ g,
            t.grp g = if (s.grp g).used = true ∧ (s.grp g).ctx = x.ctx then { s.grp g with halted := false } else s.grp g)))) ∧
  (∀ tn k u x r l, tn < 16 → k < 4 → u < 13 → OnlySession s tn k → x = s.sess tn k → x.en = true → x.replay = false →
    let put := fun (z : Session) => s.onSess tn k fun _ => z
    let need := x.lwr.toNat + r.length - x.lrd.toNat + 64
    (vat x.bufs u [] = [] → exec (.recorderSpill u) s = .next s) ∧
    (u ≠ 12 → (∃ b ∈ vat x.bufs 12 [], recKind b = 0x1E) → exec (.recorderSpill u) s = .next s) ∧
    (vat x.bufs u [] = r :: l → u = 12 ∨ (∀ b ∈ vat x.bufs 12 [], recKind b ≠ 0x1E) →
      (x.horizon = true → exec (.recorderSpill u) s = .next (put { x with bufs := vset x.bufs u l, dropped := x.dropped + 1 })) ∧
      (x.horizon = false → (s.ctx x.ctx).encl = false → x.pad r.length = 0 →
        (2 ^ dbits x.lsize 5 0 < need → dbits x.lctl 3 2 ≠ 1 →
          exec (.recorderSpill u) s = .next (put { x with lstat := withBits x.lstat 1 1 (if x.closing then 0 else 1) })) ∧
        (∀ a hint enc n, need ≤ 2 ^ dbits x.lsize 5 0 → Calm s → r.length = 8 * n → isSpad (a + r.length) = false →
          (∀ i v, i < n → v = s.setMem (Memory.setBytes s.mem a (r.take (8 * i))) →
            v.devSpot x.ctx (x.at_ (x.lwr.toNat + 8 * i)) .w = (.loc (a + 8 * i) hint enc, v)) →
          exec (.recorderSpill u) s = .next ((s.setMem (Memory.setBytes s.mem a r)).onSess tn k fun _ => { x with
            lwr := BitVec.ofNat 64 (x.lwr.toNat + r.length), bufs := vset x.bufs u l
            unsealed := if recKind r = 0x1C then 0 else x.unsealed + r.length }))))) ∧
  (∀ tn v, tn < 16 →
    (∀ e ∈ barEvents tn v, exec (.registerWrite tn e.1 v) s = exec e.2 s) ∧
    (∀ core off, core < 768 → off < 0x200 → exec (.registerWrite tn (0x100000 + 0x200 * core + off) v) s = exec (.debugRegisterWrite tn core off v) s) ∧
    (∀ off, off % 8 ≠ 0 → exec (.registerWrite tn off v) s = .next s) ∧
    (∀ q x, q < 8 → x = s.subq tn q → exec (.registerWrite tn (0x1018 + 32 * q) v) s =
      .next (if v.getLsbD 15 then s.setSubq tn q { x with qhead := withBits (withBits x.qhead 31 24 0) 15 15 0 } else s)) ∧
    (exec (.registerWrite tn 0x2000 v) s = .next (s.onTenant tn fun y =>
      if 64 ≤ y.cmds.length then { y with ovf := true } else if v.toNat % 64 ≠ 0 then { y with align := true } else { y with cmds := y.cmds ++ [v] })) ∧
    (exec (.registerWrite tn 0x2008 v) s = .next (s.onTenant tn fun y => { y with ovf := y.ovf && !v.getLsbD 16, align := y.align && !v.getLsbD 17 })) ∧
    (∀ err r o, r = ringOf s tn err → o = (if err then 0x3040 else 0x3000) →
      exec (.registerWrite tn o v) s = .next (withRing s tn err (if r.rctl.getLsbD 0 then { r with rstat := withBits r.rstat 63 63 1 }
        else { r with rbase := withBits v 11 0 0 })) ∧
      exec (.registerWrite tn (o + 8) v) s = .next (withRing s tn err (if r.rctl.getLsbD 0 = true ∨ dbits v 5 0 < 12 ∨ 24 < dbits v 5 0
        then { r with rstat := withBits r.rstat 63 63 1 } else { r with rlog2 := BitVec.ofNat 64 (dbits v 5 0) })) ∧
      exec (.registerWrite tn (o + 0x28) v) s = .next (if v.getLsbD 63 then withRing s tn err { r with rstat := withBits r.rstat 63 63 0 } else s)) ∧
    (∀ k x, k < 4 → x = s.sess tn k → x.en = false →
      exec (.registerWrite tn (0x4000 + 64 * k) v) s = .next (s.onSess tn k fun _ => { x with lbase := withBits v 19 0 0 }) ∧
      exec (.registerWrite tn (0x4008 + 64 * k) v) s = .next (s.onSess tn k fun _ => { x with lsize := BitVec.ofNat 64 (dbits v 5 0) })) ∧
    (∀ i, i < 7 → exec (.registerWrite tn (0x5000 + 8 * i) v) s = .next (s.onTenant tn fun y => { y with mailbox := vset y.mailbox i v })) ∧
    (∀ m core, m = vset (s.tenant tn).mailbox 7 v → dbits (vat m 0 0) 7 0 = 2 → core = dbits (vat m 0 0) 25 16 → core < 768 →
      exec (.registerWrite tn 0x5038 v) s = .next ((s.onTenant tn fun y => { y with mailbox := m }).onCore core fun c =>
        { c with dbg := c.dbg ++ [{ msg := m, host := true, tenant := tn, ctx := dbits (vat m 0 0) 31 26, waiting := [], begun := false }] })) ∧
    (∀ r, r = (s.tenant tn).debugRing →
      exec (.registerWrite tn 0x5050 v) s = .next (s.onTenant tn fun y => { y with debugRing := if v.toNat ≤ 1 then { r with sen := v } else r })) ∧
    (∀ r, r = (s.tenant tn).sampleRing →
      exec (.registerWrite tn 0x6010 v) s = .next (s.onTenant tn fun y => { y with sampleRing := { r with sen := v } }) ∧
      (r.sen = 0 → exec (.registerWrite tn 0x6000 v) s = .next (s.onTenant tn fun y => { y with sampleRing := { r with sbase := withBits v 11 0 0 } })))) ∧
  (∀ v,
    (∀ c, c < 64 → v.toNat ≤ 16 → (s.ctx c).used = false → exec (.registerWrite 16 (8 * c) v) s =
      .next (s.onHub fun h => { h with allot := SMap.put h.allot c v.toNat 0 })) ∧
    (∀ core, core < 768 → 6 ≤ v.toNat → v.toNat ≤ 20 → exec (.registerWrite 16 (0x8000 + 8 * core) v) s =
      .next (s.onCore core fun k => { k with sampleK := v.toNat })) ∧
    (∀ f, f < 393216 → v.toNat ≤ 16 → s.frameHeld f = false → exec (.registerWrite 16 (0x1000000 + 8 * f) v) s =
      .next (s.onHub fun h => { h with window := SMap.put h.window f v.toNat 0 }))) ∧
  (∀ core k, core < 768 → k = s.core core →
    (k.cycles % 2 ^ k.sampleK ≠ 0 ∨ k.cycles = k.sampledAt → exec (.sample core) s = .next s) ∧
    (k.cycles % 2 ^ k.sampleK = 0 → k.cycles ≠ k.sampledAt →
      ((∀ i, i < 24 → (s.grp (24 * core + i)).used = false) → exec (.sample core) s = .next (s.setCore core { k with sampledAt := k.cycles })) ∧
      (∀ g x tn r, s.mem.wf = true → g / 24 = core → x = s.grp g → x.used = true → (∀ h, h / 24 = core → h ≠ g → (s.grp h).used = false) →
        tn = (s.ctx x.ctx).tenant → r = (s.tenant tn).sampleRing → x.ctx < 64 → x.wait.code < 32 → r.sen.getLsbD x.ctx = true → (s.ctx x.ctx).encl = false → r.lost = 0 →
        r.swr.toNat % r.size + 16 ≤ r.size → r.swr.toNat + 32 - r.srd.toNat ≤ r.size →
        ∃ t rec, exec (.sample core) s = .next t ∧ t.groups = s.groups ∧ (t.tenant tn).sampleRing.swr = r.swr + 16 ∧ rec.length = 16 ∧ recKind rec = 1 ∧
          recField rec 16 10 = core ∧ recField rec 26 1 = g % 24 / 12 ∧ recField rec 27 4 = g % 12 ∧ recField rec 37 6 = x.ctx ∧
          recField rec 43 15 = x.ordinal % 2 ^ 15 ∧ recField rec 64 56 = dbits x.pc 55 0 ∧
          ∀ z, Memory.byte t.mem z =
            putBytes (hostLoc (r.sbase.toNat / 4096 * 4096 + r.swr.toNat % r.size)) rec (Memory.byte s.mem) z)))

/-! ### Debug registers and commands -/

/-- EN of a breakpoint or watchpoint control word names a context that is not allotted to tenant tn (R338). -/
def Foreign (s : State) (tn : Nat) (v : Dword) : Prop := v.getLsbD 0 = true ∧ SMap.look s.hub.allot (dbits v 15 10) 0 ≠ tn + 1

/-- EN of a control word names an enclave context whose attestation lacks DEBUG (R338). -/
def Undebuggable (s : State) (v : Dword) : Prop := v.getLsbD 0 = true ∧ (s.ctx (dbits v 15 10)).encl = true ∧ (s.ctx (dbits v 15 10)).policy.getLsbD 2 = false

/-- A watchpoint keeps the field rules once it is enabled (R338). -/
def WatchFits (w : WatchReg) : Prop :=
  w.wpc.getLsbD 0 = true → (if w.wpc.getLsbD 6 then w.wpa.toNat < 2 ^ 25 else canonical w.wpa = true) ∧ w.wpa.toNat < w.wpl.toNat

/-- What a write of a control word does: the code of its refusal, in the order of R338, or 0. -/
def WriteCode (s : State) (tn : Nat) (old new : Dword) (fits : Prop) (code : Nat) : Prop :=
  let one := Foreign s tn old ∨ Foreign s tn new
  (one ∧ code = 1) ∨ (¬ one ∧ ¬ fits ∧ code = 2) ∨ (¬ one ∧ fits ∧ Undebuggable s new ∧ code = 3) ∨ (¬ one ∧ fits ∧ ¬ Undebuggable s new ∧ code = 0)

/-- A core whose debug block refused a write (R338). -/
def refusedWrite (k : Core) (code : Nat) : Core := { k with derr := withBits (withBits k.derr 15 8 code) 0 0 1 }

/-- A core with breakpoint i, or watchpoint i, replaced. -/
def withBreak (k : Core) (i : Nat) (b : BreakReg) : Core := { k with breaks := SMap.put k.breaks i b { bpa := 0, bpc := 0 } }
def withWatch (k : Core) (i : Nat) (w : WatchReg) : Core := { k with watches := SMap.put k.watches i w { wpa := 0, wpl := 0, wpc := 0 } }

/-- The registers that written values make (R338): reserved bits read zero. -/
def breakFrom (a c : Dword) : BreakReg := { bpa := withBits (withBits a 63 56 0) 1 0 0, bpc := withBits c 7 1 0 }
def watchFrom (a l c : Dword) : WatchReg := { wpa := a, wpl := l, wpc := withBits (withBits c 63 16 0) 3 1 0 }

/-- The oldest command of a core's debug unit: a context and tenant that may command, no session, and a reply to host memory, or none. -/
structure Debugs (s : State) (core : Nat) (d : DbgCmd) (rest : List DbgCmd) : Prop where
  unit : core < 768
  head : (s.core core).dbg = d :: rest
  doomed : s.hub.doomed = []
  place : d.host = true ∧ s.hub.linkUp = true ∨ vat d.msg 7 0 = 0
  plain : s.session? (dbits (vat d.msg 0 0) 31 26) = none
  canon : Canonical s

/-- The 64 bytes of a reply: KIND 0x82, OP, STATUS and TAG, then doublewords 1 to 3 (R345). -/
def replyBytes (d : DbgCmd) (status : Nat) (l : List Dword) : List Byte :=
  leBytes 8 (0x82 + dbits (vat d.msg 0 0) 15 8 * 256 + status * 65536 + dbits (vat d.msg 0 0) 63 32 * 2 ^ 32) ++
  leBytes 8 (l.getD 0 0).toNat ++ leBytes 8 (l.getD 1 0).toNat ++ leBytes 8 (l.getD 2 0).toNat ++ leBytes 32 0

/-- Memory with the reply of a command at its reply address, if it has one. -/
def replied (d : DbgCmd) (status : Nat) (l : List Dword) (f : Nat → Byte) : Nat → Byte :=
  if vat d.msg 7 0 = 0 then f else putBytes (hostLoc (vat d.msg 7 0).toNat) (replyBytes d status l) f

/-- The event i is the end of a command: the machine is u with the command gone and its reply written. -/
def Replies (i : Instr) (s : State) (core : Nat) (d : DbgCmd) (status : Nat) (l : List Dword) (u : State) : Prop :=
  ∃ m, exec i s = .next { u.onCore core (fun k => { k with dbg := k.dbg.drop 1 }) with mem := m } ∧ ∀ z, Memory.byte m z = replied d status l (Memory.byte u.mem) z

/-- The command names the group g, in a slot of the core and the only one of its context with the ordinal (R279). -/
structure Names (s : State) (core : Nat) (d : DbgCmd) (g : Nat) : Prop where
  slot : g < 18432 ∧ coreOf g = core
  group : (s.grp g).used = true ∧ (s.grp g).ctx = dbits (vat d.msg 0 0) 31 26 ∧ (s.grp g).ordinal = dbits (vat d.msg 1 0) 14 0
  alone : ∀ h, (s.grp h).used = true → (s.grp h).ctx = (s.grp g).ctx → (s.grp h).ordinal = (s.grp g).ordinal → h = g

/-- Group h, on a core or away, belongs to the set of g at a granularity: itself, its crew, its core or its context (R338, R342). -/
def InSet (s : State) (g gran h : Nat) : Prop :=
  h = g ∨ ((s.grp h).used = true ∧ (s.grp h).ctx = (s.grp g).ctx ∧
    ((gran = 1 ∧ (s.grp h).crew = (s.grp g).crew) ∨ (gran = 2 ∧ coreOf h = coreOf g) ∨ gran = 3))

/-- What tells the halt of group g, of reason 4: the core, context and ordinal, the PC, EM and LIVE (R345). -/
def haltEvent (s : State) (g : Nat) : List Byte :=
  let x := s.grp g
  leBytes 8 (0x81 + 4 * 256 + coreOf g * 65536 + x.ctx * 2 ^ 26 + x.ordinal % 2 ^ 15 * 2 ^ 32) ++ leBytes 8 x.pc.toNat ++
    leBytes 8 (x.em.toNat + x.live.toNat * 2 ^ 32) ++ leBytes 40 0

/-- The events of the commands with their OP. -/
noncomputable def debugCommands (core : Nat) : List (Instr × Nat) :=
  [(.wrbp core, 1), (.wrwp core, 2), (.halt core, 3), (.resume core, 4), (.step core, 5), (.rdst core, 6), (.rdv core, 7), (.setev core, 8)]

/-- Writes of a debug block, taken or refused; WRBP, WRWP and SETEV; HALT of a group's set, with its event; RESUME; STEP and its reply; RDST and
RDV of a halted group; what a command may not do, an unknown group and a group away from the core (R338, R342 to R345, R523, R541). -/
def Obligations.DebugCommands : Prop := ∀ s : State,
  (∀ tn core k v, tn < 16 → core < 768 → k = s.core core → s.hub.doomed = [] →
    (∀ i b n, i < 8 → b = SMap.look k.breaks i { bpa := 0, bpc := 0 } → b = breakFrom b.bpa b.bpc →
      (∀ a, a = (breakFrom v b.bpc).bpa → WriteCode s tn b.bpc b.bpc (dbits b.bpc 21 20 ≠ 3) n →
        exec (.debugRegisterWrite tn core (16 * i) v) s = .next (s.setCore core (if n = 0 then withBreak k i { b with bpa := a } else refusedWrite k n))) ∧
      (∀ c, c = (breakFrom b.bpa v).bpc → WriteCode s tn b.bpc c (dbits c 21 20 ≠ 3) n →
        exec (.debugRegisterWrite tn core (16 * i + 8) v) s = .next (s.setCore core (if n = 0 then withBreak k i { b with bpc := c } else refusedWrite k n)))) ∧
    (∀ i w x f n, i < 4 → w = SMap.look k.watches i { wpa := 0, wpl := 0, wpc := 0 } → f < 3 → w.wpc = (watchFrom 0 0 w.wpc).wpc →
      x = (if f = 0 then { w with wpa := v } else if f = 1 then { w with wpl := v } else { w with wpc := (watchFrom 0 0 v).wpc }) →
      WriteCode s tn w.wpc x.wpc (WatchFits x) n →
      exec (.debugRegisterWrite tn core (0x80 + 24 * i + 8 * f) v) s = .next (s.setCore core (if n = 0 then withWatch k i x else refusedWrite k n))) ∧
    (exec (.debugRegisterWrite tn core 0xE8 v) s = .next (if v.getLsbD 0 then s.setCore core { k with derr := withBits k.derr 0 0 0 } else s)) ∧
    ∀ off, off % 8 ≠ 0 ∨ off = 0xE0 ∨ 0xF0 ≤ off → exec (.debugRegisterWrite tn core off v) s = .next s) ∧
  (∀ core d rest l hint enc u, core < 768 → (s.core core).dbg = d :: rest → s.hub.doomed = [] → Canonical s → Calm s →
    let w := vat d.msg
    let c := dbits (w 0 0) 31 26
    d.host = false → d.ctx = c → (s.ctx c).used = true → (s.ctx c).encl = false → s.session? c = none → dbits (w 0 0) 15 8 = 8 → (w 1 0).toNat % 64 = 0 →
      w 7 0 ≠ 0 → u = s.onCore core (fun k => { k with
        dbg := rest, setev := if w 1 0 = 0 then none else some { addr := w 1 0, host := false, tenant := d.tenant, ctx := c } }) →
      u.devSpot c (w 7 0) .w = (.loc l hint enc, u) → isSpad (l + 4096) = false →
      ∃ m, exec (.setev core) s = .next { u with mem := m } ∧ ∀ z, Memory.byte m z = putRow s l (replyBytes d 0 []) (Memory.byte s.mem) z) ∧
  ∀ core d rest, Debugs s core d rest →
    let w := vat d.msg
    let op := dbits (w 0 0) 15 8
    let c := dbits (w 0 0) 31 26
    let foreign := (d.host = true ∧ SMap.look s.hub.allot c 0 ≠ d.tenant + 1) ∨ (d.host = false ∧ (d.ctx ≠ c ∨ (s.ctx c).used = false))
    let barred := (s.ctx c).encl = true ∧ (s.ctx c).policy.getLsbD 2 = false
    let may := ¬ foreign ∧ ¬ barred
    (∀ e ∈ debugCommands core,
      (op = 0 ∨ 8 < op → Replies e.1 s core d 3 [] s) ∧
      (op = e.2 → (foreign → Replies e.1 s core d 1 [] s) ∧ (¬ foreign → barred → Replies e.1 s core d 4 [] s)) ∧
      (e.2 ∈ [3, 4, 5, 6, 7] → op = e.2 → may → d.begun = false →
        ((∀ g, (s.grp g).used = true → (s.grp g).ctx = c → (s.grp g).ordinal ≠ dbits (w 1 0) 14 0) → Replies e.1 s core d 2 [] s) ∧
        (∀ g, s.ordinalOn core c (dbits (w 1 0) 14 0) = some g → 18432 ≤ g → exec e.1 s = .next s) ∧
        (∀ g, Names s core d g → (s.grp g).halted = false → e.2 ≠ 3 → Replies e.1 s core d 2 [] s))) ∧
    (may →
      (op = 1 → ∀ i b n old, i = (w 1 0).toNat → b = breakFrom (w 2 0) (w 3 0) → old = (SMap.look (s.core core).breaks i { bpa := 0, bpc := 0 }).bpc →
        (8 ≤ i → Replies (.wrbp core) s core d 3 [] s) ∧
        (i < 8 →
          let ours := d.host = true ∨ ((old.getLsbD 0 = true → dbits old 15 10 = c) ∧ (b.bpc.getLsbD 0 = true → dbits b.bpc 15 10 = c))
          (¬ ours → Replies (.wrbp core) s core d 1 [] s) ∧
          (ours → WriteCode s d.tenant old b.bpc (dbits b.bpc 21 20 ≠ 3) n →
            (n ≠ 0 → Replies (.wrbp core) s core d (if n = 1 then 1 else if n = 3 then 4 else 3) [] s) ∧
            (n = 0 → Replies (.wrbp core) s core d 0 [] (s.setCore core (withBreak (s.core core) i b)))))) ∧
      (op = 2 → ∀ i a x n old, i = dbits (w 1 0) 57 56 → a = BitVec.ofNat 64 (dbits (w 1 0) 55 0) →
        x = watchFrom (if (w 3 0).getLsbD 6 then a else (a.truncate 56).signExtend 64) (w 2 0) (w 3 0) →
        old = (SMap.look (s.core core).watches i { wpa := 0, wpl := 0, wpc := 0 }).wpc →
        (dbits (w 1 0) 63 58 ≠ 0 → Replies (.wrwp core) s core d 3 [] s) ∧
        (dbits (w 1 0) 63 58 = 0 →
          let ours := d.host = true ∨ ((old.getLsbD 0 = true → dbits old 15 10 = c) ∧ (x.wpc.getLsbD 0 = true → dbits x.wpc 15 10 = c))
          (¬ ours → Replies (.wrwp core) s core d 1 [] s) ∧
          (ours → WriteCode s d.tenant old x.wpc (WatchFits x) n →
            (n ≠ 0 → Replies (.wrwp core) s core d (if n = 1 then 1 else if n = 3 then 4 else 3) [] s) ∧
            (n = 0 → Replies (.wrwp core) s core d 0 [] (s.setCore core (withWatch (s.core core) i x)))))) ∧
      (op = 8 →
        ((w 1 0).toNat % 64 ≠ 0 → Replies (.setev core) s core d 3 [] s) ∧
        ((w 1 0).toNat % 64 = 0 → Replies (.setev core) s core d 0 [] (s.onCore core fun k => { k with
          setev := if w 1 0 = 0 then none else some { addr := w 1 0, host := d.host, tenant := d.tenant, ctx := if d.host then c else d.ctx } }))) ∧
      (∀ g, Names s core d g →
        (op = 3 → (s.ctx c).tenant < 16 → (s.tenant (s.ctx c).tenant).debugRing.sen = 0 →
          (∀ h, (s.grp h).ctx = c → (s.grp h).runAhead = none ∧ (s.grp h).chunk.count = 0) →
          ((∀ n, (s.core n).setev = none) → ∃ t, exec (.halt core) s = .next t ∧ t.clusters = s.clusters ∧ t.hub = s.hub ∧
            (t.core core).dbg = rest ∧ (∀ z, Memory.byte t.mem z = replied d 0 [] (Memory.byte s.mem) z) ∧
            (∀ h, InSet s g (dbits (w 1 0) 17 16) h → t.grp h = if (s.grp h).halted then s.grp h else { s.grp h with halted := true, step := none }) ∧
            ∀ h, ¬ InSet s g (dbits (w 1 0) 17 16) h → t.grp h = s.grp h) ∧
          (∀ a tn n, (s.core core).setev = some { addr := a, host := true, tenant := tn, ctx := n } → tn = (s.ctx c).tenant → s.hub.linkUp = true →
            dbits (w 1 0) 17 16 = 0 → (s.grp g).halted = false → w 7 0 = 0 →
            ∃ t, exec (.halt core) s = .next t ∧ (t.grp g).halted = true ∧ ∀ z, Memory.byte t.mem z = putBytes (hostLoc a.toNat) (haltEvent s g) (Memory.byte s.mem) z)) ∧
        ((s.grp g).halted = true →
          (op = 4 → (∃ h, InSet s g (dbits (w 1 0) 17 16) h ∧ 18432 ≤ h ∧ (s.grp h).halted = true) → exec (.resume core) s = .next s) ∧
          (op = 4 → (∀ h, InSet s g (dbits (w 1 0) 17 16) h → h < 18432 ∨ (s.grp h).halted = false) → ∃ t, exec (.resume core) s = .next t ∧ t.clusters = s.clusters ∧ t.hub = s.hub ∧ (t.core core).dbg = rest ∧
            (∀ z, Memory.byte t.mem z = replied d 0 [] (Memory.byte s.mem) z) ∧
            (∀ h, InSet s g (dbits (w 1 0) 17 16) h → t.grp h = { s.grp h with halted := false }) ∧
            ∀ h, ¬ InSet s g (dbits (w 1 0) 17 16) h → t.grp h = s.grp h) ∧
          (op = 5 → d.begun = false → exec (.step core) s = .next ((s.setGrp g { s.grp g with halted := false, step := some ((w 1 0).getLsbD 16) }).onCore core
            fun k => { k with dbg := { d with waiting := [g], begun := true } :: rest })) ∧
          (op = 6 → Replies (.rdst core) s core d 0 [(s.grp g).pc, BitVec.ofNat 64 ((s.grp g).em.toNat + (s.grp g).live.toNat * 2 ^ 32), 27] s) ∧
          (op = 7 → ∀ f r, f = dbits (w 1 0) 22 16 →
            (min 96 (s.grp g).av ≤ f → f < 96 ∨ 120 ≤ f → Replies (.rdv core) s core d 3 [] s) ∧
            (d.host = true → w 7 0 ≠ 0 →
              (f < min 96 (s.grp g).av ∧ r = SMap.look (s.grp g).vregs ((s.grp g).vb + f) Lanes.zero) ∨
                (96 ≤ f ∧ f < 112 ∧ r = vat (s.grp g).ofile (f - 96) Lanes.zero) ∨ (112 ≤ f ∧ f < 120 ∧ r = vat (s.grp g).hfile (f - 112) Lanes.zero) →
              ∃ m, exec (.rdv core) s = .next { s.onCore core (fun k => { k with dbg := k.dbg.drop 1 }) with mem := m } ∧
                ∀ z, Memory.byte m z = replied d 0 []
                  (putBytes (hostLoc ((w 7 0).toNat + 64)) (r.toList.flatMap fun v => leBytes 4 v.toNat) (Memory.byte s.mem)) z)))) ∧
      (op = 5 → d.begun = true →
        ((∃ g ∈ d.waiting, (s.grp g).used = true ∧ (s.grp g).step ≠ none) → exec (.step core) s = .next s) ∧
        ((∀ g ∈ d.waiting, (s.grp g).used = false ∨ (s.grp g).step = none) → Replies (.step core) s core d 0 [] s)))

/-! ### The machine as a whole -/

/-- Words written out from the encodings of the spec decode to their instructions: SADD s1, s2, s3; SADDI s4, s5, -1; VADD.I32 with the marker;
a branch; RDCYC s2; LD of a doubleword behind an ORD prefix; an IMM prefix; a reserved major (R100, R103, R108, R112, R127, R438). -/
def Obligations.DecodeSamples : Prop :=
  decodeWords [0x04004103] = .ok (.sadd ⟨false, Pfx.none⟩ 1 2 3) [] ∧
  decodeWords [0x08102FFF] = .ok (.saddi ⟨false, Pfx.none⟩ 4 5 (-1)) [] ∧
  decodeWords [0x01008000] = .ok (.rdcyc ⟨false, Pfx.none⟩ 2) [] ∧
  decodeWords [0xA2008183] = .ok (.vaddI32 ⟨true, Pfx.none⟩ 2 3 3) [] ∧
  decodeWords [0x02000001, 0x04004103] = .ok (.sadd ⟨false, { Pfx.none with imm := some 1 }⟩ 1 2 3) [] ∧
  decodeWords [0x74000000] = .illegal ⟨1, 0x74000000⟩

/-- The decoder reads every instruction that a bundle encodes back from its words, prefixes and operand fields alike, and takes no word behind
it (R100, R101, R103, R127). -/
def Obligations.DecodeEncode : Prop := ∀ (i : Instr) (rest : List Word), i.WellFormed = true → decodeWords (encode i ++ rest) = .ok i rest

/-- Group g's fetch finds word w at an address: in an unmarked sector that its cluster's L2 holds, through its TLB. -/
def WordAt (s : State) (g : Nat) (va : Dword) (w : Word) : Prop :=
  ∃ l hint enc, s.spot g va .x false = (.loc l hint enc, s) ∧
    let x := s.sector (cluOf (coreOf g)) l
    x.mark = 0 ∧ x.poison = false ∧ x.valid &&& byteMask (l % 64) 4 = byteMask (l % 64) 4 ∧ ∀ i, i < 4 → x.byte (l % 64 + i) = (bytesOf w).getD i 0

/-- Group g makes the next step: by the agenda, or by the default move (log entries 1 and 2); u is the machine with that move taken off. -/
def Moves (s : State) (g : Nat) (u : State) : Prop :=
  (∃ r, s.agenda = .issue g :: r ∧ u = { s with agenda := r }) ∨ (s.agenda = [] ∧ s.defaultMove = some (.issue g) ∧ u = s)

/-- What a step makes of a bundle's outcome: the issue cycle passes (R78). -/
def afterIssue (g : Nat) : Host.Outcome State Fault Refusal → Host.Outcome State Fault Refusal
  | .next t => .next (t.issued g)
  | o => o

/-- When the words at a group's pc decode to an instruction, the step that issues the group, in the first cycle in which a scheduler of its core
can issue and when it is that scheduler's choice, is that instruction's exec, at the state in which the group's bundle is its current one, and
then the issue cycle; words that decode to none raise ILLEGAL (R76 to R79, R101, R124, R137). -/
def Obligations.StepRunsDecoded : Prop := ∀ (s : State) (g : Nat) (u w v : State) (ws : List Word), Moves s g u → g < 18432 → w = u.toIssue g 3 →
  v = w.atBundle g → u.session? (u.grp g).ctx = none → v.session? (v.grp g).ctx = none → w.mayIssue g = true → v.ready g = true →
  (w.grp g).fresh = false ∨ v.breakAt g = none → (v.grp g).underWay = false →
  (∀ k, k < ws.length → WordAt v g ((v.grp g).pc + BitVec.ofNat 64 (4 * k)) (ws.getD k 0)) →
  (∀ i, decodeWords ws = .ok i [] → Machine.step s = afterIssue g (exec i (v.onGrp g fun x => { x with bundle := ws }))) ∧
  (∀ e, decodeWords ws = .illegal e → decodeWords ws.dropLast = .short → Machine.step s = afterIssue g (exec (.illegalWord e.reason e.word) v))

/-- The machine after reset: no group, no context, no launch, every queue, ring, session and debug register 0, a miss exponent of 16 in each
slice, every memory byte 0 (log entry 4), the device up with its link; and its tables are in canonical form (R52, R179, R313, R338, R352). -/
def Obligations.ResetState : Prop :=
  Canonical State.reset ∧ State.reset.gidsAll = [] ∧ (∀ c, (State.reset.ctx c).used = false) ∧ State.reset.hub.launches = [] ∧
  (∀ tn q, State.reset.subq tn q = { qbase := 0, qctl := 0, qtail := 0, qhead := 0, last := none }) ∧
  (∀ tn err, ringOf State.reset tn err = { rbase := 0, rlog2 := 0, rctl := 0, rwr := 0, rrd := 0, rstat := 0, seq := 0 }) ∧
  (∀ tn k, let x := State.reset.sess tn k
    x.lbase = 0 ∧ x.lsize = 0 ∧ x.lctl = 0 ∧ x.lwr = 0 ∧ x.lrd = 0 ∧ x.lstat = 0 ∧ x.lstop = 0) ∧
  (∀ c, (State.reset.core c).breaks = [] ∧ (State.reset.core c).watches = [] ∧ (State.reset.core c).derr = 0 ∧ (State.reset.core c).cycles = 0) ∧
  (∀ n, (SMap.look State.reset.hub.slices n Slice.reset).w = 16) ∧ (∀ a, Memory.byte State.reset.mem a = 0) ∧
  State.reset.hub.up = true ∧ State.reset.hub.linkUp = true ∧ State.reset.hub.testMode = false

/-- Every step keeps memory, the group slots and the cores in canonical form: equal contents are equal lists, and no listed byte is one that an
unlisted address reads as (log entry 4). -/
def Obligations.StepKeepsCanonical : Prop := ∀ s t : State, Canonical s → Machine.step s = .next t → Canonical t

/-- No instruction of a bundle stops the machine; an event stops it only when it names a unit that the machine does not have, and a step never
refuses (log entry 1). -/
def Obligations.NothingRefused : Prop :=
  (∀ (i : Instr) (s : State), i.pre?.isSome = true → ∃ t, exec i s = .next t) ∧
  (∀ (i : Instr) (s : State), (∃ t, exec i s = .next t) ∨ exec i s = .fault .noSuchUnit) ∧
  ∀ s : State, (∃ t, Machine.step s = .next t) ∨ Machine.step s = .fault .noSuchUnit

/-- The ILLEGAL reason of a scalar field value, of a vector one, and of a vector pair's; 0 when the field is good (R104 to R107). -/
def scalarReason (g : Group) (dest : Bool) (n : Nat) : Nat :=
  if n < min 96 g.as then 0 else if n < 96 ∨ 112 ≤ n then 3 else if dest then 4 else 0
def vectorReason (g : Group) (dest : Bool) (n : Nat) : Nat :=
  if n < min 96 g.av then 0 else if n < 96 then 3 else if n < 112 then 0 else if dest then 4 else 0
def pairReason (g : Group) (dest : Bool) (n : Nat) : Nat :=
  if n < 120 ∧ n % 2 = 1 then 0x0B else if n + 1 < min 96 g.av then 0 else if n < 96 then 3 else if n < 112 then 0 else if dest then 4 else 0

/-- Instruction i of word w, without prefixes and with these reasons of its d, a and b fields: the first that is not good is ILLEGAL. -/
def FieldChecks (i : Instr) (w : Word) (s : State) (rd ra rb : Nat) : Prop :=
  (rd ≠ 0 → TakesTrap i false 0 s 1 (BitVec.ofNat 64 (w.toNat + rd * 2 ^ 32)) s.me) ∧
  (rd = 0 → ra ≠ 0 → TakesTrap i false 0 s 1 (BitVec.ofNat 64 (w.toNat + ra * 2 ^ 32)) s.me) ∧
  (rd = 0 → ra = 0 → rb ≠ 0 → TakesTrap i false 0 s 1 (BitVec.ofNat 64 (w.toNat + rb * 2 ^ 32)) s.me)

/-- The checks before an instruction executes, in their order, on a scalar, a vector and a pair instruction: fields, the limits of REP, the resume
index, PRIV of a read-only system register, MARKV of a pending register, an EXHAUST now due, and the register words that it consumes: a
correctable error does nothing, a located one kills its lanes, another kills ACT at a source and LIVE at the merge of a partial write, and a
scalar's kills LIVE; with no lane left the instruction is not executed (R90 to R92, R104 to R107, R114, R116, R120, R122, R124, R125, R517). -/
def Obligations.IssueChecks : Prop := ∀ (z : Bool) (d a b : Reg) (s : State), Ready s → s.me.runAhead = none →
  let x : Pre := ⟨z, Pfx.none⟩
  let g := s.me
  let good := scalarReason g true d.toNat = 0 ∧ scalarReason g false a.toNat = 0 ∧ scalarReason g false b.toNat = 0
  FieldChecks (.sadd x d a b) (wordR x 0x02 0 d a b) s (scalarReason g true d.toNat) (scalarReason g false a.toNat) (scalarReason g false b.toNat) ∧
  FieldChecks (.vaddI32 x d a b) (wordR x 0x11 0 d a b) s (vectorReason g true d.toNat) (vectorReason g false a.toNat) (vectorReason g false b.toNat) ∧
  FieldChecks (.vaddI64 x d a b) (wordR x 0x13 0 d a b) s (pairReason g true d.toNat) (pairReason g false a.toNat) (pairReason g false b.toNat) ∧
  (∀ r : RepPfx, let y : Pre := ⟨z, { Pfx.none with rep := some r }⟩
    good → r.a = false → r.b = false →
      (∀ k, r.d = true → k ≤ r.count.toNat → min 96 g.as ≤ d.toNat + k * 2 ^ r.stride.toNat → (∀ j, j < k → d.toNat + j * 2 ^ r.stride.toNat < min 96 g.as) →
        TakesTrap (.sadd y d a b) false 0 s 1 (BitVec.ofNat 64 ((repWord r).toNat + 8 * 2 ^ 32 + k * 2 ^ 40)) g) ∧
      (r.d = false → r.count.toNat < g.resume →
        TakesTrap (.sadd y d a b) false 0 s 1 (BitVec.ofNat 64 ((repWord r).toNat + 0x0A * 2 ^ 32)) g)) ∧
  (∀ im, im ∈ [SysReg.tvec, .errbud, .live, .wbase] → scalarReason g false a.toNat = 0 →
    TakesTrap (.wrsr x a im) false 0 s 3 (BitVec.ofNat 64 (wordR x 0x39 1 0 a im.code).toNat) g) ∧
  (good → g.unfin = 0 →
    let busy := fun (n : Nat) => decide (n < 96) && g.pend.any fun p => p.1 == .s (g.sb + n)
    (busy d.toNat = true → TakesTrap (.sadd x d a b) false 0 s 2 (BitVec.ofNat 64 (d.toNat + 128 + 512)) g) ∧
    (busy d.toNat = false → busy a.toNat = true → TakesTrap (.sadd x d a b) false 0 s 2 (BitVec.ofNat 64 (a.toNat + 128)) g) ∧
    (busy d.toNat = false → busy a.toNat = false → busy b.toNat = true → TakesTrap (.sadd x d a b) false 0 s 2 (BitVec.ofNat 64 (b.toNat + 128)) g) ∧
    (∀ v l, busy d.toNat = false → busy a.toNat = false → busy b.toNat = false → g.due = v :: l → TakesTrap (.sadd x d a b) false 0 s 0x0A v g)) ∧
  (∀ n fault, g.regMarks = [⟨n, fault⟩] → g.unfin = 0 → g.pend = [] → g.due = [] → d.toNat < 96 → a.toNat < 96 → b.toNat < 96 → d ≠ a → d ≠ b →
    let leaves := fun (i : Instr) (l : Word) => ∃ t, exec i s = .next t ∧ t.me.live = l ∧ if l = 0 then t.me.pc = g.pc else Advances x (nextPc x s) s t
    (vectorReason g true d.toNat = 0 ∧ vectorReason g false a.toNat = 0 ∧ vectorReason g false b.toNat = 0 →
      (n = .v (g.vb + a.toNat) → leaves (.vaddI32 x d a b) (match fault with
        | .correctable => g.live
        | .located l => g.live &&& ~~~l
        | .unlocated => g.live &&& ~~~g.act)) ∧
      (n = .v (g.vb + d.toNat) → leaves (.vaddI32 x d a b) (if g.act = g.live then g.live else match fault with
        | .correctable => g.live
        | .located l => g.live &&& ~~~l
        | .unlocated => 0))) ∧
    (good → n = .s (g.sb + a.toNat) → leaves (.sadd x d a b) (if fault = .correctable then g.live else 0)))
end

