-- ==== Sys2Proof/Laws/Sparse.lean ====
section
/-! SUPPORT. Laws of sparse tables and of memory: reading after writing, and the canonical form kept by every operation. -/

namespace Sys2Proof.Machine

variable {α : Type}

theorem SMap.look_ins_self (m : SMap α) (k : Nat) (v d : α) : SMap.look (SMap.ins m k v) k d = v := by
  induction m with
  | nil => simp [SMap.ins, SMap.look]
  | cons e r ih =>
    obtain ⟨j, u⟩ := e
    simp only [SMap.ins]
    split
    · simp [SMap.look]
    · split
      · simp [SMap.look]
      · rename_i h1 h2
        simp [SMap.look, h1, h2, ih]

theorem SMap.look_ins_ne (m : SMap α) {k i : Nat} (v d : α) (h : i ≠ k) : SMap.look (SMap.ins m k v) i d = SMap.look m i d := by
  induction m with
  | nil =>
    simp only [SMap.ins, SMap.look]
    rw [if_neg (Ne.symm h)]
    split <;> rfl
  | cons e r ih =>
    obtain ⟨j, u⟩ := e
    simp only [SMap.ins]
    split
    · rename_i hj
      subst hj
      simp [SMap.look, Ne.symm h]
    · split
      · rename_i h1 h2
        simp only [SMap.look]
        rw [if_neg (Ne.symm h)]
        split
        · rename_i h3
          rw [if_neg (by omega), if_pos (by omega)]
        · rfl
      · simp only [SMap.look, ih]

theorem SMap.look_put_ne_default [DecidableEq α] (m : SMap α) (k : Nat) {v d : α} (h : v ≠ d) :
    SMap.look (SMap.put m k v d) k d = v := by
  simp [SMap.put, h, SMap.look_ins_self]

theorem SMap.look_put_other [DecidableEq α] (m : SMap α) {k i : Nat} {v d : α} (h : v ≠ d) (hi : i ≠ k) :
    SMap.look (SMap.put m k v d) i d = SMap.look m i d := by
  simp [SMap.put, h, SMap.look_ins_ne _ _ _ hi]

variable [DecidableEq α]

theorem SMap.wfFrom_mono {d : α} {lo hi : Nat} {m : SMap α} (h : SMap.wfFrom d hi m = true) (hl : lo ≤ hi) : SMap.wfFrom d lo m = true := by
  cases m with
  | nil => rfl
  | cons e r =>
    obtain ⟨j, u⟩ := e
    simp only [SMap.wfFrom, Bool.and_eq_true, decide_eq_true_eq] at h ⊢
    exact ⟨⟨by omega, h.1.2⟩, h.2⟩

theorem SMap.look_below {d : α} {lo k : Nat} {m : SMap α} (h : SMap.wfFrom d lo m = true) (hk : k < lo) : SMap.look m k d = d := by
  cases m with
  | nil => rfl
  | cons e r =>
    obtain ⟨j, u⟩ := e
    simp only [SMap.wfFrom, Bool.and_eq_true, decide_eq_true_eq] at h
    simp only [SMap.look]
    rw [if_neg (by omega), if_pos (by omega)]

theorem SMap.ins_wf {d v : α} {lo k : Nat} {m : SMap α} (h : SMap.wfFrom d lo m = true) (hk : lo ≤ k) (hv : v ≠ d) :
    SMap.wfFrom d lo (SMap.ins m k v) = true := by
  induction m generalizing lo with
  | nil => simp [SMap.ins, SMap.wfFrom, hk, hv]
  | cons e r ih =>
    obtain ⟨j, u⟩ := e
    simp only [SMap.wfFrom, Bool.and_eq_true, decide_eq_true_eq] at h
    simp only [SMap.ins]
    split
    · rename_i hj
      simp only [SMap.wfFrom, Bool.and_eq_true, decide_eq_true_eq]
      exact ⟨⟨hk, hv⟩, hj ▸ h.2⟩
    · split
      · simp only [SMap.wfFrom, Bool.and_eq_true, decide_eq_true_eq]
        exact ⟨⟨hk, hv⟩, ⟨by omega, h.1.2⟩, h.2⟩
      · simp only [SMap.wfFrom, Bool.and_eq_true, decide_eq_true_eq]
        exact ⟨h.1, ih h.2 (by omega)⟩

theorem SMap.del_wf {d : α} {lo k : Nat} {m : SMap α} (h : SMap.wfFrom d lo m = true) : SMap.wfFrom d lo (SMap.del m k) = true := by
  induction m generalizing lo with
  | nil => rfl
  | cons e r ih =>
    obtain ⟨j, u⟩ := e
    have h0 := h
    simp only [SMap.wfFrom, Bool.and_eq_true, decide_eq_true_eq] at h
    simp only [SMap.del]
    split
    · exact SMap.wfFrom_mono h.2 (by omega)
    · split
      · exact h0
      · simp only [SMap.wfFrom, Bool.and_eq_true, decide_eq_true_eq]
        exact ⟨h.1, ih h.2⟩

/-- A table stays canonical when an entry is put. -/
theorem SMap.put_wf {d : α} {m : SMap α} (k : Nat) (v : α) (h : SMap.wf d m = true) : SMap.wf d (SMap.put m k v d) = true := by
  unfold SMap.put
  split
  · exact SMap.del_wf h
  · rename_i hv
    exact SMap.ins_wf h (Nat.zero_le k) hv

theorem SMap.filter_wfFrom {d : α} {lo : Nat} {m : SMap α} (p : Nat × α → Bool) (h : SMap.wfFrom d lo m = true) :
    SMap.wfFrom d lo (m.filter p) = true := by
  induction m generalizing lo with
  | nil => rfl
  | cons e r ih =>
    obtain ⟨j, u⟩ := e
    simp only [SMap.wfFrom, Bool.and_eq_true, decide_eq_true_eq] at h
    simp only [List.filter_cons]
    split
    · simp only [SMap.wfFrom, Bool.and_eq_true, decide_eq_true_eq]
      exact ⟨h.1, ih h.2⟩
    · exact SMap.wfFrom_mono (ih h.2) (by omega)

/-- A canonical table stays canonical when entries are dropped. -/
theorem SMap.filter_wf {d : α} {m : SMap α} (p : Nat × α → Bool) (h : SMap.wf d m = true) : SMap.wf d (m.filter p) = true :=
  SMap.filter_wfFrom p h

theorem SMap.look_del_self {d : α} {lo k : Nat} {m : SMap α} (h : SMap.wfFrom d lo m = true) : SMap.look (SMap.del m k) k d = d := by
  induction m generalizing lo with
  | nil => rfl
  | cons e r ih =>
    obtain ⟨j, u⟩ := e
    simp only [SMap.wfFrom, Bool.and_eq_true, decide_eq_true_eq] at h
    simp only [SMap.del]
    split
    · rename_i hj
      exact SMap.look_below h.2 (by omega)
    · split
      · rename_i h1 h2
        simp [SMap.look, h1, h2]
      · rename_i h1 h2
        simp [SMap.look, h1, h2, ih h.2]

theorem SMap.look_del_ne {d : α} {lo k i : Nat} {m : SMap α} (h : SMap.wfFrom d lo m = true) (hi : i ≠ k) :
    SMap.look (SMap.del m k) i d = SMap.look m i d := by
  induction m generalizing lo with
  | nil => rfl
  | cons e r ih =>
    obtain ⟨j, u⟩ := e
    simp only [SMap.wfFrom, Bool.and_eq_true, decide_eq_true_eq] at h
    simp only [SMap.del]
    split
    · rename_i hj
      simp only [SMap.look]
      rw [if_neg (by omega)]
      split
      · rename_i h2
        exact SMap.look_below h.2 (by omega)
      · rfl
    · split
      · rfl
      · simp only [SMap.look, ih h.2]

/-- What is put is read back from a canonical table. -/
theorem SMap.look_put_self {d : α} {m : SMap α} (k : Nat) (v : α) (h : SMap.wf d m = true) : SMap.look (SMap.put m k v d) k d = v := by
  unfold SMap.put
  split
  · rename_i hv
    rw [hv]
    exact SMap.look_del_self h
  · exact SMap.look_ins_self m k v d

/-- A put leaves the other entries of a canonical table. -/
theorem SMap.look_put_ne {d : α} {m : SMap α} {k i : Nat} (v : α) (h : SMap.wf d m = true) (hi : i ≠ k) :
    SMap.look (SMap.put m k v d) i d = SMap.look m i d := by
  unfold SMap.put
  split
  · exact SMap.look_del_ne h hi
  · exact SMap.look_ins_ne m v d hi

/-! ### Memory -/

/-- A byte written keeps memory canonical. -/
theorem Memory.setByte_wf {m : Memory} (a : Nat) (b : Byte) (h : Memory.wf m = true) : Memory.wf (Memory.setByte m a b) = true :=
  SMap.put_wf a b h

/-- Bytes written keep memory canonical. -/
theorem Memory.setBytes_wf {m : Memory} (a : Nat) (b : List Byte) (h : Memory.wf m = true) : Memory.wf (Memory.setBytes m a b) = true := by
  induction b generalizing m a with
  | nil => exact h
  | cons x r ih => exact ih (a + 1) (Memory.setByte_wf a x h)

/-- A value written keeps memory canonical. -/
theorem Memory.setLe_wf {m : Memory} (a n v : Nat) (h : Memory.wf m = true) : Memory.wf (Memory.setLe m a n v) = true :=
  Memory.setBytes_wf a _ h

/-- Dropped ranges keep memory canonical. -/
theorem Memory.filter_wf {m : Memory} (p : Host.Cell → Bool) (h : Memory.wf m = true) : Memory.wf (List.filter p m) = true :=
  SMap.filter_wf (d := (0 : BitVec 8)) p h

theorem Memory.byte_setByte_self {m : Memory} (a : Nat) (b : Byte) (h : Memory.wf m = true) : Memory.byte (Memory.setByte m a b) a = b :=
  SMap.look_put_self a b h

theorem Memory.byte_setByte_ne {m : Memory} {a c : Nat} (b : Byte) (h : Memory.wf m = true) (hc : c ≠ a) :
    Memory.byte (Memory.setByte m a b) c = Memory.byte m c :=
  SMap.look_put_ne b h hc

/-- Bytes outside the written range read as before. -/
theorem Memory.byte_setBytes_out {m : Memory} {a c : Nat} (b : List Byte) (h : Memory.wf m = true) (hc : c < a ∨ a + b.length ≤ c) :
    Memory.byte (Memory.setBytes m a b) c = Memory.byte m c := by
  induction b generalizing m a with
  | nil => rfl
  | cons x r ih =>
    simp only [List.length_cons] at hc
    simp only [Memory.setBytes]
    rw [ih (Memory.setByte_wf a x h) (by omega), Memory.byte_setByte_ne x h (by omega)]

/-- Byte i of the written range is byte i of the data. -/
theorem Memory.byte_setBytes_in {m : Memory} {a i : Nat} (b : List Byte) (h : Memory.wf m = true) (hi : i < b.length) :
    Memory.byte (Memory.setBytes m a b) (a + i) = b[i] := by
  induction b generalizing m a i with
  | nil => exact absurd hi (by simp)
  | cons x r ih =>
    simp only [Memory.setBytes]
    cases i with
    | zero =>
      simp only [Nat.add_zero]
      rw [Memory.byte_setBytes_out r (Memory.setByte_wf a x h) (by omega), Memory.byte_setByte_self a x h]
      rfl
    | succ j =>
      have := ih (m := Memory.setByte m a x) (a := a + 1) (i := j) (Memory.setByte_wf a x h) (by simpa using hi)
      rw [show a + (j + 1) = a + 1 + j by omega, this]
      rfl

end Sys2Proof.Machine
end

