-- ==== Sys2Proof/Laws/State.lean ====
section
/-! SUPPORT. What each update of the state leaves: one lemma per field and update, so that no proof unfolds a record update. -/

namespace Sys2Proof.Machine

@[simp] theorem State.setGrp_groups (s : State) (g : Nat) (x : Group) : (s.setGrp g x).groups = SMap.put s.groups g x Group.idle := rfl
@[simp] theorem State.setGrp_checkpoints (s : State) (g : Nat) (x : Group) : (s.setGrp g x).checkpoints = s.checkpoints := rfl
@[simp] theorem State.setGrp_cores (s : State) (g : Nat) (x : Group) : (s.setGrp g x).cores = s.cores := rfl
@[simp] theorem State.setGrp_clusters (s : State) (g : Nat) (x : Group) : (s.setGrp g x).clusters = s.clusters := rfl
@[simp] theorem State.setGrp_ctxs (s : State) (g : Nat) (x : Group) : (s.setGrp g x).ctxs = s.ctxs := rfl
@[simp] theorem State.setGrp_tenants (s : State) (g : Nat) (x : Group) : (s.setGrp g x).tenants = s.tenants := rfl
@[simp] theorem State.setGrp_hub (s : State) (g : Nat) (x : Group) : (s.setGrp g x).hub = s.hub := rfl
@[simp] theorem State.setGrp_mem (s : State) (g : Nat) (x : Group) : (s.setGrp g x).mem = s.mem := rfl
@[simp] theorem State.setGrp_cur (s : State) (g : Nat) (x : Group) : (s.setGrp g x).cur = s.cur := rfl
@[simp] theorem State.setGrp_agenda (s : State) (g : Nat) (x : Group) : (s.setGrp g x).agenda = s.agenda := rfl
@[simp] theorem State.setGrp_fresh (s : State) (g : Nat) (x : Group) : (s.setGrp g x).fresh = s.fresh := rfl

@[simp] theorem State.onGrp_groups (s : State) (g : Nat) (f : Group → Group) : (s.onGrp g f).groups = SMap.put s.groups g (f (s.grp g)) Group.idle := rfl
@[simp] theorem State.onGrp_checkpoints (s : State) (g : Nat) (f : Group → Group) : (s.onGrp g f).checkpoints = s.checkpoints := rfl
@[simp] theorem State.onGrp_cores (s : State) (g : Nat) (f : Group → Group) : (s.onGrp g f).cores = s.cores := rfl
@[simp] theorem State.onGrp_clusters (s : State) (g : Nat) (f : Group → Group) : (s.onGrp g f).clusters = s.clusters := rfl
@[simp] theorem State.onGrp_ctxs (s : State) (g : Nat) (f : Group → Group) : (s.onGrp g f).ctxs = s.ctxs := rfl
@[simp] theorem State.onGrp_tenants (s : State) (g : Nat) (f : Group → Group) : (s.onGrp g f).tenants = s.tenants := rfl
@[simp] theorem State.onGrp_hub (s : State) (g : Nat) (f : Group → Group) : (s.onGrp g f).hub = s.hub := rfl
@[simp] theorem State.onGrp_mem (s : State) (g : Nat) (f : Group → Group) : (s.onGrp g f).mem = s.mem := rfl
@[simp] theorem State.onGrp_cur (s : State) (g : Nat) (f : Group → Group) : (s.onGrp g f).cur = s.cur := rfl
@[simp] theorem State.onGrp_agenda (s : State) (g : Nat) (f : Group → Group) : (s.onGrp g f).agenda = s.agenda := rfl
@[simp] theorem State.onGrp_fresh (s : State) (g : Nat) (f : Group → Group) : (s.onGrp g f).fresh = s.fresh := rfl

@[simp] theorem State.onMe_groups (s : State) (f : Group → Group) : (s.onMe f).groups = SMap.put s.groups s.cur (f s.me) Group.idle := rfl
@[simp] theorem State.onMe_checkpoints (s : State) (f : Group → Group) : (s.onMe f).checkpoints = s.checkpoints := rfl
@[simp] theorem State.onMe_cores (s : State) (f : Group → Group) : (s.onMe f).cores = s.cores := rfl
@[simp] theorem State.onMe_clusters (s : State) (f : Group → Group) : (s.onMe f).clusters = s.clusters := rfl
@[simp] theorem State.onMe_ctxs (s : State) (f : Group → Group) : (s.onMe f).ctxs = s.ctxs := rfl
@[simp] theorem State.onMe_tenants (s : State) (f : Group → Group) : (s.onMe f).tenants = s.tenants := rfl
@[simp] theorem State.onMe_hub (s : State) (f : Group → Group) : (s.onMe f).hub = s.hub := rfl
@[simp] theorem State.onMe_mem (s : State) (f : Group → Group) : (s.onMe f).mem = s.mem := rfl
@[simp] theorem State.onMe_cur (s : State) (f : Group → Group) : (s.onMe f).cur = s.cur := rfl
@[simp] theorem State.onMe_agenda (s : State) (f : Group → Group) : (s.onMe f).agenda = s.agenda := rfl
@[simp] theorem State.onMe_fresh (s : State) (f : Group → Group) : (s.onMe f).fresh = s.fresh := rfl

@[simp] theorem State.setCore_groups (s : State) (c : Nat) (x : Core) : (s.setCore c x).groups = s.groups := rfl
@[simp] theorem State.setCore_checkpoints (s : State) (c : Nat) (x : Core) : (s.setCore c x).checkpoints = s.checkpoints := rfl
@[simp] theorem State.setCore_cores (s : State) (c : Nat) (x : Core) : (s.setCore c x).cores = SMap.put s.cores c x Core.idle := rfl
@[simp] theorem State.setCore_clusters (s : State) (c : Nat) (x : Core) : (s.setCore c x).clusters = s.clusters := rfl
@[simp] theorem State.setCore_ctxs (s : State) (c : Nat) (x : Core) : (s.setCore c x).ctxs = s.ctxs := rfl
@[simp] theorem State.setCore_tenants (s : State) (c : Nat) (x : Core) : (s.setCore c x).tenants = s.tenants := rfl
@[simp] theorem State.setCore_hub (s : State) (c : Nat) (x : Core) : (s.setCore c x).hub = s.hub := rfl
@[simp] theorem State.setCore_mem (s : State) (c : Nat) (x : Core) : (s.setCore c x).mem = s.mem := rfl
@[simp] theorem State.setCore_cur (s : State) (c : Nat) (x : Core) : (s.setCore c x).cur = s.cur := rfl
@[simp] theorem State.setCore_agenda (s : State) (c : Nat) (x : Core) : (s.setCore c x).agenda = s.agenda := rfl
@[simp] theorem State.setCore_fresh (s : State) (c : Nat) (x : Core) : (s.setCore c x).fresh = s.fresh := rfl

@[simp] theorem State.onCore_groups (s : State) (c : Nat) (f : Core → Core) : (s.onCore c f).groups = s.groups := rfl
@[simp] theorem State.onCore_checkpoints (s : State) (c : Nat) (f : Core → Core) : (s.onCore c f).checkpoints = s.checkpoints := rfl
@[simp] theorem State.onCore_cores (s : State) (c : Nat) (f : Core → Core) : (s.onCore c f).cores = SMap.put s.cores c (f (s.core c)) Core.idle := rfl
@[simp] theorem State.onCore_clusters (s : State) (c : Nat) (f : Core → Core) : (s.onCore c f).clusters = s.clusters := rfl
@[simp] theorem State.onCore_ctxs (s : State) (c : Nat) (f : Core → Core) : (s.onCore c f).ctxs = s.ctxs := rfl
@[simp] theorem State.onCore_tenants (s : State) (c : Nat) (f : Core → Core) : (s.onCore c f).tenants = s.tenants := rfl
@[simp] theorem State.onCore_hub (s : State) (c : Nat) (f : Core → Core) : (s.onCore c f).hub = s.hub := rfl
@[simp] theorem State.onCore_mem (s : State) (c : Nat) (f : Core → Core) : (s.onCore c f).mem = s.mem := rfl
@[simp] theorem State.onCore_cur (s : State) (c : Nat) (f : Core → Core) : (s.onCore c f).cur = s.cur := rfl
@[simp] theorem State.onCore_agenda (s : State) (c : Nat) (f : Core → Core) : (s.onCore c f).agenda = s.agenda := rfl
@[simp] theorem State.onCore_fresh (s : State) (c : Nat) (f : Core → Core) : (s.onCore c f).fresh = s.fresh := rfl

@[simp] theorem State.setCluster_groups (s : State) (k : Nat) (x : Cluster) : (s.setCluster k x).groups = s.groups := rfl
@[simp] theorem State.setCluster_checkpoints (s : State) (k : Nat) (x : Cluster) : (s.setCluster k x).checkpoints = s.checkpoints := rfl
@[simp] theorem State.setCluster_cores (s : State) (k : Nat) (x : Cluster) : (s.setCluster k x).cores = s.cores := rfl
@[simp] theorem State.setCluster_clusters (s : State) (k : Nat) (x : Cluster) : (s.setCluster k x).clusters = SMap.put s.clusters k x Cluster.empty := rfl
@[simp] theorem State.setCluster_ctxs (s : State) (k : Nat) (x : Cluster) : (s.setCluster k x).ctxs = s.ctxs := rfl
@[simp] theorem State.setCluster_tenants (s : State) (k : Nat) (x : Cluster) : (s.setCluster k x).tenants = s.tenants := rfl
@[simp] theorem State.setCluster_hub (s : State) (k : Nat) (x : Cluster) : (s.setCluster k x).hub = s.hub := rfl
@[simp] theorem State.setCluster_mem (s : State) (k : Nat) (x : Cluster) : (s.setCluster k x).mem = s.mem := rfl
@[simp] theorem State.setCluster_cur (s : State) (k : Nat) (x : Cluster) : (s.setCluster k x).cur = s.cur := rfl
@[simp] theorem State.setCluster_agenda (s : State) (k : Nat) (x : Cluster) : (s.setCluster k x).agenda = s.agenda := rfl
@[simp] theorem State.setCluster_fresh (s : State) (k : Nat) (x : Cluster) : (s.setCluster k x).fresh = s.fresh := rfl

@[simp] theorem State.onCluster_groups (s : State) (k : Nat) (f : Cluster → Cluster) : (s.onCluster k f).groups = s.groups := rfl
@[simp] theorem State.onCluster_checkpoints (s : State) (k : Nat) (f : Cluster → Cluster) : (s.onCluster k f).checkpoints = s.checkpoints := rfl
@[simp] theorem State.onCluster_cores (s : State) (k : Nat) (f : Cluster → Cluster) : (s.onCluster k f).cores = s.cores := rfl
@[simp] theorem State.onCluster_clusters (s : State) (k : Nat) (f : Cluster → Cluster) : (s.onCluster k f).clusters = SMap.put s.clusters k (f (s.cluster k)) Cluster.empty := rfl
@[simp] theorem State.onCluster_ctxs (s : State) (k : Nat) (f : Cluster → Cluster) : (s.onCluster k f).ctxs = s.ctxs := rfl
@[simp] theorem State.onCluster_tenants (s : State) (k : Nat) (f : Cluster → Cluster) : (s.onCluster k f).tenants = s.tenants := rfl
@[simp] theorem State.onCluster_hub (s : State) (k : Nat) (f : Cluster → Cluster) : (s.onCluster k f).hub = s.hub := rfl
@[simp] theorem State.onCluster_mem (s : State) (k : Nat) (f : Cluster → Cluster) : (s.onCluster k f).mem = s.mem := rfl
@[simp] theorem State.onCluster_cur (s : State) (k : Nat) (f : Cluster → Cluster) : (s.onCluster k f).cur = s.cur := rfl
@[simp] theorem State.onCluster_agenda (s : State) (k : Nat) (f : Cluster → Cluster) : (s.onCluster k f).agenda = s.agenda := rfl
@[simp] theorem State.onCluster_fresh (s : State) (k : Nat) (f : Cluster → Cluster) : (s.onCluster k f).fresh = s.fresh := rfl

@[simp] theorem State.setSector_groups (s : State) (k loc : Nat) (x : Sector) : (s.setSector k loc x).groups = s.groups := rfl
@[simp] theorem State.setSector_checkpoints (s : State) (k loc : Nat) (x : Sector) : (s.setSector k loc x).checkpoints = s.checkpoints := rfl
@[simp] theorem State.setSector_cores (s : State) (k loc : Nat) (x : Sector) : (s.setSector k loc x).cores = s.cores := rfl
@[simp] theorem State.setSector_ctxs (s : State) (k loc : Nat) (x : Sector) : (s.setSector k loc x).ctxs = s.ctxs := rfl
@[simp] theorem State.setSector_tenants (s : State) (k loc : Nat) (x : Sector) : (s.setSector k loc x).tenants = s.tenants := rfl
@[simp] theorem State.setSector_hub (s : State) (k loc : Nat) (x : Sector) : (s.setSector k loc x).hub = s.hub := rfl
@[simp] theorem State.setSector_mem (s : State) (k loc : Nat) (x : Sector) : (s.setSector k loc x).mem = s.mem := rfl
@[simp] theorem State.setSector_cur (s : State) (k loc : Nat) (x : Sector) : (s.setSector k loc x).cur = s.cur := rfl
@[simp] theorem State.setSector_agenda (s : State) (k loc : Nat) (x : Sector) : (s.setSector k loc x).agenda = s.agenda := rfl
@[simp] theorem State.setSector_fresh (s : State) (k loc : Nat) (x : Sector) : (s.setSector k loc x).fresh = s.fresh := rfl

@[simp] theorem State.setCtx_groups (s : State) (c : Nat) (x : Ctx) : (s.setCtx c x).groups = s.groups := rfl
@[simp] theorem State.setCtx_checkpoints (s : State) (c : Nat) (x : Ctx) : (s.setCtx c x).checkpoints = s.checkpoints := rfl
@[simp] theorem State.setCtx_cores (s : State) (c : Nat) (x : Ctx) : (s.setCtx c x).cores = s.cores := rfl
@[simp] theorem State.setCtx_clusters (s : State) (c : Nat) (x : Ctx) : (s.setCtx c x).clusters = s.clusters := rfl
@[simp] theorem State.setCtx_ctxs (s : State) (c : Nat) (x : Ctx) : (s.setCtx c x).ctxs = SMap.put s.ctxs c x Ctx.none := rfl
@[simp] theorem State.setCtx_tenants (s : State) (c : Nat) (x : Ctx) : (s.setCtx c x).tenants = s.tenants := rfl
@[simp] theorem State.setCtx_hub (s : State) (c : Nat) (x : Ctx) : (s.setCtx c x).hub = s.hub := rfl
@[simp] theorem State.setCtx_mem (s : State) (c : Nat) (x : Ctx) : (s.setCtx c x).mem = s.mem := rfl
@[simp] theorem State.setCtx_cur (s : State) (c : Nat) (x : Ctx) : (s.setCtx c x).cur = s.cur := rfl
@[simp] theorem State.setCtx_agenda (s : State) (c : Nat) (x : Ctx) : (s.setCtx c x).agenda = s.agenda := rfl
@[simp] theorem State.setCtx_fresh (s : State) (c : Nat) (x : Ctx) : (s.setCtx c x).fresh = s.fresh := rfl

@[simp] theorem State.onCtx_groups (s : State) (c : Nat) (f : Ctx → Ctx) : (s.onCtx c f).groups = s.groups := rfl
@[simp] theorem State.onCtx_checkpoints (s : State) (c : Nat) (f : Ctx → Ctx) : (s.onCtx c f).checkpoints = s.checkpoints := rfl
@[simp] theorem State.onCtx_cores (s : State) (c : Nat) (f : Ctx → Ctx) : (s.onCtx c f).cores = s.cores := rfl
@[simp] theorem State.onCtx_clusters (s : State) (c : Nat) (f : Ctx → Ctx) : (s.onCtx c f).clusters = s.clusters := rfl
@[simp] theorem State.onCtx_ctxs (s : State) (c : Nat) (f : Ctx → Ctx) : (s.onCtx c f).ctxs = SMap.put s.ctxs c (f (s.ctx c)) Ctx.none := rfl
@[simp] theorem State.onCtx_tenants (s : State) (c : Nat) (f : Ctx → Ctx) : (s.onCtx c f).tenants = s.tenants := rfl
@[simp] theorem State.onCtx_hub (s : State) (c : Nat) (f : Ctx → Ctx) : (s.onCtx c f).hub = s.hub := rfl
@[simp] theorem State.onCtx_mem (s : State) (c : Nat) (f : Ctx → Ctx) : (s.onCtx c f).mem = s.mem := rfl
@[simp] theorem State.onCtx_cur (s : State) (c : Nat) (f : Ctx → Ctx) : (s.onCtx c f).cur = s.cur := rfl
@[simp] theorem State.onCtx_agenda (s : State) (c : Nat) (f : Ctx → Ctx) : (s.onCtx c f).agenda = s.agenda := rfl
@[simp] theorem State.onCtx_fresh (s : State) (c : Nat) (f : Ctx → Ctx) : (s.onCtx c f).fresh = s.fresh := rfl

@[simp] theorem State.setTenant_groups (s : State) (t : Nat) (x : Tenant) : (s.setTenant t x).groups = s.groups := rfl
@[simp] theorem State.setTenant_checkpoints (s : State) (t : Nat) (x : Tenant) : (s.setTenant t x).checkpoints = s.checkpoints := rfl
@[simp] theorem State.setTenant_cores (s : State) (t : Nat) (x : Tenant) : (s.setTenant t x).cores = s.cores := rfl
@[simp] theorem State.setTenant_clusters (s : State) (t : Nat) (x : Tenant) : (s.setTenant t x).clusters = s.clusters := rfl
@[simp] theorem State.setTenant_ctxs (s : State) (t : Nat) (x : Tenant) : (s.setTenant t x).ctxs = s.ctxs := rfl
@[simp] theorem State.setTenant_tenants (s : State) (t : Nat) (x : Tenant) : (s.setTenant t x).tenants = SMap.put s.tenants t x Tenant.reset := rfl
@[simp] theorem State.setTenant_hub (s : State) (t : Nat) (x : Tenant) : (s.setTenant t x).hub = s.hub := rfl
@[simp] theorem State.setTenant_mem (s : State) (t : Nat) (x : Tenant) : (s.setTenant t x).mem = s.mem := rfl
@[simp] theorem State.setTenant_cur (s : State) (t : Nat) (x : Tenant) : (s.setTenant t x).cur = s.cur := rfl
@[simp] theorem State.setTenant_agenda (s : State) (t : Nat) (x : Tenant) : (s.setTenant t x).agenda = s.agenda := rfl
@[simp] theorem State.setTenant_fresh (s : State) (t : Nat) (x : Tenant) : (s.setTenant t x).fresh = s.fresh := rfl

@[simp] theorem State.onTenant_groups (s : State) (t : Nat) (f : Tenant → Tenant) : (s.onTenant t f).groups = s.groups := rfl
@[simp] theorem State.onTenant_checkpoints (s : State) (t : Nat) (f : Tenant → Tenant) : (s.onTenant t f).checkpoints = s.checkpoints := rfl
@[simp] theorem State.onTenant_cores (s : State) (t : Nat) (f : Tenant → Tenant) : (s.onTenant t f).cores = s.cores := rfl
@[simp] theorem State.onTenant_clusters (s : State) (t : Nat) (f : Tenant → Tenant) : (s.onTenant t f).clusters = s.clusters := rfl
@[simp] theorem State.onTenant_ctxs (s : State) (t : Nat) (f : Tenant → Tenant) : (s.onTenant t f).ctxs = s.ctxs := rfl
@[simp] theorem State.onTenant_tenants (s : State) (t : Nat) (f : Tenant → Tenant) : (s.onTenant t f).tenants = SMap.put s.tenants t (f (s.tenant t)) Tenant.reset := rfl
@[simp] theorem State.onTenant_hub (s : State) (t : Nat) (f : Tenant → Tenant) : (s.onTenant t f).hub = s.hub := rfl
@[simp] theorem State.onTenant_mem (s : State) (t : Nat) (f : Tenant → Tenant) : (s.onTenant t f).mem = s.mem := rfl
@[simp] theorem State.onTenant_cur (s : State) (t : Nat) (f : Tenant → Tenant) : (s.onTenant t f).cur = s.cur := rfl
@[simp] theorem State.onTenant_agenda (s : State) (t : Nat) (f : Tenant → Tenant) : (s.onTenant t f).agenda = s.agenda := rfl
@[simp] theorem State.onTenant_fresh (s : State) (t : Nat) (f : Tenant → Tenant) : (s.onTenant t f).fresh = s.fresh := rfl

@[simp] theorem State.onHub_groups (s : State) (f : Hub → Hub) : (s.onHub f).groups = s.groups := rfl
@[simp] theorem State.onHub_checkpoints (s : State) (f : Hub → Hub) : (s.onHub f).checkpoints = s.checkpoints := rfl
@[simp] theorem State.onHub_cores (s : State) (f : Hub → Hub) : (s.onHub f).cores = s.cores := rfl
@[simp] theorem State.onHub_clusters (s : State) (f : Hub → Hub) : (s.onHub f).clusters = s.clusters := rfl
@[simp] theorem State.onHub_ctxs (s : State) (f : Hub → Hub) : (s.onHub f).ctxs = s.ctxs := rfl
@[simp] theorem State.onHub_tenants (s : State) (f : Hub → Hub) : (s.onHub f).tenants = s.tenants := rfl
@[simp] theorem State.onHub_hub (s : State) (f : Hub → Hub) : (s.onHub f).hub = f s.hub := rfl
@[simp] theorem State.onHub_mem (s : State) (f : Hub → Hub) : (s.onHub f).mem = s.mem := rfl
@[simp] theorem State.onHub_cur (s : State) (f : Hub → Hub) : (s.onHub f).cur = s.cur := rfl
@[simp] theorem State.onHub_agenda (s : State) (f : Hub → Hub) : (s.onHub f).agenda = s.agenda := rfl
@[simp] theorem State.onHub_fresh (s : State) (f : Hub → Hub) : (s.onHub f).fresh = s.fresh := rfl

@[simp] theorem State.setMem_groups (s : State) (m : Memory) : (s.setMem m).groups = s.groups := rfl
@[simp] theorem State.setMem_checkpoints (s : State) (m : Memory) : (s.setMem m).checkpoints = s.checkpoints := rfl
@[simp] theorem State.setMem_cores (s : State) (m : Memory) : (s.setMem m).cores = s.cores := rfl
@[simp] theorem State.setMem_clusters (s : State) (m : Memory) : (s.setMem m).clusters = s.clusters := rfl
@[simp] theorem State.setMem_ctxs (s : State) (m : Memory) : (s.setMem m).ctxs = s.ctxs := rfl
@[simp] theorem State.setMem_tenants (s : State) (m : Memory) : (s.setMem m).tenants = s.tenants := rfl
@[simp] theorem State.setMem_hub (s : State) (m : Memory) : (s.setMem m).hub = s.hub := rfl
@[simp] theorem State.setMem_mem (s : State) (m : Memory) : (s.setMem m).mem = m := rfl
@[simp] theorem State.setMem_cur (s : State) (m : Memory) : (s.setMem m).cur = s.cur := rfl
@[simp] theorem State.setMem_agenda (s : State) (m : Memory) : (s.setMem m).agenda = s.agenda := rfl
@[simp] theorem State.setMem_fresh (s : State) (m : Memory) : (s.setMem m).fresh = s.fresh := rfl

@[simp] theorem State.irq_groups (s : State) (t v : Nat) : (s.irq t v).groups = s.groups := rfl
@[simp] theorem State.irq_checkpoints (s : State) (t v : Nat) : (s.irq t v).checkpoints = s.checkpoints := rfl
@[simp] theorem State.irq_cores (s : State) (t v : Nat) : (s.irq t v).cores = s.cores := rfl
@[simp] theorem State.irq_clusters (s : State) (t v : Nat) : (s.irq t v).clusters = s.clusters := rfl
@[simp] theorem State.irq_ctxs (s : State) (t v : Nat) : (s.irq t v).ctxs = s.ctxs := rfl
@[simp] theorem State.irq_tenants (s : State) (t v : Nat) : (s.irq t v).tenants = s.tenants := rfl
@[simp] theorem State.irq_hub (s : State) (t v : Nat) : (s.irq t v).hub = { s.hub with irqs := s.hub.irqs ++ [(t, v)] } := rfl
@[simp] theorem State.irq_mem (s : State) (t v : Nat) : (s.irq t v).mem = s.mem := rfl
@[simp] theorem State.irq_cur (s : State) (t v : Nat) : (s.irq t v).cur = s.cur := rfl
@[simp] theorem State.irq_agenda (s : State) (t v : Nat) : (s.irq t v).agenda = s.agenda := rfl
@[simp] theorem State.irq_fresh (s : State) (t v : Nat) : (s.irq t v).fresh = s.fresh := rfl

@[simp] theorem State.flag_checkpoints (s : State) (m : Word) : (s.flag m).checkpoints = s.checkpoints := rfl
@[simp] theorem State.flag_cores (s : State) (m : Word) : (s.flag m).cores = s.cores := rfl
@[simp] theorem State.flag_clusters (s : State) (m : Word) : (s.flag m).clusters = s.clusters := rfl
@[simp] theorem State.flag_ctxs (s : State) (m : Word) : (s.flag m).ctxs = s.ctxs := rfl
@[simp] theorem State.flag_tenants (s : State) (m : Word) : (s.flag m).tenants = s.tenants := rfl
@[simp] theorem State.flag_hub (s : State) (m : Word) : (s.flag m).hub = s.hub := rfl
@[simp] theorem State.flag_mem (s : State) (m : Word) : (s.flag m).mem = s.mem := rfl
@[simp] theorem State.flag_cur (s : State) (m : Word) : (s.flag m).cur = s.cur := rfl
@[simp] theorem State.flag_agenda (s : State) (m : Word) : (s.flag m).agenda = s.agenda := rfl
@[simp] theorem State.flag_fresh (s : State) (m : Word) : (s.flag m).fresh = s.fresh := rfl

@[simp] theorem State.enter_checkpoints (s : State) (k : Nat) : (s.enter k).checkpoints = s.checkpoints := rfl
@[simp] theorem State.enter_cores (s : State) (k : Nat) : (s.enter k).cores = s.cores := rfl
@[simp] theorem State.enter_clusters (s : State) (k : Nat) : (s.enter k).clusters = s.clusters := rfl
@[simp] theorem State.enter_ctxs (s : State) (k : Nat) : (s.enter k).ctxs = s.ctxs := rfl
@[simp] theorem State.enter_tenants (s : State) (k : Nat) : (s.enter k).tenants = s.tenants := rfl
@[simp] theorem State.enter_hub (s : State) (k : Nat) : (s.enter k).hub = s.hub := rfl
@[simp] theorem State.enter_mem (s : State) (k : Nat) : (s.enter k).mem = s.mem := rfl
@[simp] theorem State.enter_cur (s : State) (k : Nat) : (s.enter k).cur = s.cur := rfl
@[simp] theorem State.enter_agenda (s : State) (k : Nat) : (s.enter k).agenda = s.agenda := rfl
@[simp] theorem State.enter_fresh (s : State) (k : Nat) : (s.enter k).fresh = s.fresh := rfl

@[simp] theorem State.writeS_checkpoints (s : State) (r : Reg) (v : Dword) : (s.writeS r v).checkpoints = s.checkpoints := rfl
@[simp] theorem State.writeS_cores (s : State) (r : Reg) (v : Dword) : (s.writeS r v).cores = s.cores := rfl
@[simp] theorem State.writeS_clusters (s : State) (r : Reg) (v : Dword) : (s.writeS r v).clusters = s.clusters := rfl
@[simp] theorem State.writeS_ctxs (s : State) (r : Reg) (v : Dword) : (s.writeS r v).ctxs = s.ctxs := rfl
@[simp] theorem State.writeS_tenants (s : State) (r : Reg) (v : Dword) : (s.writeS r v).tenants = s.tenants := rfl
@[simp] theorem State.writeS_hub (s : State) (r : Reg) (v : Dword) : (s.writeS r v).hub = s.hub := rfl
@[simp] theorem State.writeS_mem (s : State) (r : Reg) (v : Dword) : (s.writeS r v).mem = s.mem := rfl
@[simp] theorem State.writeS_cur (s : State) (r : Reg) (v : Dword) : (s.writeS r v).cur = s.cur := rfl
@[simp] theorem State.writeS_agenda (s : State) (r : Reg) (v : Dword) : (s.writeS r v).agenda = s.agenda := rfl
@[simp] theorem State.writeS_fresh (s : State) (r : Reg) (v : Dword) : (s.writeS r v).fresh = s.fresh := rfl

@[simp] theorem State.parkMe_checkpoints (s : State) (n : Nat) (c : Cond) : (s.parkMe n c).checkpoints = s.checkpoints := rfl
@[simp] theorem State.parkMe_cores (s : State) (n : Nat) (c : Cond) : (s.parkMe n c).cores = s.cores := rfl
@[simp] theorem State.parkMe_clusters (s : State) (n : Nat) (c : Cond) : (s.parkMe n c).clusters = s.clusters := rfl
@[simp] theorem State.parkMe_ctxs (s : State) (n : Nat) (c : Cond) : (s.parkMe n c).ctxs = s.ctxs := rfl
@[simp] theorem State.parkMe_tenants (s : State) (n : Nat) (c : Cond) : (s.parkMe n c).tenants = s.tenants := rfl
@[simp] theorem State.parkMe_hub (s : State) (n : Nat) (c : Cond) : (s.parkMe n c).hub = s.hub := rfl
@[simp] theorem State.parkMe_mem (s : State) (n : Nat) (c : Cond) : (s.parkMe n c).mem = s.mem := rfl
@[simp] theorem State.parkMe_cur (s : State) (n : Nat) (c : Cond) : (s.parkMe n c).cur = s.cur := rfl
@[simp] theorem State.parkMe_agenda (s : State) (n : Nat) (c : Cond) : (s.parkMe n c).agenda = s.agenda := rfl
@[simp] theorem State.parkMe_fresh (s : State) (n : Nat) (c : Cond) : (s.parkMe n c).fresh = s.fresh := rfl

@[simp] theorem State.draw_groups (s : State) : s.draw.2.groups = s.groups := rfl
@[simp] theorem State.draw_checkpoints (s : State) : s.draw.2.checkpoints = s.checkpoints := rfl
@[simp] theorem State.draw_cores (s : State) : s.draw.2.cores = s.cores := rfl
@[simp] theorem State.draw_clusters (s : State) : s.draw.2.clusters = s.clusters := rfl
@[simp] theorem State.draw_ctxs (s : State) : s.draw.2.ctxs = s.ctxs := rfl
@[simp] theorem State.draw_tenants (s : State) : s.draw.2.tenants = s.tenants := rfl
@[simp] theorem State.draw_hub (s : State) : s.draw.2.hub = s.hub := rfl
@[simp] theorem State.draw_mem (s : State) : s.draw.2.mem = s.mem := rfl
@[simp] theorem State.draw_cur (s : State) : s.draw.2.cur = s.cur := rfl
@[simp] theorem State.draw_agenda (s : State) : s.draw.2.agenda = s.agenda := rfl
@[simp] theorem State.draw_fresh (s : State) : s.draw.2.fresh = s.fresh + 1 := rfl

/-- A marked context changes the hub alone. -/
theorem State.doom_fields (s : State) (c r : Nat) :
    (s.doom c r).groups = s.groups ∧ (s.doom c r).cores = s.cores ∧ (s.doom c r).mem = s.mem ∧ (s.doom c r).ctxs = s.ctxs ∧
      (s.doom c r).cur = s.cur := by
  unfold State.doom
  split <;> simp

end Sys2Proof.Machine
end

