-- ==== Sys2Proof/Laws/Ops.lean ====
section
/-! SUPPORT. Laws of the shared operations of a bundle: reading a group or core after an update, the common issue, completion, and the
end of marked contexts. -/

namespace Sys2Proof.Machine

open Sys2Proof.Safety

/-! ### Groups and cores after an update -/

theorem Group.ne_idle {x : Group} (h : x.used = true) : x ≠ Group.idle := by
  intro e
  rw [e] at h
  exact Bool.noConfusion h

theorem State.grp_setGrp_self (s : State) (g : Nat) {x : Group} (h : x.used = true) : (s.setGrp g x).grp g = x :=
  SMap.look_put_ne_default s.groups g (Group.ne_idle h)

theorem State.grp_setGrp_ne (s : State) {g i : Nat} {x : Group} (h : x.used = true) (hi : i ≠ g) : (s.setGrp g x).grp i = s.grp i :=
  SMap.look_put_other s.groups (Group.ne_idle h) hi

theorem State.me_onMe (s : State) {f : Group → Group} (h : (f s.me).used = true) : (s.onMe f).me = f s.me :=
  State.grp_setGrp_self s s.cur h

theorem State.grp_onMe_ne (s : State) {f : Group → Group} {i : Nat} (h : (f s.me).used = true) (hi : i ≠ s.cur) :
    (s.onMe f).grp i = s.grp i :=
  State.grp_setGrp_ne s h hi

theorem State.core_setCore_self (s : State) (c : Nat) {x : Core} (h : x ≠ Core.idle) : (s.setCore c x).core c = x :=
  SMap.look_put_ne_default s.cores c h

theorem State.core_setCore_ne (s : State) {c i : Nat} {x : Core} (h : x ≠ Core.idle) (hi : i ≠ c) : (s.setCore c x).core i = s.core i :=
  SMap.look_put_other s.cores h hi

/-! ### What stays elsewhere -/

theorem elsewhere_refl (s : State) : Elsewhere s s := ⟨rfl, fun _ _ => rfl, fun _ => rfl, rfl, rfl, rfl, rfl, fun _ => rfl⟩

theorem elsewhere_trans {s t u : State} (h : Elsewhere s t) (k : Elsewhere t u) : Elsewhere s u :=
  ⟨k.cur.trans h.cur, fun g hg => (k.groups g (h.cur ▸ hg)).trans (h.groups g hg), fun a => (k.mem a).trans (h.mem a),
    k.clusters.trans h.clusters, k.ctxs.trans h.ctxs, k.tenants.trans h.tenants, k.hub.trans h.hub, fun c => (k.cores c).trans (h.cores c)⟩

/-- An update of the current group leaves the rest. -/
theorem elsewhere_onMe (s : State) {f : Group → Group} (h : (f s.me).used = true) : Elsewhere s (s.onMe f) :=
  ⟨rfl, fun _ hg => State.grp_onMe_ne s h hg, fun _ => rfl, rfl, rfl, rfl, rfl, fun _ => rfl⟩

theorem elsewhere_setGrp (s : State) {x : Group} (h : x.used = true) : Elsewhere s (s.setGrp s.cur x) :=
  ⟨rfl, fun _ hg => State.grp_setGrp_ne s h hg, fun _ => rfl, rfl, rfl, rfl, rfl, fun _ => rfl⟩

/-- A core that serves a context is not the idle core. -/
theorem core_ne_idle {k : Core} {i c : Nat} (h : vat k.resident i none = some c) : k ≠ Core.idle := by
  intro e
  rw [e] at h
  simp only [Core.idle, vat] at h
  split at h <;> simp at h

/-- An event count changes the counts of its core alone. -/
theorem elsewhere_bump (s : State) (core c n b : Nat) : Elsewhere s (s.bump core c n b) := by
  unfold State.bump
  split
  · exact elsewhere_refl s
  · rename_i slot hs
    have hr := List.find?_some hs
    simp only [beq_iff_eq] at hr
    refine ⟨rfl, fun _ _ => rfl, fun _ => rfl, rfl, rfl, rfl, rfl, fun i => ?_⟩
    have hk : ∀ m : SMap Dword, ({ s.core core with counters := m } : Core) ≠ Core.idle := fun m => core_ne_idle (i := slot) (c := c) hr
    by_cases hi : i = core
    · subst hi
      rw [State.onCore, State.core_setCore_self s i (hk _)]
      rfl
    · rw [State.onCore, State.core_setCore_ne s (hk _) hi]

@[simp] theorem State.bump_groups (s : State) (core c n b : Nat) : (s.bump core c n b).groups = s.groups := by
  unfold State.bump
  split <;> rfl

@[simp] theorem State.bump_cur (s : State) (core c n b : Nat) : (s.bump core c n b).cur = s.cur := (elsewhere_bump s core c n b).cur

@[simp] theorem State.bump_grp (s : State) (core c n b g : Nat) : (s.bump core c n b).grp g = s.grp g := by simp [State.grp]

@[simp] theorem State.bump_me (s : State) (core c n b : Nat) : (s.bump core c n b).me = s.me := by simp [State.me]

/-- The register-port cycle of a partial write leaves every group, and elsewhere only its core's bookkeeping. -/
theorem elsewhere_partialWrite (s : State) : Elsewhere s s.partialWrite ∧ s.partialWrite.me = s.me := by
  unfold State.partialWrite
  simp only
  split
  · exact ⟨elsewhere_refl s, rfl⟩
  · refine ⟨elsewhere_trans ?_ (elsewhere_bump _ _ _ _ _), by rw [State.bump_me]; rfl⟩
    let port := fun (k : Core) => ({ k with busy := vset k.busy (slotOf s.cur / 12) (k.cycles + 2), rmw := vset k.rmw (slotOf s.cur / 12) (k.cycles + 2) } : Core)
    have hk : ∀ k : Core, port k ≠ Core.idle := by
      intro k e
      have hb : vset k.busy (slotOf s.cur / 12) (k.cycles + 2) = Vector.replicate 2 0 := congrArg Core.busy e
      have hlt : slotOf s.cur / 12 < 2 := by unfold slotOf; omega
      simp only [vset, hlt, dite_true] at hb
      have := congrArg (fun v : Vector Nat 2 => v[slotOf s.cur / 12]) hb
      simp at this
    refine ⟨rfl, fun _ _ => rfl, fun _ => rfl, rfl, rfl, rfl, rfl, fun i => ?_⟩
    by_cases hi : i = coreOf s.cur
    · subst hi
      rw [State.onCore, State.core_setCore_self s _ (hk _)]
      rfl
    · rw [State.onCore, State.core_setCore_ne s (hk _) hi]

/-! ### Sessions and marked contexts -/

theorem State.session?_congr {s t : State} (hc : t.ctxs = s.ctxs) (ht : t.tenants = s.tenants) (c : Nat) : t.session? c = s.session? c := by
  simp [State.session?, State.ctx, State.tenant, hc, ht]

theorem State.recording?_none {s : State} {c : Nat} (h : s.session? c = none) : s.recording? c = none := by simp [State.recording?, h]

theorem State.replaying?_none {s : State} {c : Nat} (h : s.session? c = none) : s.replaying? c = none := by simp [State.replaying?, h]

theorem State.reap_calm {s : State} (h : s.hub.doomed = []) : s.reap = s := by simp [State.reap, h]

/-! ### The common issue -/

/-- A bundle that passes the checks of R124 is its own body and its completion. -/
theorem issue_of_issues {x : Pre} {o : Op} {s : State} (body : Flds → State → Eff) (h : Issues x o s) :
    issue x o body s = finish x o.code (body (fieldsNow x o s) (s.enter (repNow x s))) := by
  obtain ⟨h1, h2, h3, h4, h5⟩ := h
  simp only [issue, h1, h2, h3, h4, h5, Option.isSome_none, Bool.false_eq_true, if_false, ite_self]
  rfl

/-- The bundle under way, its repeat noted. -/
theorem enter_me {s : State} (h : s.me.used = true) (k : Nat) : (s.enter k).me = { s.me with rep := k, resume := 0 } :=
  State.me_onMe s (f := fun g => { g with rep := k, resume := 0 }) h

theorem elsewhere_enter {s : State} (h : s.me.used = true) (k : Nat) : Elsewhere s (s.enter k) :=
  elsewhere_onMe s (f := fun g => { g with rep := k, resume := 0 }) h

/-! ### Completion -/

/-- A group held by a slot keeps it when only bookkeeping changes. -/
theorem used_of_arch {x y : Group} (h : arch x = arch y) : x.used = y.used := by
  have e : (arch x).used = (arch y).used := congrArg Group.used h
  exact e

/-- Entering run-ahead is bookkeeping, and the event counts of the core. -/
theorem enterRunAhead_plain (s : State) (pc : Dword) (p : Flight → Bool) (hu : s.me.used = true) :
    arch (s.enterRunAhead s.cur pc p).me = arch s.me ∧ Elsewhere s (s.enterRunAhead s.cur pc p) ∧
      ((s.enterRunAhead s.cur pc p).me.pc = s.me.pc ∧ (s.enterRunAhead s.cur pc p).me.rep = s.me.rep ∨
        (s.enterRunAhead s.cur pc p).me.pc = pc ∧ (s.enterRunAhead s.cur pc p).me.rep = 0) := by
  unfold State.enterRunAhead
  simp only
  split
  · exact ⟨rfl, elsewhere_refl s, .inl ⟨rfl, rfl⟩⟩
  · split
    · rename_i f _ _
      let ra : RunAhead := { bundles := 0, bad := [], badPreds := [], stopped := false, badEm := false, awaited := f.seq }
      let y : Group := { s.grp s.cur with wait := Wait.none, pc := pc, rep := 0, runAhead := some ra }
      let a : State := { s with checkpoints := SMap.put s.checkpoints s.cur (s.grp s.cur) Group.idle }
      have hy : y.used = true := hu
      have e : (a.setGrp s.cur y).me = y := State.grp_setGrp_self a s.cur hy
      have hE : Elsewhere s (a.setGrp s.cur y) :=
        ⟨rfl, fun g hg => State.grp_setGrp_ne a hy hg, fun _ => rfl, rfl, rfl, rfl, rfl, fun _ => rfl⟩
      refine ⟨?_, elsewhere_trans hE (elsewhere_bump _ _ _ _ _), .inr ⟨?_, ?_⟩⟩
      · rw [State.bump_me]
        exact (congrArg arch e).trans rfl
      · rw [State.bump_me]
        exact (congrArg Group.pc e).trans rfl
      · rw [State.bump_me]
        exact (congrArg Group.rep e).trans rfl
    · exact ⟨rfl, elsewhere_refl s, .inl ⟨rfl, rfl⟩⟩

/-- The group as a completion leaves it, before its marker (R101, R115). -/
theorem complete_plain {u : State} (x : Pre) (code : Option Nat) (dest : Option Dword) (h : Plain u) :
    arch (u.complete x code dest).me = arch u.me ∧ Elsewhere u (u.complete x code dest) ∧
      (if (dest.isNone && decide (u.me.rep + 1 < repsOf x)) = true then
        (u.complete x code dest).me.pc = u.me.pc ∧ (u.complete x code dest).me.rep = u.me.rep + 1
      else (u.complete x code dest).me.pc = dest.getD (afterBundle x u.me.pc) ∧ (u.complete x code dest).me.rep = 0) := by
  obtain ⟨hu, hw, ha, hf, _⟩ := h
  unfold State.complete
  simp only [ha, Option.isSome_none, Bool.false_eq_true, if_false, State.bump_me]
  generalize hb : u.bump (coreOf u.cur) u.me.ctx 0 1 = b
  have hbE : Elsewhere u b := hb ▸ elsewhere_bump _ _ _ _ _
  have hbc : b.cur = u.cur := hbE.cur
  generalize (dest.isNone && decide (u.me.rep + 1 < repsOf x)) = more
  generalize hy1 : (if more = true then
      ({ u.me with rep := u.me.rep + 1, unfin := 0, clamped := false, walked := [], givenUp := [], noCheck := false, partLoad := none, queued := 0 } : Group)
    else { u.me with pc := dest.getD (afterBundle x u.me.pc), rep := 0, unfin := 0, clamped := false, walked := [], givenUp := [], noCheck := false, partLoad := none, queued := 0 }) = y1
  have h1 : arch y1 = arch u.me := by
    rw [← hy1]
    split <;> rfl
  have hp : if more = true then y1.pc = u.me.pc ∧ y1.rep = u.me.rep + 1 else y1.pc = dest.getD (afterBundle x u.me.pc) ∧ y1.rep = 0 := by
    rw [← hy1]
    cases more <;> exact ⟨rfl, rfl⟩
  have hw1 : y1.wait.cond ≠ .marker := by
    rw [← hy1]
    split <;> exact hw
  clear hy1
  generalize hy2 : (if (!more && x.z) = true then
      if y1.flights.any Flight.markerResult = true then ({ y1 with wait := { code := y1.markerCode, cond := .marker } } : Group) else y1.passMarker
    else y1) = y2
  have h2 : arch y2 = arch u.me ∧ y2.pc = y1.pc ∧ y2.rep = y1.rep ∧ (y2.wait.cond = .marker → more = false) := by
    rw [← hy2]
    split
    · rename_i hm
      simp only [Bool.and_eq_true, Bool.not_eq_true'] at hm
      split
      · exact ⟨h1, rfl, rfl, fun _ => hm.1⟩
      · exact ⟨h1, rfl, rfl, fun _ => hm.1⟩
    · exact ⟨h1, rfl, rfl, fun e => absurd e hw1⟩
  clear hy2
  have hu2 : y2.used = true := (used_of_arch h2.1).trans hu
  have hst : y2.step = none := by
    have e : (arch y2).step = (arch u.me).step := congrArg Group.step h2.1
    exact e.trans hf
  generalize hs2 : b.setGrp u.cur y2 = s2
  have hm2 : s2.me = y2 := by
    rw [← hs2]
    show (b.setGrp u.cur y2).grp b.cur = y2
    rw [hbc]
    exact State.grp_setGrp_self b _ hu2
  have hE2 : Elsewhere u s2 := by
    rw [← hs2, ← hbc]
    exact elsewhere_trans hbE (elsewhere_setGrp b hu2)
  have hc2 : s2.cur = u.cur := hE2.cur
  clear hs2
  have hp2 : if more = true then s2.me.pc = u.me.pc ∧ s2.me.rep = u.me.rep + 1
      else s2.me.pc = dest.getD (afterBundle x u.me.pc) ∧ s2.me.rep = 0 := by
    rw [hm2, h2.2.1, h2.2.2.1]
    exact hp
  have hnext : s2.stepBoundary u.cur = s2 := by
    have e : (s2.grp u.cur).step = none := by
      rw [← hc2]
      show s2.me.step = none
      rw [hm2]
      exact hst
    unfold State.stepBoundary
    rw [e]
  have key : ∀ s3, (if y2.wait.cond = .marker then s2.enterRunAhead u.cur y2.pc (fun f => f.dest matches [.s _]) else s2.stepBoundary u.cur) = s3 →
      arch s3.me = arch u.me ∧ Elsewhere u s3 ∧ (if more = true then s3.me.pc = u.me.pc ∧ s3.me.rep = u.me.rep + 1
        else s3.me.pc = dest.getD (afterBundle x u.me.pc) ∧ s3.me.rep = 0) := by
    intro s3 hs3
    rw [← hs3]
    split
    · rename_i hk
      have hmore := h2.2.2.2 hk
      subst hmore
      have hra := enterRunAhead_plain s2 y2.pc (fun f => f.dest matches [.s _]) (by rw [hm2]; exact hu2)
      rw [hc2] at hra
      obtain ⟨ha', he', hpp⟩ := hra
      refine ⟨ha'.trans (by rw [hm2]; exact h2.1), elsewhere_trans hE2 he', ?_⟩
      simp only [Bool.false_eq_true, if_false] at hp2 hp ⊢
      rcases hpp with ⟨e1, e2⟩ | ⟨e1, e2⟩
      · exact ⟨e1.trans hp2.1, e2.trans hp2.2⟩
      · exact ⟨e1.trans (h2.2.1.trans hp.1), e2⟩
    · rw [hnext]
      exact ⟨by rw [hm2]; exact h2.1, hE2, hp2⟩
  exact key _ rfl

/-- The outcome of a body that goes on, outside sessions: the group as the body leaves it, behind its repeat. -/
theorem finish_next {s u : State} (x : Pre) (code : Option Nat) (h : Plain u) (he : Elsewhere s u) (hr : u.me.rep = repNow x s)
    (hpc : u.me.pc = s.me.pc) :
    ∃ t, finish x code (.next u) = .next t ∧ arch t.me = arch u.me ∧ Elsewhere s t ∧ Advances x (nextPc x s) s t := by
  obtain ⟨h1, h2, h3⟩ := complete_plain x code none h
  refine ⟨(u.complete x code none).reap, rfl, ?_⟩
  rw [State.reap_calm (by rw [h2.hub]; exact h.calm)]
  refine ⟨h1, elsewhere_trans he h2, ?_⟩
  simp only [Option.isNone_none, Bool.true_and, decide_eq_true_eq, Option.getD_none, hr, hpc] at h3
  exact h3

/-- The outcome of a body that jumps, outside sessions. -/
theorem finish_jump {s u : State} (x : Pre) (code : Option Nat) (pc : Dword) (h : Plain u) (he : Elsewhere s u) :
    ∃ t, finish x code (.jump pc u) = .next t ∧ arch t.me = arch u.me ∧ Elsewhere s t ∧ t.me.pc = pc ∧ t.me.rep = 0 := by
  obtain ⟨h1, h2, h3⟩ := complete_plain x code (some pc) h
  refine ⟨(u.complete x code (some pc)).reap, rfl, ?_⟩
  rw [State.reap_calm (by rw [h2.hub]; exact h.calm)]
  simp only [Option.isNone_some, Bool.false_and, Bool.false_eq_true, if_false, Option.getD_some] at h3
  exact ⟨h1, elsewhere_trans he h2, h3⟩

end Sys2Proof.Machine
end

