-- ==== Sys2Proof/Laws/Operands.lean ====
section
/-! SUPPORT. Operands: states that agree on the group's registers read the same operands; writing a register is an update of the current
group. -/

namespace Sys2Proof.Machine

open Sys2Proof.Safety

/-! ### Fields of a group that its bookkeeping does not touch -/

theorem arch_used {x y : Group} (h : arch x = arch y) : x.used = y.used := (congrArg Group.used h : (arch x).used = (arch y).used)
theorem arch_ctx {x y : Group} (h : arch x = arch y) : x.ctx = y.ctx := (congrArg Group.ctx h : (arch x).ctx = (arch y).ctx)
theorem arch_crew {x y : Group} (h : arch x = arch y) : x.crew = y.crew := (congrArg Group.crew h : (arch x).crew = (arch y).crew)
theorem arch_index {x y : Group} (h : arch x = arch y) : x.index = y.index := (congrArg Group.index h : (arch x).index = (arch y).index)
theorem arch_scrw {x y : Group} (h : arch x = arch y) : x.scrw = y.scrw := (congrArg Group.scrw h : (arch x).scrw = (arch y).scrw)
theorem arch_sx {x y : Group} (h : arch x = arch y) : x.sx = y.sx := (congrArg Group.sx h : (arch x).sx = (arch y).sx)
theorem arch_arg {x y : Group} (h : arch x = arch y) : x.arg = y.arg := (congrArg Group.arg h : (arch x).arg = (arch y).arg)
theorem arch_spad {x y : Group} (h : arch x = arch y) : x.spad = y.spad := (congrArg Group.spad h : (arch x).spad = (arch y).spad)
theorem arch_ordinal {x y : Group} (h : arch x = arch y) : x.ordinal = y.ordinal := (congrArg Group.ordinal h : (arch x).ordinal = (arch y).ordinal)
theorem arch_em {x y : Group} (h : arch x = arch y) : x.em = y.em := (congrArg Group.em h : (arch x).em = (arch y).em)
theorem arch_live {x y : Group} (h : arch x = arch y) : x.live = y.live := (congrArg Group.live h : (arch x).live = (arch y).live)
theorem arch_preds {x y : Group} (h : arch x = arch y) : x.preds = y.preds := (congrArg Group.preds h : (arch x).preds = (arch y).preds)
theorem arch_av {x y : Group} (h : arch x = arch y) : x.av = y.av := (congrArg Group.av h : (arch x).av = (arch y).av)
theorem arch_as {x y : Group} (h : arch x = arch y) : x.as = y.as := (congrArg Group.as h : (arch x).as = (arch y).as)
theorem arch_vregs {x y : Group} (h : arch x = arch y) : x.vregs = y.vregs := (congrArg Group.vregs h : (arch x).vregs = (arch y).vregs)
theorem arch_sregs {x y : Group} (h : arch x = arch y) : x.sregs = y.sregs := (congrArg Group.sregs h : (arch x).sregs = (arch y).sregs)
theorem arch_vb {x y : Group} (h : arch x = arch y) : x.vb = y.vb := (congrArg Group.vb h : (arch x).vb = (arch y).vb)
theorem arch_sb {x y : Group} (h : arch x = arch y) : x.sb = y.sb := (congrArg Group.sb h : (arch x).sb = (arch y).sb)
theorem arch_vlow {x y : Group} (h : arch x = arch y) : x.vlow = y.vlow := (congrArg Group.vlow h : (arch x).vlow = (arch y).vlow)
theorem arch_slow {x y : Group} (h : arch x = arch y) : x.slow = y.slow := (congrArg Group.slow h : (arch x).slow = (arch y).slow)
theorem arch_ofile {x y : Group} (h : arch x = arch y) : x.ofile = y.ofile := (congrArg Group.ofile h : (arch x).ofile = (arch y).ofile)
theorem arch_hfile {x y : Group} (h : arch x = arch y) : x.hfile = y.hfile := (congrArg Group.hfile h : (arch x).hfile = (arch y).hfile)
theorem arch_issued {x y : Group} (h : arch x = arch y) : x.issued = y.issued := (congrArg Group.issued h : (arch x).issued = (arch y).issued)
theorem arch_counted {x y : Group} (h : arch x = arch y) : x.counted = y.counted := (congrArg Group.counted h : (arch x).counted = (arch y).counted)
theorem arch_links {x y : Group} (h : arch x = arch y) : x.links = y.links := (congrArg Group.links h : (arch x).links = (arch y).links)
theorem arch_fctl {x y : Group} (h : arch x = arch y) : x.fctl = y.fctl := (congrArg Group.fctl h : (arch x).fctl = (arch y).fctl)
theorem arch_fflags {x y : Group} (h : arch x = arch y) : x.fflags = y.fflags := (congrArg Group.fflags h : (arch x).fflags = (arch y).fflags)
theorem arch_tcause {x y : Group} (h : arch x = arch y) : x.tcause = y.tcause := (congrArg Group.tcause h : (arch x).tcause = (arch y).tcause)
theorem arch_tpc {x y : Group} (h : arch x = arch y) : x.tpc = y.tpc := (congrArg Group.tpc h : (arch x).tpc = (arch y).tpc)
theorem arch_tval {x y : Group} (h : arch x = arch y) : x.tval = y.tval := (congrArg Group.tval h : (arch x).tval = (arch y).tval)
theorem arch_rpidx {x y : Group} (h : arch x = arch y) : x.rpidx = y.rpidx := (congrArg Group.rpidx h : (arch x).rpidx = (arch y).rpidx)
theorem arch_draws {x y : Group} (h : arch x = arch y) : x.draws = y.draws := (congrArg Group.draws h : (arch x).draws = (arch y).draws)
theorem arch_intrap {x y : Group} (h : arch x = arch y) : x.intrap = y.intrap := (congrArg Group.intrap h : (arch x).intrap = (arch y).intrap)
theorem arch_bundle {x y : Group} (h : arch x = arch y) : x.bundle = y.bundle := (congrArg Group.bundle h : (arch x).bundle = (arch y).bundle)
theorem arch_halted {x y : Group} (h : arch x = arch y) : x.halted = y.halted := (congrArg Group.halted h : (arch x).halted = (arch y).halted)
theorem arch_step {x y : Group} (h : arch x = arch y) : x.step = y.step := (congrArg Group.step h : (arch x).step = (arch y).step)
theorem arch_stepPc {x y : Group} (h : arch x = arch y) : x.stepPc = y.stepPc := (congrArg Group.stepPc h : (arch x).stepPc = (arch y).stepPc)
theorem arch_leaving {x y : Group} (h : arch x = arch y) : x.leaving = y.leaving := (congrArg Group.leaving h : (arch x).leaving = (arch y).leaving)
theorem arch_unfinPc {x y : Group} (h : arch x = arch y) : x.unfinPc = y.unfinPc := (congrArg Group.unfinPc h : (arch x).unfinPc = (arch y).unfinPc)
theorem arch_kept {x y : Group} (h : arch x = arch y) : x.kept = y.kept := (congrArg Group.kept h : (arch x).kept = (arch y).kept)
theorem arch_missing {x y : Group} (h : arch x = arch y) : x.missing = y.missing := (congrArg Group.missing h : (arch x).missing = (arch y).missing)
theorem arch_flights {x y : Group} (h : arch x = arch y) : x.flights = y.flights := (congrArg Group.flights h : (arch x).flights = (arch y).flights)
theorem arch_nextFlight {x y : Group} (h : arch x = arch y) : x.nextFlight = y.nextFlight := (congrArg Group.nextFlight h : (arch x).nextFlight = (arch y).nextFlight)
theorem arch_nextSeq {x y : Group} (h : arch x = arch y) : x.nextSeq = y.nextSeq := (congrArg Group.nextSeq h : (arch x).nextSeq = (arch y).nextSeq)
theorem arch_batchNum {x y : Group} (h : arch x = arch y) : x.batchNum = y.batchNum := (congrArg Group.batchNum h : (arch x).batchNum = (arch y).batchNum)
theorem arch_batches {x y : Group} (h : arch x = arch y) : x.batches = y.batches := (congrArg Group.batches h : (arch x).batches = (arch y).batches)
theorem arch_lastErr {x y : Group} (h : arch x = arch y) : x.lastErr = y.lastErr := (congrArg Group.lastErr h : (arch x).lastErr = (arch y).lastErr)
theorem arch_binding {x y : Group} (h : arch x = arch y) : x.binding = y.binding := (congrArg Group.binding h : (arch x).binding = (arch y).binding)
theorem arch_age {x y : Group} (h : arch x = arch y) : x.age = y.age := (congrArg Group.age h : (arch x).age = (arch y).age)
theorem arch_parked {x y : Group} (h : arch x = arch y) : x.parked = y.parked := (congrArg Group.parked h : (arch x).parked = (arch y).parked)

/-! ### Reading -/

/-- t reads the same operands as s: its group has the same registers, in the same slot of the same device. -/
structure SameReads (s t : State) : Prop where
  regs : arch t.me = arch s.me
  cur : t.cur = s.cur
  dev : t.hub.device = s.hub.device

theorem SameReads.enter {s : State} (h : s.me.used = true) (k : Nat) : SameReads s (s.enter k) :=
  ⟨by rw [enter_me h]; rfl, rfl, rfl⟩

theorem readS_congr {s t : State} (h : SameReads s t) (r : Reg) : t.readS r = s.readS r := by
  have e := h.regs
  simp only [State.readS, State.special, Group.sabs, arch_sregs e, arch_sb e, arch_index e, arch_scrw e, arch_arg e, arch_spad e, arch_sx e,
    h.cur, h.dev]

theorem srcS_congr {s t : State} (h : SameReads s t) (x : Pre) (r : Reg) : t.srcS x r = s.srcS x r := by
  simp only [State.srcS, readS_congr h]

theorem readReg_congr {s t : State} (h : SameReads s t) (r : Reg) : t.readReg r = s.readReg r := by
  have e := h.regs
  simp only [State.readReg, Group.vabs, Group.sabs, arch_sregs e, arch_sb e, arch_vregs e, arch_vb e, arch_ofile e, arch_hfile e]

theorem readPair_congr {s t : State} (h : SameReads s t) (r : Reg) : t.readPair r = s.readPair r := by
  have e := h.regs
  funext i
  simp only [State.readPair, Group.sabs, arch_sregs e, arch_sb e, arch_hfile e, readReg_congr h]

theorem srcVA_congr {s t : State} (h : SameReads s t) (x : Pre) (r : Reg) : t.srcVA x r = s.srcVA x r := by
  funext i
  simp only [State.srcVA, readReg_congr h, arch_live h.regs]

theorem srcVB_congr {s t : State} (h : SameReads s t) (x : Pre) (r : Reg) : t.srcVB x r = s.srcVB x r := by
  funext i
  simp only [State.srcVB, readReg_congr h, arch_live h.regs]

theorem srcWA_congr {s t : State} (h : SameReads s t) (x : Pre) (r : Reg) : t.srcWA x r = s.srcWA x r := by
  funext i
  simp only [State.srcWA, readPair_congr h, arch_live h.regs]

theorem srcWB_congr {s t : State} (h : SameReads s t) (x : Pre) (r : Reg) : t.srcWB x r = s.srcWB x r := by
  funext i
  simp only [State.srcWB, readPair_congr h, arch_live h.regs]

theorem srcVD_congr {s t : State} (h : SameReads s t) (r : Reg) : t.srcVD r = s.srcVD r := by
  funext i
  simp only [State.srcVD, readReg_congr h]

theorem readP_congr {s t : State} (h : SameReads s t) (r : Reg) : t.readP r = s.readP r := by
  simp only [State.readP, arch_preds h.regs]

theorem act_congr {s t : State} (h : SameReads s t) : t.me.act = s.me.act := by
  simp only [Group.act, arch_em h.regs, arch_live h.regs]

theorem rm_congr {s t : State} (h : SameReads s t) : t.me.rm = s.me.rm := by
  simp only [Group.rm, arch_fctl h.regs]

theorem ftz_congr {s t : State} (h : SameReads s t) : t.me.ftz = s.me.ftz := by
  simp only [Group.ftz, arch_fctl h.regs]

/-! ### Writing -/

theorem writeS_me {s : State} (h : s.me.used = true) (r : Reg) (v : Dword) : (s.writeS r v).me = s.me.setSabs (s.me.sb + r.toNat) v :=
  State.me_onMe s (f := fun g => g.setSabs (g.sb + r.toNat) v) h

theorem elsewhere_writeS {s : State} (h : s.me.used = true) (r : Reg) (v : Dword) : Elsewhere s (s.writeS r v) :=
  elsewhere_onMe s (f := fun g => g.setSabs (g.sb + r.toNat) v) h

theorem flag_me {s : State} (h : s.me.used = true) (m : Word) : (s.flag m).me = { s.me with fflags := s.me.fflags ||| m.zeroExtend 64 } :=
  State.me_onMe s (f := fun g => { g with fflags := g.fflags ||| m.zeroExtend 64 }) h

theorem elsewhere_flag {s : State} (h : s.me.used = true) (m : Word) : Elsewhere s (s.flag m) :=
  elsewhere_onMe s (f := fun g => { g with fflags := g.fflags ||| m.zeroExtend 64 }) h

theorem writeP_me {s : State} (h : s.me.used = true) (r : Reg) (v : Word) :
    (s.writeP r v).me = if r.toNat = 0 then s.me else { s.me with preds := vset s.me.preds r.toNat v } := by
  unfold State.writeP
  split
  · rfl
  · exact State.me_onMe s (f := fun g => { g with preds := vset g.preds r.toNat v }) h

theorem elsewhere_writeP {s : State} (h : s.me.used = true) (r : Reg) (v : Word) : Elsewhere s (s.writeP r v) := by
  unfold State.writeP
  split
  · exact elsewhere_refl s
  · exact elsewhere_onMe s (f := fun g => { g with preds := vset g.preds r.toNat v }) h

/-- A vector write touches one register and the last-result file. -/
theorem setV_other (g : Group) (r : RegId) (v : Lanes) :
    (g.setV r v).used = g.used ∧ (g.setV r v).wait = g.wait ∧ (g.setV r v).ctx = g.ctx ∧ (g.setV r v).step = g.step ∧
      (g.setV r v).pc = g.pc ∧ (g.setV r v).rep = g.rep ∧ (g.setV r v).em = g.em ∧ (g.setV r v).live = g.live ∧
      (g.setV r v).vb = g.vb ∧ (g.setV r v).fflags = g.fflags := by
  unfold Group.setV
  split <;> simp

theorem writeReg_other (g : Group) (r : RegId) (f : Nat → Word) :
    (g.writeReg r f).used = g.used ∧ (g.writeReg r f).wait = g.wait ∧ (g.writeReg r f).ctx = g.ctx ∧ (g.writeReg r f).step = g.step ∧
      (g.writeReg r f).pc = g.pc ∧ (g.writeReg r f).rep = g.rep ∧ (g.writeReg r f).em = g.em ∧ (g.writeReg r f).live = g.live ∧
      (g.writeReg r f).vb = g.vb ∧ (g.writeReg r f).fflags = g.fflags := by
  unfold Group.writeReg
  generalize mergeLanes g.live g.act (g.getV r) (lanesFn f) = v
  exact setV_other g r v

theorem writeReg_used (g : Group) (r : RegId) (f : Nat → Word) : (g.writeReg r f).used = g.used := (writeReg_other g r f).1

theorem writeV_me {s : State} (h : s.me.used = true) (r : Reg) (f : Nat → Word) : (s.writeV r f).me = s.me.writeReg (destV s.me r) f := by
  unfold State.writeV
  rw [(elsewhere_partialWrite _).2]
  exact State.me_onMe s (f := fun g => g.writeReg (destV g r) f) ((writeReg_used _ _ _).trans h)

theorem elsewhere_writeV {s : State} (h : s.me.used = true) (r : Reg) (f : Nat → Word) : Elsewhere s (s.writeV r f) :=
  elsewhere_trans (elsewhere_onMe s (f := fun g => g.writeReg (destV g r) f) ((writeReg_used _ _ _).trans h)) (elsewhere_partialWrite _).1

theorem writeW_me {s : State} (h : s.me.used = true) (r : Reg) (f : Nat → Dword) :
    (s.writeW r f).me =
      (s.me.writeReg (destV s.me r) fun i => (f i).truncate 32).writeReg (destV s.me (r + 1)) fun i => (f i >>> 32).truncate 32 := by
  unfold State.writeW
  rw [(elsewhere_partialWrite _).2]
  exact State.me_onMe s
    (f := fun g => (g.writeReg (destV g r) fun i => (f i).truncate 32).writeReg (destV g (r + 1)) fun i => (f i >>> 32).truncate 32)
    ((writeReg_used _ _ _).trans ((writeReg_used _ _ _).trans h))

theorem elsewhere_writeW {s : State} (h : s.me.used = true) (r : Reg) (f : Nat → Dword) : Elsewhere s (s.writeW r f) :=
  elsewhere_trans (elsewhere_onMe s
    (f := fun g => (g.writeReg (destV g r) fun i => (f i).truncate 32).writeReg (destV g (r + 1)) fun i => (f i >>> 32).truncate 32)
    ((writeReg_used _ _ _).trans ((writeReg_used _ _ _).trans h))) (elsewhere_partialWrite _).1

/-- A state that differs from a plain one in the registers of its group alone is plain. -/
theorem plain_of {s u : State} (h : Plain s) (he : Elsewhere s u) (hu : u.me.used = s.me.used) (hw : u.me.wait = s.me.wait)
    (hc : u.me.ctx = s.me.ctx) (hs : u.me.step = s.me.step) : Plain u :=
  ⟨hu.trans h.used, by rw [hw]; exact h.awake, by rw [hc]; exact (State.session?_congr he.ctxs he.tenants _).trans h.alone, hs.trans h.free,
    by rw [he.hub]; exact h.calm⟩

theorem arch_writeReg_arch (x : Group) (r : RegId) (f : Nat → Word) : arch (x.writeReg r f) = arch ((arch x).writeReg r f) := by
  cases r <;> rfl

/-- Bookkeeping does not matter to a vector write. -/
theorem arch_writeReg {x y : Group} (h : arch x = arch y) (r : RegId) (f : Nat → Word) : arch (x.writeReg r f) = arch (y.writeReg r f) := by
  rw [arch_writeReg_arch x, arch_writeReg_arch y, h]

/-- The bundle's standing in a body: the same group, context, wait and pc, and the repeat about to execute. -/
structure Stands (k : Nat) (s u : State) : Prop where
  used : u.me.used = s.me.used
  wait : u.me.wait = s.me.wait
  ctx : u.me.ctx = s.me.ctx
  step : u.me.step = s.me.step
  pc : u.me.pc = s.me.pc
  rep : u.me.rep = k

theorem stands_enter {s : State} (h : s.me.used = true) (k : Nat) : Stands k s (s.enter k) := by
  have e := enter_me h k
  exact ⟨by rw [e], by rw [e], by rw [e], by rw [e], by rw [e], by rw [e]⟩

theorem stands_trans {k : Nat} {s u v : State} (h : Stands k s u) (g : Stands k u v) : Stands k s v :=
  ⟨g.used.trans h.used, g.wait.trans h.wait, g.ctx.trans h.ctx, g.step.trans h.step, g.pc.trans h.pc, g.rep⟩

/-- An instruction whose body changes the current group alone, and goes on: it becomes what the body makes of the group. -/
theorem becomes_of {i : Instr} {x : Pre} {o : Op} {s u : State} {g : Group} {body : Flds → State → Eff} (hp : Plain s) (hi : Issues x o s)
    (hx : exec i s = issue x o body s) (hb : body (fieldsNow x o s) (s.enter (repNow x s)) = .next u)
    (he : Elsewhere (s.enter (repNow x s)) u) (hg : arch u.me = arch g) (hs : Stands (repNow x s) s u) : Becomes i x s g := by
  have he2 : Elsewhere s u := elsewhere_trans (elsewhere_enter hp.used _) he
  obtain ⟨t, h1, h2, h3, h4⟩ := finish_next (s := s) (u := u) x o.code (plain_of hp he2 hs.used hs.wait hs.ctx hs.step) he2 hs.rep hs.pc
  exact ⟨t, by rw [hx, issue_of_issues body hi, hb, h1], h2.trans hg, h3, h4⟩

end Sys2Proof.Machine
end

