-- ==== Sys2Proof/Laws/Scalar.lean ====
section
/-! SUPPORT. The shared bodies of scalar instructions, outside sessions and single steps: what each makes of the group. -/

namespace Sys2Proof.Machine

open Sys2Proof.Safety

/-- A body that writes one scalar register. -/
theorem setsScalar_of {i : Instr} {x : Pre} {o : Op} {v : Flds → State → Dword}
    (hx : ∀ s, exec i s = issue x o (fun r t => .next (t.writeS r.d (v r t))) s)
    (hv : ∀ s t r, SameReads s t → v r t = v r s) : SetsScalar i x o v := by
  intro s hp hi
  have he := enter_me hp.used (repNow x s)
  have hu : (s.enter (repNow x s)).me.used = true := by rw [he]; exact hp.used
  refine becomes_of hp hi (hx s) rfl (elsewhere_writeS hu _ _) ?_ ?_
  · rw [writeS_me hu, he, hv s _ _ (SameReads.enter hp.used _)]
    rfl
  · have h := stands_enter hp.used (repNow x s)
    refine stands_trans h ?_
    constructor <;> rw [writeS_me hu] <;> first | rfl | exact h.rep

theorem setsScalar_RRR {i : Instr} {x : Pre} {M m : Nat} {d a b : Reg} {f : Dword → Dword → Dword}
    (hx : ∀ s, exec i s = runRRR x M m d a b f s) :
    SetsScalar i x (opRRR x M m d a b) (fun r s => f (s.readS r.a) (s.srcS x r.b)) :=
  setsScalar_of hx (fun _ _ _ h => by simp only [readS_congr h, srcS_congr h])

theorem setsScalar_RRZ {i : Instr} {x : Pre} {M m : Nat} {d a : Reg} {f : Dword → Dword} (hx : ∀ s, exec i s = runRRZ x M m d a f s) :
    SetsScalar i x (opRRZ x M m d a) (fun r s => f (s.readS r.a)) :=
  setsScalar_of hx (fun _ _ _ h => by simp only [readS_congr h])

theorem setsScalar_RI {i : Instr} {x : Pre} {M : Nat} {d a : Reg} {k : BitVec 11} {f : Dword → Dword → Dword} {n : Dword}
    (hx : ∀ s, exec i s = runRI x M d a k f n s) : SetsScalar i x (opRI x M d a k) (fun r s => f (s.readS r.a) n) :=
  setsScalar_of hx (fun _ _ _ h => by simp only [readS_congr h])

theorem setsScalar_LI {i : Instr} {x : Pre} {M : Nat} {d : Reg} {k : BitVec 18} {n : Dword} (hx : ∀ s, exec i s = runLI x M d k n s) :
    SetsScalar i x (opLI x M d k) (fun _ _ => n) :=
  setsScalar_of hx (fun _ _ _ _ => rfl)

end Sys2Proof.Machine
end

