-- ==== Sys2Proof/Laws/Traps.lean ====
section
/-! SUPPORT. Taking a trap outside sessions (R280, R282). -/

namespace Sys2Proof.Machine

open Sys2Proof.Safety

/-- Outside sessions the end of a chunk changes the group's chunk alone. -/
theorem endChunk_plain {u : State} (code : Nat) (hu : u.me.used = true) (ha : u.session? u.me.ctx = none) :
    Elsewhere u (u.endChunk u.cur code) ∧ ∃ c, (u.endChunk u.cur code).me = { u.me with chunk := c } := by
  have hx : ∀ c, ({ u.me with chunk := c } : Group).used = true := fun _ => hu
  have h : u.endChunk u.cur code = u ∨ ∃ c, u.endChunk u.cur code = u.setGrp u.cur { u.me with chunk := c } := by
    unfold State.endChunk
    simp only
    split
    · exact .inl rfl
    · have ha' : u.session? (u.grp u.cur).ctx = none := ha
      rw [ha']
      exact .inr ⟨_, rfl⟩
  rcases h with h | ⟨c, h⟩
  · rw [h]
    exact ⟨elsewhere_refl u, u.me.chunk, rfl⟩
  · rw [h]
    exact ⟨elsewhere_setGrp u (hx c), c, State.grp_setGrp_self u u.cur (hx c)⟩

/-- Everything a trap does to a ready group: the trap registers, the handler's address, and the partly performed bundle kept. -/
theorem raise_plain {s u : State} {k : Nat} (h : Ready s) (he : Elsewhere s u) (hs : Stands k s u) (hi : u.me.intrap = false)
    (h0 : u.me.resume = 0) (cause : Nat) (v : Dword) (r : Bool) :
    Elsewhere s (u.raise cause v r) ∧ ∃ c kp, (u.raise cause v r).me =
      { u.me with
        chunk := c, tcause := BitVec.ofNat 64 (cause + if r then 256 else 0), tpc := u.me.pc, tval := v, intrap := true
        pc := (s.ctx s.me.ctx).tvec, rpidx := if r then BitVec.ofNat 64 u.me.rep else u.me.rpidx, kept := kp
        unfin := 0, partLoad := none, clamped := false
        rep := 0, resume := 0, wait := Wait.none, walked := [], givenUp := [], noCheck := false, queued := 0 } := by
  have hp : Plain u := plain_of h.plain he hs.used hs.wait hs.ctx hs.step
  have hc : u.ctx u.me.ctx = s.ctx s.me.ctx := by simp only [State.ctx, he.ctxs, hs.ctx]
  have hz : ((u.ctx u.me.ctx).tvec == 0) = false := by
    rw [hc]
    simpa using h.handler
  obtain ⟨e1, c, e2⟩ := endChunk_plain 8 hp.used hp.alone
  have hrep : u.replaying? u.me.ctx = none := State.replaying?_none hp.alone
  unfold State.raise
  simp only [hi, hz, hrep, Bool.or_self, Bool.false_eq_true, if_false, Option.isSome_none, Bool.false_and]
  generalize hb : (if cause = 2 then (u.endChunk u.cur 8).bump (coreOf u.cur) u.me.ctx 11 1 else u.endChunk u.cur 8) = b
  have hbE : Elsewhere u b ∧ b.me = (u.endChunk u.cur 8).me := by
    rw [← hb]
    split
    · exact ⟨elsewhere_trans e1 (elsewhere_bump _ _ _ _ _), State.bump_me _ _ _ _ _⟩
    · exact ⟨e1, rfl⟩
  have hm : b.me = { u.me with chunk := c } := hbE.2.trans e2
  refine ⟨elsewhere_trans he (elsewhere_trans hbE.1 (elsewhere_onMe b ?_)), c, ?_⟩
  · rw [hm]
    exact hp.used
  · rw [State.me_onMe b (by rw [hm]; exact hp.used), hm]
    have ha : u.me.atRep = u.me.rep := by simp [Group.atRep, h0]
    have hb' : ({ u.me with chunk := c } : Group).atRep = u.me.atRep := rfl
    exact ⟨_, by rw [hc, hb', ha]⟩

/-- A body that raises an exception: the instruction takes it. -/
theorem takesTrap_of {i : Instr} {x : Pre} {o : Op} {s u : State} {body : Flds → State → Eff} {cause : Nat} {v : Dword} {g : Group}
    (hr : Ready s) (hi : Issues x o s) (hx : exec i s = issue x o body s)
    (hb : body (fieldsNow x o s) (s.enter (repNow x s)) = .trap cause v u) (he : Elsewhere (s.enter (repNow x s)) u)
    (hs : Stands (repNow x s) s u) (hin : u.me.intrap = false) (h0 : u.me.resume = 0)
    (hrp : u.me.rpidx = s.me.rpidx) (hg : arch u.me = arch g) :
    TakesTrap i x.px.rep.isSome (repNow x s) s cause v g := by
  have he2 : Elsewhere s u := elsewhere_trans (elsewhere_enter hr.plain.used _) he
  obtain ⟨h1, c, kp, h2⟩ := raise_plain hr he2 hs hin h0 cause v x.px.rep.isSome
  refine ⟨(u.raise cause v x.px.rep.isSome).reap, by rw [hx, issue_of_issues body hi, hb]; rfl, ?_⟩
  rw [State.reap_calm (by rw [h1.hub]; exact hr.plain.calm)]
  refine ⟨h1, by rw [h2], by rw [h2], by rw [h2], by rw [h2]; exact hs.pc, by rw [h2], ?_, by rw [h2], by rw [h2], ?_⟩
  · rw [h2]
    simp only [hs.rep, hrp]
  · rw [h2]
    have e := hg
    have k1 := arch_tcause e
    have k2 := arch_tpc e
    have k3 := arch_tval e
    have k4 := arch_rpidx e
    have k5 := arch_intrap e
    have k6 := arch_kept e
    simp only [← k1, ← k2, ← k3, ← k4, ← k5, ← k6]
    exact e

end Sys2Proof.Machine
end

