-- ==== Sys2Proof/Laws/Vector.lean ====
section
/-! SUPPORT. The shared bodies of vector instructions, outside sessions and single steps: what each makes of the group. -/

namespace Sys2Proof.Machine

open Sys2Proof.Safety

theorem withFlags_zero (g : Group) : withFlags g 0 = g := by
  unfold withFlags
  rw [show (BitVec.zeroExtend 64 (0 : Word)) = 0 from rfl, show g.fflags ||| 0 = g.fflags from BitVec.or_zero]

/-- The state that a vector body starts from, with the flags of its LANE prefix. -/
theorem laneFlags_me {s : State} (h : s.me.used = true) (x : Pre) : (s.laneFlags x).me = withFlags s.me (laneDead x s.me) := by
  have key : ∀ c : Bool, (if c = true then s.flag flDEAD else s).me = withFlags s.me (if c = true then flDEAD else 0) := by
    intro c
    cases c
    · exact (withFlags_zero s.me).symm
    · exact flag_me h flDEAD
  exact key _

theorem elsewhere_laneFlags {s : State} (h : s.me.used = true) (x : Pre) : Elsewhere s (s.laneFlags x) := by
  unfold State.laneFlags
  simp only
  split
  · exact elsewhere_flag h flDEAD
  · exact elsewhere_refl s

theorem withFlags_other (g : Group) (m : Word) :
    (withFlags g m).used = g.used ∧ (withFlags g m).wait = g.wait ∧ (withFlags g m).ctx = g.ctx ∧ (withFlags g m).step = g.step ∧
      (withFlags g m).pc = g.pc ∧ (withFlags g m).rep = g.rep := ⟨rfl, rfl, rfl, rfl, rfl, rfl⟩

theorem withFlags_flags (g : Group) (m n : Word) : withFlags (withFlags g m) n = withFlags (withFlags g n) m := by
  unfold withFlags
  simp only [Group.mk.injEq, true_and, and_true]
  rw [BitVec.or_assoc, BitVec.or_assoc, BitVec.or_comm (m.zeroExtend 64)]

theorem arch_withFlags {x y : Group} (h : arch x = arch y) (m : Word) : arch (withFlags x m) = arch (withFlags y m) := by
  have e : ∀ z, arch (withFlags z m) = withFlags (arch z) m := fun _ => rfl
  rw [e, e, h]

theorem setV_withFlags (g : Group) (m : Word) (r : RegId) (v : Lanes) : (withFlags g m).setV r v = withFlags (g.setV r v) m := by
  cases r <;> rfl

theorem shiftH_withFlags (g : Group) (m : Word) (v : Lanes) : (withFlags g m).shiftH v = withFlags (g.shiftH v) m := rfl

theorem getV_withFlags (g : Group) (m : Word) (r : RegId) : (withFlags g m).getV r = g.getV r := by
  cases r <;> rfl

/-- A vector write does not look at the flags. -/
theorem writeReg_withFlags (g : Group) (m : Word) (r : RegId) (f : Nat → Word) :
    (withFlags g m).writeReg r f = withFlags (g.writeReg r f) m := by
  have e1 : (withFlags g m).live = g.live := rfl
  have e2 : (withFlags g m).act = g.act := rfl
  simp only [Group.writeReg, getV_withFlags, e1, e2, setV_withFlags, shiftH_withFlags]

theorem destV_withFlags (g : Group) (m : Word) (r : Reg) : destV (withFlags g m) r = destV g r := rfl

/-- A vector body does nothing without lanes in ACT; else it makes of the group what f makes of it, with DEADREAD of its LANE prefix. -/
theorem becomes_vec {i : Instr} {x : Pre} {o : Op} {s : State} {f : Flds → State → State} {g : Group} (hp : Plain s) (hi : Issues x o s)
    (hx : exec i s = issue x o (vecBody x f) s)
    (hf : ∀ t, t.me.used = true → arch t.me = arch (withFlags s.me (laneDead x s.me)) → t.cur = s.cur → t.hub = s.hub → s.me.act ≠ 0 →
      Elsewhere t (f (fieldsNow x o s) t) ∧ arch (f (fieldsNow x o s) t).me = arch (withFlags g (laneDead x s.me)) ∧
        Stands t.me.rep t (f (fieldsNow x o s) t)) :
    Becomes i x s (lanewise x s g) := by
  have hu := hp.used
  have he := enter_me hu (repNow x s)
  have hue : (s.enter (repNow x s)).me.used = true := by rw [he]; exact hu
  have hact : (s.enter (repNow x s)).me.act = s.me.act := act_congr (SameReads.enter hu _)
  by_cases ha : s.me.act = 0
  · have hb : vecBody x f (fieldsNow x o s) (s.enter (repNow x s)) = .next (s.enter (repNow x s)) := by
      simp only [vecBody, hact, ha, if_true]
    refine becomes_of hp hi hx hb (elsewhere_refl _) ?_ (stands_enter hu _)
    rw [he]
    unfold lanewise
    rw [if_pos ha]
    rfl
  · generalize hl : (s.enter (repNow x s)).laneFlags x = t
    have hb : vecBody x f (fieldsNow x o s) (s.enter (repNow x s)) = .next (f (fieldsNow x o s) t) := by
      simp only [vecBody, hact, ha, if_false, hl]
    have hme : t.me = withFlags { s.me with rep := repNow x s, resume := 0 } (laneDead x s.me) := by
      rw [← hl, laneFlags_me hue, he]
      rfl
    have hel : Elsewhere (s.enter (repNow x s)) t := hl ▸ elsewhere_laneFlags hue x
    have hel2 : Elsewhere s t := elsewhere_trans (elsewhere_enter hu _) hel
    obtain ⟨k1, k2, k3⟩ := hf t (by rw [hme]; exact hu) (by rw [hme]; rfl) hel2.cur hel2.hub ha
    refine becomes_of hp hi hx hb (elsewhere_trans hel k1) ?_ ?_
    · rw [k2]
      unfold lanewise
      rw [if_neg ha]
    · have hs : Stands (repNow x s) s t := by constructor <;> rw [hme] <;> rfl
      have := stands_trans hs (v := f (fieldsNow x o s) t) (k := repNow x s)
      refine this ?_
      have hr : t.me.rep = repNow x s := by rw [hme]; rfl
      rw [← hr]
      exact k3

/-- Flags are no operands: states whose groups differ in flags alone read the same. -/
structure FlagReads (s t : State) : Prop where
  regs : ∃ m, arch t.me = arch (withFlags s.me m)
  cur : t.cur = s.cur
  hub : t.hub = s.hub

theorem FlagReads.readS {s t : State} (h : FlagReads s t) (r : Reg) : t.readS r = s.readS r := by
  obtain ⟨⟨m, e⟩, hc, hh⟩ := h
  have k : ∀ n, (withFlags s.me m).sabs n = s.me.sabs n := fun _ => rfl
  simp only [State.readS, State.special, Group.sabs, arch_sregs e, arch_sb e, arch_index e, arch_scrw e, arch_arg e, arch_spad e, arch_sx e,
    hc, hh]
  rfl

theorem FlagReads.readReg {s t : State} (h : FlagReads s t) (r : Reg) : t.readReg r = s.readReg r := by
  obtain ⟨⟨m, e⟩, hc, hh⟩ := h
  simp only [State.readReg, Group.vabs, Group.sabs, arch_sregs e, arch_sb e, arch_vregs e, arch_vb e, arch_ofile e, arch_hfile e]
  rfl

theorem FlagReads.readPair {s t : State} (h : FlagReads s t) (r : Reg) : t.readPair r = s.readPair r := by
  funext i
  obtain ⟨⟨m, e⟩, hc, hh⟩ := id h
  simp only [State.readPair, Group.sabs, arch_sregs e, arch_sb e, arch_hfile e, h.readReg]
  rfl

theorem FlagReads.live {s t : State} (h : FlagReads s t) : t.me.live = s.me.live := by
  obtain ⟨⟨m, e⟩, _, _⟩ := h
  exact (arch_live e).trans rfl

theorem FlagReads.act {s t : State} (h : FlagReads s t) : t.me.act = s.me.act := by
  obtain ⟨⟨m, e⟩, _, _⟩ := h
  simp only [Group.act, arch_em e, arch_live e]
  rfl

theorem FlagReads.rm {s t : State} (h : FlagReads s t) : t.me.rm = s.me.rm := by
  obtain ⟨⟨m, e⟩, _, _⟩ := h
  simp only [Group.rm, arch_fctl e]
  rfl

theorem FlagReads.ftz {s t : State} (h : FlagReads s t) : t.me.ftz = s.me.ftz := by
  obtain ⟨⟨m, e⟩, _, _⟩ := h
  simp only [Group.ftz, arch_fctl e]
  rfl

theorem FlagReads.readP {s t : State} (h : FlagReads s t) (r : Reg) : t.readP r = s.readP r := by
  obtain ⟨⟨m, e⟩, _, _⟩ := h
  simp only [State.readP, arch_preds e]
  rfl

theorem FlagReads.srcVA {s t : State} (h : FlagReads s t) (x : Pre) (r : Reg) : t.srcVA x r = s.srcVA x r := by
  funext i
  simp only [State.srcVA, h.readReg, h.live]

theorem FlagReads.srcVB {s t : State} (h : FlagReads s t) (x : Pre) (r : Reg) : t.srcVB x r = s.srcVB x r := by
  funext i
  simp only [State.srcVB, h.readReg, h.live]

theorem FlagReads.srcWA {s t : State} (h : FlagReads s t) (x : Pre) (r : Reg) : t.srcWA x r = s.srcWA x r := by
  funext i
  have e : t.readPair r = s.readPair r := FlagReads.readPair h r
  simp only [State.srcWA, e, h.live]

theorem FlagReads.srcWB {s t : State} (h : FlagReads s t) (x : Pre) (r : Reg) : t.srcWB x r = s.srcWB x r := by
  funext i
  simp only [State.srcWB, h.readPair, h.live]

theorem FlagReads.srcVD {s t : State} (h : FlagReads s t) (r : Reg) : t.srcVD r = s.srcVD r := by
  funext i
  simp only [State.srcVD, h.readReg]

/-- An update of the current group alone that keeps where it stands. -/
theorem stands_of_me {t u : State} (h : u.me.used = t.me.used ∧ u.me.wait = t.me.wait ∧ u.me.ctx = t.me.ctx ∧ u.me.step = t.me.step ∧
    u.me.pc = t.me.pc ∧ u.me.rep = t.me.rep) : Stands t.me.rep t u := ⟨h.1, h.2.1, h.2.2.1, h.2.2.2.1, h.2.2.2.2.1, h.2.2.2.2.2⟩

/-- A body that writes one vector register and sets flags. -/
theorem setsVector_of {i : Instr} {x : Pre} {o : Op} {v : Flds → State → Nat → Word} {fl : Flds → State → Nat → Word}
    (hx : ∀ s, exec i s = issue x o (vecBody x fun r t => (t.writeV r.d (v r t)).flag (flagsOf t.me.act (fl r t))) s)
    (hv : ∀ s t r, FlagReads s t → v r t = v r s) (hfl : ∀ s t r, FlagReads s t → fl r t = fl r s) : SetsVector i x o v fl := by
  intro s hp hi
  refine becomes_vec hp hi (hx s) fun t hu ha hc hh _ => ?_
  have hr : FlagReads s t := ⟨⟨_, ha⟩, hc, hh⟩
  generalize fieldsNow x o s = r
  have hw := writeV_me hu r.d (v r t)
  have hu2 : (t.writeV r.d (v r t)).me.used = true := by rw [hw, writeReg_used]; exact hu
  have ho := writeReg_other t.me (destV t.me r.d) (v r t)
  refine ⟨elsewhere_trans (elsewhere_writeV hu _ _) (elsewhere_flag hu2 _), ?_, stands_of_me ?_⟩
  · rw [flag_me hu2, hw, hv s t r hr, hfl s t r hr, hr.act]
    have hd : destV t.me r.d = destV s.me r.d := by
      unfold destV
      rw [arch_vb ha]
      rfl
    rw [hd]
    have e1 := arch_writeReg ha (destV s.me r.d) (v r s)
    rw [writeReg_withFlags] at e1
    exact (arch_withFlags e1 _).trans (by rw [withFlags_flags])
  · rw [flag_me hu2, hw]
    exact ⟨ho.1, ho.2.1, ho.2.2.1, ho.2.2.2.1, ho.2.2.2.2.1, ho.2.2.2.2.2.1⟩

end Sys2Proof.Machine
end

