-- ==== Sys2Proof/Tests/Slice0.lean ====
section
/-! SUPPORT. Tests of the model: ill-formed terms that WellFormed refuses; words of the spec's own encodings and examples, decoded; single
instructions with results of the spec's tables and worked examples; and for each statement with hypotheses a state and operands that meet
them. -/

namespace Sys2Proof.Tests

set_option Elab.async false

open Sys2Proof Sys2Proof.Machine Sys2Proof.Safety

/-- Prefixes by themselves. -/
def imm (v : BitVec 25) : Pre := ⟨false, { Pfx.none with imm := some v }⟩
def ord (k : OrdKind) (s : Scope) (w : Bool) : Pre := ⟨false, { Pfx.none with ord := some ⟨k, s, w⟩ }⟩
def rep (n : BitVec 6) (d a b : Bool) (st : BitVec 2) : Pre := ⟨false, { Pfx.none with rep := some ⟨n, d, a, b, st⟩ }⟩
def lane (a b : LanePat) : Pre := ⟨false, { Pfx.none with lane := some ⟨a, b⟩ }⟩
def bare : Pre := Pre.plain
def mark : Pre := ⟨true, Pfx.none⟩

/-! ### Well-formedness: one ill-formed term for each check -/

theorem test_wf_event : Instr.WellFormed (.groupEnd 0) = false := by decide
theorem test_wf_imm : Instr.WellFormed (.nop (imm 0)) = false := by decide
theorem test_wf_ord : Instr.WellFormed (.sadd (ord .relaxed .grp false) 1 2 3) = false := by decide
theorem test_wf_rep : Instr.WellFormed (.br (rep 1 false false false 0) 0) = false := by decide
theorem test_wf_lane : Instr.WellFormed (.sadd (lane .rev .none) 1 2 3) = false := by decide
theorem test_wf_lane_a : Instr.WellFormed (.vmov (lane .rev .none) 1 2) = false := by decide
theorem test_wf_lane_b : Instr.WellFormed (.vclz (lane .none .rev) 1 2) = false := by decide
theorem test_wf_lane_b_imm :
    Instr.WellFormed (.vaddI32 ⟨false, { Pfx.none with imm := some 0, lane := some ⟨.none, .rev⟩ }⟩ 1 2 3) = false := by decide
theorem test_wf_ld_signed_w64 : Instr.WellFormed (.ld bare .w64 true 1 2 3) = false := by decide
theorem test_wf_ord_load : Instr.WellFormed (.ld (ord .release .grp false) .w32 false 1 2 3) = false := by decide
theorem test_wf_ord_store : Instr.WellFormed (.vst (ord .acquire .grp false) 1 2 3) = false := by decide
theorem test_wf_ord_w64 : Instr.WellFormed (.vld (ord .acquire .grp true) 0 1 2 3) = false := by decide
theorem test_wf_ord_fadd : Instr.WellFormed (.atom (ord .relaxed .grp true) .fadd 1 2 3) = false := by decide
theorem test_wf_ord_spad : Instr.WellFormed (.spld (ord .acquire .sys false) 1 2 3) = false := by decide
theorem test_wf_ord_spst : Instr.WellFormed (.spst (ord .release .pkg false) 1 2 3) = false := by decide
theorem test_wf_ord_spatom : Instr.WellFormed (.spatom (ord .relaxed .sys false) .add 1 2 3) = false := by decide
theorem test_wf_fence_relaxed : Instr.WellFormed (.fence bare .relaxed .grp) = false := by decide
theorem test_wf_vcvt_code : Instr.WellFormed (.vcvt bare 1 2 0x0E) = false := by decide
theorem test_wf_vcvt_sr_code : Instr.WellFormed (.vcvtSr bare 1 2 0x01) = false := by decide
theorem test_wf_vpack_code : Instr.WellFormed (.vpack bare 1 2 0x00) = false := by decide
theorem test_wf_vpack_lane : Instr.WellFormed (.vpack (lane .rev .none) 1 2 0x10) = false := by decide
theorem test_wf_vunpk_code : Instr.WellFormed (.vunpk bare 1 2 0x06) = false := by decide
theorem test_wf_accepts : (Instr.WellFormed (.vaddI32 (lane .rev (.bcast 3)) 1 2 3) && Instr.WellFormed (.ld (ord .acquire .pkg false) .w64 false 1 2 3)
    && Instr.WellFormed (.vatom (ord .acqRel .sys true) .cas 2 4 6) && Instr.WellFormed (.vpack bare 9 12 0x16)) = true := by decide

/-! ### Decoding: words that the spec writes out, or built from its encoding of the instruction -/

/-- The words of one bundle decode to i and nothing is left. -/
def Reads (ws : List Word) (i : Instr) : Prop := decodeWords ws = .ok i []

/-- R427, R397, R283, R471, R439, R382, R438. -/
theorem test_decode_system :
    Reads [0x00000000] (.nop bare) ∧
    Reads [0x80000000] (.nop mark) ∧
    Reads [0x00200000] (.exit bare) ∧
    Reads [0x00800000] (.eret bare) ∧
    Reads [0x02000000, 0x00400007] (.trap (imm 0) 7) ∧
    Reads [0x00C08000] (.rdflag bare 2) ∧
    Reads [0x02000000, 0x00E0001F] (.clrflag (imm 0) 0x1F) ∧
    Reads [0x01008000] (.rdcyc bare 2) := by
  unfold Reads; decide +kernel

/-- R445, R446. -/
theorem test_decode_scalar :
    Reads [0x04004103] (.sadd bare 1 2 3) ∧
    Reads [0x08102FFF] (.saddi bare 4 5 (-1)) := by
  unfold Reads; decide +kernel

/-- R378, R380, R442, R407, R515, R516. -/
theorem test_decode_branch :
    Reads [0x18384017] (.brZ bare 97 23) ∧
    Reads [0x1B000007] (.call bare 0x40 7) ∧
    Reads [0x1C000000] (.ret bare) ∧
    Reads [0x1C200280] (.jr bare 5) ∧
    Reads [0x03FFFFFF, 0x1E00007E] (.winv (imm 0x1FFFFFF) 0x7E) ∧
    Reads [0x1E414000] (.winq bare 5) := by
  unfold Reads; decide +kernel

/-- R394, R429. -/
theorem test_decode_predicate :
    Reads [0x20E00080] (.emset bare 1) ∧
    Reads [0x02000001, 0x20A0407F] (.pset (imm 1) 1 0x7F) ∧
    Reads [0x21010000] (.emget bare 4) ∧
    Reads [0x21200180] (.emand bare 3) := by
  unfold Reads; decide +kernel

/-- R476, R506, R109. -/
theorem test_decode_vector_integer :
    Reads [0x2200C1F9] (.vaddI32 bare 3 3 121) ∧
    Reads [0x22810286] (.vmadI32 bare 4 5 6) ∧
    Reads [0x020003FF, 0x240080FF] (.vaddI16 (imm 0x3FF) 2 1 0x7F) ∧
    Reads [0x02002200, 0x2540808F] (.vsraI16 (imm 0x2200) 2 1 0x0F) := by
  unfold Reads; decide +kernel

/-- R505, R498, R496. -/
theorem test_decode_vector_move :
    Reads [0x2840C205] (.vsel bare 2 3 4 5) ∧
    Reads [0x2901C072] (.vmov bare 7 114) ∧
    Reads [0x29608000] (.vlid bare 2) := by
  unfold Reads; decide +kernel

/-- R484. -/
theorem test_decode_vector_compare :
    Reads [0x2BA04206] (.vcmpUnF64 bare 1 4 6) ∧
    Reads [0x02000000, 0x2A208082] (.vcmpNeI32 (imm 0) 2 1 2) ∧
    Reads [0x02000000, 0x2A00C185] (.vcmpEqI32 (imm 0) 3 3 5) := by
  unfold Reads; decide +kernel

/-- R488. -/
theorem test_decode_vector_float :
    Reads [0x2C05050A] (.vfaddF32 bare 20 10 10) ∧
    Reads [0x2C254A0A] (.vfsubF32 bare 21 20 10) ∧
    Reads [0x2C62C082] (.vfmaF32 bare 11 1 2) ∧
    Reads [0x2D02C500] (.vfnegF32 bare 11 10) ∧
    Reads [0x2F610286] (.vfmaBf16 bare 4 5 6) ∧
    Reads [0x30020104] (.vfaddF64 bare 8 2 4) := by
  unfold Reads; decide +kernel

/-- R490. -/
theorem test_decode_special_function :
    Reads [0x3261C082] (.vfdiv bare 7 1 2) ∧
    Reads [0xB3228200] (.vfrcpF64 mark 10 4) := by
  unfold Reads; decide +kernel

/-- R486, R500, R504. -/
theorem test_decode_conversion :
    Reads [0x3460C083] (.vcvtSr bare 3 1 3) ∧
    Reads [0x34824616] (.vpack bare 9 12 0x16) ∧
    Reads [0x34A3049C] (.vunpk bare 12 9 0x1C) ∧
    Reads [0x020000FC, 0x3603057F] (.vscaccE8m0 (imm 0xFC) 12 10 0x7F) ∧
    Reads [0x3643057F] (.vscaccBf16 bare 12 10 127) := by
  unfold Reads; decide +kernel

/-- R507, R511, R487, R503. -/
theorem test_decode_cross_lane :
    Reads [0x3800C082] (.vshuf bare 3 1 2) ∧
    Reads [0x38210082] (.vvote bare 4 1 2) ∧
    Reads [0x38414080] (.velect bare 5 1) ∧
    Reads [0x38660500] (.vredAddF32 bare 24 10) ∧
    Reads [0x3881C080] (.vredAddI32 bare 7 1) := by
  unfold Reads; decide +kernel

/-- R411, R456, R492, R508, R448, R454. -/
theorem test_decode_load_store :
    Reads [0x02000000, 0xC081C186] (.ld ⟨true, (imm 0).px⟩ .w16 false 7 3 6) ∧
    Reads [0x41807360] (.ld bare .w64 false 1 102 96) ∧
    Reads [0x43004560] (.st bare .w32 1 10 96) ∧
    Reads [0x420386E0] (.st bare .w8 14 13 96) ∧
    Reads [0x460040E0] (.vldc bare 0 1 1 96) ∧
    Reads [0x48428181] (.vld2 bare 2 10 3 1) ∧
    Reads [0x4C014660] (.vstc bare 5 12 96) ∧
    Reads [0x4E020181] (.vst2 bare 8 3 1) ∧
    Reads [0xD0060221] (.spld mark 24 4 33) ∧
    Reads [0x52013381] (.spst bare 4 103 1) := by
  unfold Reads; decide +kernel

/-- R478, R428. -/
theorem test_decode_atomic :
    Reads [0x5600C201] (.vatom bare .add 3 4 1) ∧
    Reads [0x7ADC0000, 0x5600C201] (.vatom (ord .acqRel .pkg true) .add 3 4 1) ∧
    Reads [0x7A980000, 0x43004560] (.st (ord .release .pkg false) .w32 1 10 96) := by
  unfold Reads; decide +kernel

/-- R399, R400, R406, R431, R513, R424, R462, R461. -/
theorem test_decode_ordering :
    Reads [0x5A00001B] (.fence bare .acqRel .pkg) ∧
    Reads [0x5A200004] (.flush bare .sys) ∧
    Reads [0x5A400003] (.inval bare .pkg) ∧
    Reads [0x5A604205] (.pref bare true 4 5) ∧
    Reads [0x02000000, 0x5A800081] (.waitc (imm 0) 1 1) ∧
    Reads [0x5AA08560] (.mwait bare 2 10 96) ∧
    Reads [0x5AC14360] (.syncw bare 5 6 96) ∧
    Reads [0x5AE00307] (.syncset bare 6 7) := by
  unfold Reads; decide +kernel

/-- R375 to R377. -/
theorem test_decode_barrier :
    Reads [0x02000000, 0x5C600401] (.boinit (imm 0) 8 1) ∧
    Reads [0x5C400406] (.bowait bare 8 6) := by
  unfold Reads; decide +kernel

/-- R385, R402, R469, R472, R466, R420, R415, R416, R423. -/
theorem test_decode_engine :
    Reads [0x5E010286] (.cpyG2s bare 4 5 6) ∧
    Reads [0x5EC2810B] (.fsend bare 10 2 11) ∧
    Reads [0x02000000, 0x60008205] (.tgive (imm 0) 2 4 5) ∧
    Reads [0x60208700] (.ttake bare 2 14) ∧
    Reads [0x60408A00] (.tchk bare 2 20) ∧
    Reads [0x6442858C] (.mmab bare .e4m3 10 11 12) ∧
    Reads [0x6542C18C] (.mmab bare .e4m3ts8 11 3 12) ∧
    Reads [0x66014680] (.mbatch bare 5 13) ∧
    Reads [0x66214180] (.mbwait bare 5 3) ∧
    Reads [0x66418000] (.mqry bare 6) := by
  unfold Reads; decide +kernel

/-- R435. -/
theorem test_decode_queue :
    Reads [0x6C214A04] (.qget bare 5 20 4) := by
  unfold Reads; decide +kernel

/-- R371, R443, R388, R440, R517. -/
theorem test_decode_debug :
    Reads [0x70000000] (.bkpt bare) ∧
    Reads [0x02000000, 0x7020002A] (.rmark (imm 0) 0x2A) ∧
    Reads [0x70400580] (.dmbox bare 11) ∧
    Reads [0x72178004] (.rdsr bare 94 .tpc) ∧
    Reads [0x72200500] (.wrsr bare 10 .fctl) ∧
    Reads [0x72202F04] (.wrsr bare 94 .tpc) := by
  unfold Reads; decide +kernel

/-- SPAWN, BINCFG, BINFLUSH, LAUNCH, the deque and the bound instructions, by major, minor and fields (R452, R368 to R370, R409, R390 to R392,
R464, R393, R414). -/
theorem test_decode_units :
    Reads [0x68000182] (.spawn bare 3 2) ∧ Reads [0x68200182] (.bincfg bare 3 2) ∧ Reads [0x68400000] (.binflush bare) ∧
    Reads [0x68600180] (.launch bare 3) ∧ Reads [0x6A008003] (.dqpush bare 2 3) ∧ Reads [0x6A208000] (.dqpop bare 2) ∧
    Reads [0x6A408180] (.dqsteal bare 2 3) ∧ Reads [0x6A608180] (.dqlen bare 2 3) ∧ Reads [0x6E00C200] (.tbset bare 3 4) ∧
    Reads [0x6E20C000] (.tbclr bare 3) ∧ Reads [0x6E40C000] (.ebud bare 3) ∧ Reads [0x6E60C000] (.liveq bare 3) := by
  unfold Reads; decide +kernel

/-- A REP prefix and a LANE prefix in one bundle (R125's example). -/
theorem test_decode_rep_lane : Reads [0x7C1E4000, 0x7E008000, 0x2C020028]
    (.vfaddF32 ⟨false, { Pfx.none with rep := some ⟨3, true, true, false, 1⟩, lane := some ⟨.none, .bcast 0⟩ }⟩ 8 0 40) := by
  unfold Reads; decide +kernel

/-- A reserved major, a reserved minor, a nonzero must-be-zero field, two prefixes of one kind, a marker on a prefix, a reserved prefix (R125). -/
theorem test_decode_illegal :
    decodeWords [0x74000000] = .illegal ⟨1, 0x74000000⟩ ∧ decodeWords [0x05C00000] = .ok (.ssel bare 0 0 0) [] ∧
    decodeWords [0x07C00000] = .illegal ⟨1, 0x07C00000⟩ ∧ decodeWords [0x00200001] = .illegal ⟨2, 0x00200001⟩ ∧
    decodeWords [0x02000001, 0x02000001, 0x04004103] = .illegal ⟨6, 0x02000001⟩ ∧
    decodeWords [0x82000001, 0x04004103] = .illegal ⟨9, 0x82000001⟩ ∧ decodeWords [0x7BC00000, 0x41807360] = .illegal ⟨7, 0x7BC00000⟩ ∧
    decodeWords [0x02000001, 0x00200000] = .illegal ⟨5, 0x02000001⟩ := by
  decide +kernel

/-! ### A small machine: one group of 32 live lanes in slot 0, of context 1, whose handler is at 0x2000 -/

/-- Scalars s0 to s15, vectors v1 to v9, predicates p1 to p3. -/
def g0 : Group :=
  { Group.idle with
    used := true, ctx := 1, pc := 0x1000, em := 0xFFFFFFFF, live := 0xFFFFFFFF, av := 32, as := 32
    sregs := [(1, 7), (2, 3), (3, 0xFFFFFFFFFFFFFFFF), (4, 0x8000000000000000), (6, 0x123456789ABCDEF0), (7, 0xFFFFFFFFFFFFFFF9), (8, 0x0704),
      (9, 0x3000), (11, 0x80000000000000), (12, 6)]
    vregs := [(1, lanesFn fun i => BitVec.ofNat 32 i), (2, lanesFn fun _ => 0xFFFFFFFE), (3, lanesFn fun _ => 0x3FC00000),
      (4, lanesFn fun i => if i < 16 then 0x40100000 else 0x7F800001), (5, lanesFn fun _ => 0x80000000)]
    preds := vset (vset (vset Group.idle.preds 1 0x0000FFFF) 2 0x00FF00FF) 3 0xFFFFFFFF }

def s0 : State :=
  { State.reset with groups := [(0, g0)], ctxs := [(1, { Ctx.none with used := true, tvec := 0x2000, errbud := 9 })] }

/-- s0 with its group changed. -/
def sg (f : Group → Group) : State := { s0 with groups := [(0, f g0)] }

/-- The machine after an instruction. -/
noncomputable def after (i : Instr) (s : State) : State :=
  match exec i s with
  | .next t => t
  | _ => State.reset

/-- What the premises of a statement ask of a state, as a test. -/
def plainB (s : State) : Bool :=
  s.me.used && decide (s.me.wait.cond ≠ .marker) && decide (s.session? s.me.ctx = none) && s.me.step.isNone && decide (s.hub.doomed = [])
def readyB (s : State) : Bool := plainB s && !s.me.intrap && decide ((s.ctx s.me.ctx).tvec ≠ 0)
def issuesB (x : Pre) (o : Op) (s : State) : Bool :=
  s.me.runAhead.isNone && (decodeErr x o s.me).isNone && !o.priv && (pendNow x o.flds s.me (startRep x s.me)).isNone && decide (s.me.due = []) &&
    decide (s.me.regMarks = [])

theorem plain_of {s : State} (h : plainB s = true) : Plain s := by
  simp only [plainB, Bool.and_eq_true, decide_eq_true_eq, Option.isNone_iff_eq_none] at h
  constructor <;> simp [h]

theorem ready_of {s : State} (h : readyB s = true) : Ready s := by
  simp only [readyB, Bool.and_eq_true, Bool.not_eq_true', decide_eq_true_eq] at h
  exact ⟨plain_of h.1.1, h.1.2, h.2⟩

theorem issues_of {x : Pre} {o : Op} {s : State} (h : issuesB x o s = true) : Issues x o s := by
  simpa only [issuesB, Issues, Bool.and_eq_true, Option.isNone_iff_eq_none, Bool.not_eq_true', decide_eq_true_eq, and_assoc] using h

theorem plain_s0 : Plain s0 := plain_of (by decide +kernel)
theorem ready_s0 : Ready s0 := ready_of (by decide +kernel)

/-- A state outside sessions in which each of these bundles passes the checks of R124. -/
def Fit (s : State) (l : List (Pre × Op)) : Prop := Plain s ∧ ∀ p ∈ l, Issues p.1 p.2 s

theorem fit_of (s : State) (l : List (Pre × Op)) (h : (plainB s && l.all fun p => issuesB p.1 p.2 s) = true) : Fit s l := by
  simp only [Bool.and_eq_true, List.all_eq_true] at h
  exact ⟨plain_of h.1, fun p hp => issues_of (h.2 p hp)⟩

/-! ### Scalar instructions -/

/-- Premises of the scalar statements, with a register, an immediate and a repeated form. -/
theorem test_meets_scalar : Fit s0 [(bare, opRRR bare 2 0 10 1 2), (imm 3, opRRR (imm 3) 2 0 10 1 5),
    (rep 3 true true false 1, opRRR (rep 3 true true false 1) 2 0 10 1 2), (bare, opRRR bare 2 14 1 2 3), (bare, opRRZ bare 3 4 10 5),
    (bare, opRI bare 4 10 1 5), (imm 1, opRI (imm 1) 4 10 1 5), (bare, opRI bare 8 10 1 63), (bare, opLI bare 10 10 5), (bare, opLI bare 11 10 5),
    (bare, { opRRR bare 2 15 10 0 2 with flds := [⟨.d, .s, .wr, 10⟩, ⟨.b, .s, .rd, 2⟩] })] := fit_of _ _ (by decide +kernel)

/-- Divisions by zero, of the most negative value by −1, and another, each with its premises. -/
theorem test_meets_division : Fit s0 [(bare, opRRR bare 3 0 10 1 5), (bare, opRRR bare 3 0 10 4 3), (bare, opRRR bare 3 1 10 7 2)] ∧
    s0.srcS bare 5 = 0 ∧ s0.srcS bare 3 = 0xFFFFFFFFFFFFFFFF := ⟨fit_of _ _ (by decide +kernel), by decide +kernel⟩

/-- s10 after an instruction. -/
noncomputable def s10 (i : Instr) : Dword := (after i s0).me.sabs 10

/-- R445: wraps, high products, shifts by bits 5:0. -/
theorem test_scalar_arithmetic :
    [s10 (.sadd bare 10 3 1), s10 (.ssub bare 10 2 1), s10 (.smul bare 10 3 3), s10 (.smulh bare 10 4 4), s10 (.smulh bare 10 3 1),
     s10 (.sand bare 10 6 8), s10 (.sor bare 10 1 8), s10 (.sxor bare 10 3 1), s10 (.sshl (imm 0) 10 1 65), s10 (.sshr (imm 0) 10 4 63),
     s10 (.ssra (imm 0) 10 4 63)] =
    [6, 0xFFFFFFFFFFFFFFFC, 1, 0x4000000000000000, 0xFFFFFFFFFFFFFFFF, 0x0600, 0x0707, 0xFFFFFFFFFFFFFFF8, 14, 1, 0xFFFFFFFFFFFFFFFF] := by
  decide +kernel

/-- R445: minima, selection, counts and fields. -/
theorem test_scalar_select :
    [s10 (.smin bare 10 3 1), s10 (.smax bare 10 3 1), s10 (.sminn bare 10 3 1), s10 (.smaxn bare 10 3 1), s10 (.ssel bare 10 1 2),
     (after (.ssel bare 12 1 2) s0).me.sabs 12, s10 (.smov bare 10 2), s10 (.sclz bare 10 5), s10 (.sclz bare 10 1), s10 (.spop bare 10 6),
     s10 (.ssext (imm 0) 10 6 7), s10 (.sbfx bare 10 6 8)] =
    [0xFFFFFFFFFFFFFFFF, 7, 7, 0xFFFFFFFFFFFFFFFF, 3, 7, 3, 64, 61, 32, 0xFFFFFFFFFFFFFFF0, 0xEF] := by
  decide +kernel

/-- R155: quotients and remainders, and IDZ for a zero divisor alone. -/
theorem test_scalar_division :
    [s10 (.sdiv bare 10 7 2), s10 (.srem bare 10 7 2), s10 (.sdiv bare 10 4 3), s10 (.srem bare 10 4 3), s10 (.sdivn bare 10 3 2),
     s10 (.sremn bare 10 3 1), s10 (.sdiv bare 10 1 5), s10 (.srem bare 10 1 5), (after (.sdivn bare 10 1 5) s0).me.fflags,
     (after (.sdiv bare 10 4 3) s0).me.fflags] =
    [0xFFFFFFFFFFFFFFFE, 0xFFFFFFFFFFFFFFFF, 0x8000000000000000, 0, 0x5555555555555555, 1, 0, 7, 0x20, 0] := by
  decide +kernel

/-- R445, R446: compares and immediates, an IMM prefix among them. -/
theorem test_scalar_compare_immediate :
    [s10 (.scmpEq bare 10 1 1), s10 (.scmpNe bare 10 1 1), s10 (.scmpLt bare 10 3 1), s10 (.scmpLtn bare 10 3 1), s10 (.scmpLe bare 10 1 1),
     s10 (.scmpLen bare 10 3 1), s10 (.scmpiEq bare 10 1 7), s10 (.scmpiLt bare 10 3 0), s10 (.scmpiLtn bare 10 1 0x1FF), s10 (.scmpiNe bare 10 1 7),
     s10 (.saddi bare 10 1 0x7FF), s10 (.saddi (imm 1) 10 1 0), s10 (.sandi bare 10 6 0x7F0), s10 (.sori bare 10 1 8), s10 (.sxori bare 10 3 0x7FF),
     s10 (.sshiShl bare 10 1 60), s10 (.sshiShr bare 10 4 63), s10 (.sshiSra bare 10 4 62), s10 (.slui bare 10 1), s10 (.smovi bare 10 0x3FFFF)] =
    [1, 0, 1, 0, 1, 0, 1, 1, 1, 0, 6, 2055, 0x123456789ABCDEF0, 15, 0, 0x7000000000000000, 1, 0xFFFFFFFFFFFFFFFE, 0x4000,
     0xFFFFFFFFFFFFFFFF] := by
  decide +kernel

/-- R113: three repeats with steps of two registers. -/
theorem test_scalar_repeat :
    let t := after (.sadd (rep 2 true true false 1) 20 1 2) (after (.sadd (rep 2 true true false 1) 20 1 2) (after (.sadd (rep 2 true true false 1) 20 1 2) s0))
    [t.me.sabs 20, t.me.sabs 22, t.me.sabs 24, t.me.pc] = [10, 2, 3, 0x1008] := by
  decide +kernel

/-! ### Predicates, masks and system registers -/

theorem test_meets_predicates : Fit s0 [(bare, opCalc (wordR bare 0x10 0 4 1 2) (predFlds 4 1 2)), (bare, opCalc (wordR bare 0x10 0 0 1 2) (predFlds 0 1 2)),
    (bare, opCalc (wordR bare 0x10 4 4 1 0) [⟨.d, .p, .wr, 4⟩, ⟨.a, .p, .rd, 1⟩]), (imm 0, opCalc (wordR (imm 0) 0x10 5 4 0 2) [⟨.d, .p, .wr, 4⟩, ⟨.b, .s, .rd, 2⟩]),
    (bare, opCalc (wordR bare 0x10 8 4 0 0) [⟨.d, .p, .wr, 4⟩]), (bare, opCalc (wordR bare 0x10 7 0 1 0) [⟨.a, .p, .rd, 1⟩]),
    (bare, opCalc (wordR bare 0x10 9 0 1 0) [⟨.a, .p, .rd, 1⟩]), (bare, opCalc (wordR bare 0x10 6 10 1 0) [⟨.d, .s, .wr, 10⟩, ⟨.a, .p, .rd, 1⟩]),
    (bare, opCalc (wordR bare 0x37 3 10 0 0) [⟨.d, .s, .wr, 10⟩]), (bare, opVVV bare 0x1C 1 .s .v .p .wr 10 1 2),
    (bare, opCalc (wordR bare 0x0F 2 10 0 0) [⟨.d, .s, .wr, 10⟩])] := fit_of _ _ (by decide +kernel)

/-- R429, R394: predicate logic on all 32 bits, p0 discards, EM follows. -/
theorem test_predicates :
    let p := fun i => vat (after i s0).me.preds 4 0
    [p (.pand bare 4 1 2), p (.por bare 4 1 2), p (.pxor bare 4 1 2), p (.pandn bare 4 1 2), p (.pnot bare 4 1), p (.pset bare 4 6), p (.emget bare 4),
     (after (.emset bare 1) s0).me.em, (after (.emand bare 2) s0).me.em, vat (after (.pnot bare 0 3) s0).me.preds 0 0] =
    [0x000000FF, 0x00FFFFFF, 0x00FFFF00, 0x0000FF00, 0xFFFF0000, 0x9ABCDEF0, 0xFFFFFFFF, 0x0000FFFF, 0x00FF00FF, 0xFFFFFFFF] := by
  decide +kernel

/-- R429, R414, R511: counts over LIVE, and the vote (its example: a nonzero in lanes 1 to 31 of LIVE, under p1). -/
theorem test_lane_queries :
    [s10 (.pget bare 10 2), s10 (.ppop bare 10 2), s10 (.pfirst bare 10 3), s10 (.liveq bare 10), s10 (.winq bare 10),
     s10 (.vvote bare 10 1 1), (after (.pfirst bare 10 1) (sg fun g => { g with live := 0xFFFF0000 })).me.sabs 10] =
    [0x00FF00FF, 16, 0, 0x20FFFFFFFF, 0, 0x4F0000FFFE, 32] := by
  decide +kernel

/-- A group with flags NV and NX set, enabled in FCTL. -/
def sFlags : State := sg fun g => { g with fflags := 0x111, fctl := 0x1100 }

theorem test_meets_flags : Fit sFlags [(bare, opStop (wordR bare 0 6 10 0 0) [⟨.d, .s, .wr, 10⟩] none), (bare, opStop (wordR bare 0 7 0 0 1) [⟨.b, .s, .rd, 1⟩] none),
      (bare, opStop (wordR bare 0 3 0 0 0) [] none)] ∧ FlagsSet sFlags ∧ Ready sFlags ∧
    sFlags.me.fflags &&& BitVec.ofNat 64 (sFlags.me.fctl.toNat / 256 % 256) ≠ 0 ∧
    FlagsSet s0 ∧ s0.me.fflags &&& BitVec.ofNat 64 (s0.me.fctl.toNat / 256 % 256) = 0 :=
  ⟨fit_of _ _ (by decide +kernel), by unfold FlagsSet; decide +kernel, ready_of (by decide +kernel), by decide +kernel,
    by unfold FlagsSet; decide +kernel, by decide +kernel⟩

/-- R439, R382, R467: ECCZ is read, and never traps. -/
theorem test_flags :
    (after (.rdflag bare 10) sFlags).me.sabs 10 = 0x111 ∧ (after (.clrflag bare 1) sFlags).me.fflags = 0x110 ∧
    (let t := after (.tfence bare) sFlags; (t.me.pc, t.me.tval, t.me.tcause, t.me.intrap) = (0x2000, 0x11, 8, true)) ∧
    (after (.tfence bare) s0).me.pc = 0x1004 := by
  decide +kernel

theorem test_meets_system : Fit s0 ([SysReg.fctl, .fflags, .tvec, .tcause, .tpc, .tval, .rpidx, .errbud, .em, .live, .wbase].map fun r => (bare, opRdsr bare 10 r)) ∧
    Fit s0 ([SysReg.fctl, .fflags, .tcause, .tpc, .tval, .rpidx, .em].map fun r => (bare, opWrsr bare 12 r)) ∧
    Fit s0 [(bare, opStop (wordR bare 0x37 2 10 0 0) [⟨.d, .s, .wr, 10⟩] (some 10)), (bare, opStop (wordR bare 0 8 10 0 0) [⟨.d, .s, .wr, 10⟩] (some 10))] ∧
    -- values: no reserved bits; reserved bits; a good TPC; a misaligned one; one that is not canonical
    s0.readS 2 &&& sysReserved .fctl = 0 ∧ s0.readS 3 &&& sysReserved .fctl ≠ 0 ∧ ((s0.readS 9).toNat % 4 = 0 ∧ canonical (s0.readS 9) = true) ∧
    (s0.readS 2 &&& sysReserved .tpc = 0 ∧ (s0.readS 2).toNat % 4 ≠ 0) ∧ ((s0.readS 11).toNat % 4 = 0 ∧ canonical (s0.readS 11) = false) :=
  ⟨fit_of _ _ (by decide +kernel), fit_of _ _ (by decide +kernel), fit_of _ _ (by decide +kernel), by decide +kernel⟩

/-- R94, R154, R440, R517: a write of FCTL zeroes the draw counters; a reserved bit is ILLEGAL reason 2; a read-only register PRIV. -/
theorem test_system :
    s10 (.rdsr bare 10 .tvec) = 0x2000 ∧ s10 (.ebud bare 10) = 9 ∧ s10 (.rdsr bare 10 .live) = 0xFFFFFFFF ∧
    vat (after (.wrsr bare 2 .fctl) (sg fun g => { g with draws := Vector.replicate 32 5 })).me.draws 7 9 = 0 ∧
    (after (.wrsr bare 9 .tpc) s0).me.tpc = 0x3000 ∧ ((after (.wrsr bare 3 .fctl) s0).me.tcause, (after (.wrsr bare 3 .fctl) s0).me.tval) = (1, 0x272200180) ∧
    (after (.wrsr bare 2 .tpc) s0).me.tcause = 4 ∧ (after (.wrsr bare 11 .tpc) s0).me.tcause = 5 ∧ (after (.wrsr bare 2 .live) s0).me.tcause = 3 := by
  decide +kernel

/-! ### Control flow -/

theorem test_meets_branches : Fit s0 [(bare, opBr bare 0 [] 0 4), (bare, opBr bare 1 [⟨.a, .s, .rd, 5⟩] 5 4), (imm 1, opBr (imm 1) 2 [⟨.a, .s, .rd, 1⟩] 1 4),
      (bare, opBr bare 5 [⟨.a, .p, .rd, 1⟩] 1 4), (bare, opBr bare 8 [] 0 4), (bare, opCalc (wordR bare 0 0 0 0 0) []), (bare, opCalc (wordR bare 0 5 0 0 0) []),
      (bare, { opBr bare 0 [⟨.a, .s, .rd, 9⟩] 9 0 with word := wordR bare 0x0E 1 0 9 0 })] ∧
    canonical (nextPc bare s0 + 4 * immExt bare (4 : BitVec 14)) = true ∧
    -- taken and not taken: s5 is 0, s1 is not
    (s0.readS 5).toNat = 0 ∧ (s0.readS 1).toNat ≠ 0 ∧
    -- a target outside 56 bits, and the operands of JR
    canonical (nextPc (imm 0xFFFFFF) (sg fun g => { g with pc := 0x7FFFFFFFFFFF00 }) + 4 * immExt (imm 0xFFFFFF) (4 : BitVec 14)) = false ∧
    (s0.readS 9).toNat % 4 = 0 ∧ canonical (s0.readS 9) = true ∧ (s0.readS 1).toNat % 4 ≠ 0 ∧ (s0.readS 11).toNat % 4 = 0 ∧ canonical (s0.readS 11) = false :=
  ⟨fit_of _ _ (by decide +kernel), by decide +kernel⟩

/-- R110, R111, R378, R407: branch targets count from the address after the bundle. -/
theorem test_branches :
    let pc := fun i => (after i s0).me.pc
    [pc (.br bare 4), pc (.br bare 0x3FFF), pc (.br (imm 1) 0), pc (.brZ bare 5 4), pc (.brZ bare 1 4), pc (.brNz bare 1 4), pc (.brNeg bare 3 4),
     pc (.brNneg bare 3 4), pc (.brPany bare 1 4), pc (.brPall bare 1 4), pc (.brPall bare 3 4), pc (.brPnone bare 1 4), pc (.brEmz bare 4), pc (.jr bare 9),
     pc (.jr bare 1), pc (.nop bare), pc (.yield bare)] =
    [0x1014, 0x1000, 0x11008, 0x1014, 0x1004, 0x1014, 0x1014, 0x1004, 0x1014, 0x1004, 0x1014, 0x1004, 0x1004, 0x3000, 0x2000, 0x1004, 0x1004] := by
  decide +kernel

theorem test_meets_traps : Fit s0 [(bare, opStop (wordR bare 0 2 0 0 1) [⟨.b, .s, .rd, 1⟩] none), (bare, opStop (wordR bare 0x38 0 0 0 0) [] none),
      (bare, opStop (wordR bare 0 4 0 0 0) [] none)] ∧ Ready s0 ∧
    (let u := sg fun g => { g with intrap := true }; Plain u ∧ (u.ctx u.me.ctx).used = true ∧ u.me.intrap = true) :=
  ⟨fit_of _ _ (by decide +kernel), ready_s0, plain_of (by decide +kernel), by decide +kernel⟩

/-- R471's example: TRAP #7 takes TRAPI with 7; BKPT is 0x0C with 8 (R371); ERET continues at TPC (R283); a double trap ends the context. -/
theorem test_traps :
    (let t := after (.trap (imm 0) 7) s0; (t.me.pc, t.me.tcause, t.me.tval, t.me.tpc, t.me.intrap) = (0x2000, 0x0B, 7, 0x1000, true)) ∧
    (let t := after (.bkpt bare) s0; (t.me.tcause, t.me.tval) = (0x0C, 8)) ∧
    (let t := after (.eret bare) (sg fun g => { g with intrap := true, tpc := 0x1204, rpidx := 3 })
     (t.me.pc, t.me.intrap, t.me.resume, t.me.rpidx) = (0x1204, false, 3, 0)) ∧
    (after (.eret bare) s0).me.tcause = 3 ∧ (after (.trap bare 1) (sg fun g => { g with intrap := true })).groups = [] := by
  decide +kernel

/-- A group whose allocation exceeds its windows, in a context with an attic of 2^16 bytes per group; the same after a CALL. -/
def sWide : State :=
  { s0 with
    groups := [(0, { g0 with av := 160, as := 160 })]
    ctxs := [(1, { Ctx.none with used := true, tvec := 0x2000, atts := 16 })] }
def sCalled : State := { sWide with groups := [(0, { g0 with av := 160, as := 160, vb := 16, sb := 8, links := [(0x1800, 0x11)] })] }
/-- A full link stack. -/
def sFull : State := { sWide with groups := [(0, { g0 with av := 160, as := 160, links := List.replicate 32 (0, 0) })] }

theorem test_meets_calls :
    Fit sWide [(bare, opStop (wordLI bare 0x0D 0x11 7) [] none), (bare, opStop (wordR bare 0x0E 2 0x11 9 0) [⟨.a, .s, .rd, 9⟩] none),
      (imm 0, opStop (wordR (imm 0) 0x0F 0 0 0 1) [⟨.b, .s, .rd, 1⟩] none), (imm 0x1FFFFFF, opStop (wordR (imm 0x1FFFFFF) 0x0F 1 0 0 0x7F) [⟨.b, .s, .rd, 0x7F⟩] none),
      (bare, opStop (wordR bare 0x0E 0 0 0 0) [] none)] ∧
    Fit sCalled [(bare, opStop (wordR bare 0x0E 0 0 0 0) [] none)] ∧
    Fit sFull [(bare, opStop (wordLI bare 0x0D 0x11 7) [] none)] ∧ Ready sWide ∧ Ready sFull ∧
    -- CALL goes through: room on the link stack and in the attic, and nothing spills
    (sWide.me.links.length ≠ 32 ∧ sWide.passesAttic 16 8 = false ∧ canonical (nextPc bare sWide + 4 * immExt bare (7 : BitVec 18)) = true) ∧
    MovesFree sWide.me 16 8 ∧ MovesFree sCalled.me 0 0 ∧
    -- CALL past the attic, from a link stack that is full, RET from an empty one, WINS below 0
    (s0.me.links.length ≠ 32 ∧ s0.passesAttic 16 8 = true ∧ moveMarkv s0.me 16 8 = none) ∧ (sFull.me.links.length = 32 ∧ moveMarkv sFull.me 16 8 = none) ∧
    sWide.me.links = [] ∧ (moveMarkv sWide.me 0 (-8) = none ∧ (sWide.srcS (imm 0x1FFFFFF) 0x7F).toInt = -1) :=
  ⟨fit_of _ _ (by decide +kernel), fit_of _ _ (by decide +kernel), fit_of _ _ (by decide +kernel), ready_of (by decide +kernel),
    ready_of (by decide +kernel), by decide +kernel, ⟨by decide +kernel, by decide +kernel, by decide +kernel, by decide +kernel, by decide +kernel⟩,
    ⟨by decide +kernel, by decide +kernel, by decide +kernel, by decide +kernel, by decide +kernel⟩, by decide +kernel, by decide +kernel, by decide +kernel,
    by decide +kernel⟩

/-- R85, R380, R442, R516: slides, the link, and WINDOW with its values 1 to 4. -/
theorem test_calls :
    (let t := after (.call bare 0x11 7) sWide; (t.me.pc, t.me.vb, t.me.sb, t.me.links) = (0x1020, 16, 8, [(0x1004, 0x11)])) ∧
    (after (.callr bare 0x11 9) sWide).me.pc = 0x3000 ∧
    (let t := after (.ret bare) sCalled; (t.me.pc, t.me.vb, t.me.sb, t.me.links) = (0x1800, 0, 0, [])) ∧
    (after (.winv (imm 0) 1) sWide).me.vb = 16 ∧
    [after (.call bare 0x11 7) s0, after (.call bare 0x11 7) sFull, after (.ret bare) sWide, after (.wins (imm 0x1FFFFFF) 0x7F) sWide].map
      (fun t => (t.me.tcause, t.me.tval)) = [(0x12, 1), (0x12, 2), (0x12, 3), (0x12, 4)] := by
  decide +kernel

/-- A split-phase load and another access outstanding. -/
def fl0 : Flight :=
  { id := 0, seq := 0, kind := .load, lane := 0, va := 0, loc := 2 ^ 52, width := 4, ord := .relaxed, scope := .grp, data := 0, cmp := 0, dest := [.v 10],
    sext := false, ctr := some (0, 0), value := Lanes.zero, mask := 1, flags := 0, cover := false, hint := 0 }

theorem test_meets_exit :
    (let u := sg fun g => { g with flights := [fl0], issued := vset g.issued 0 1 }
     Fit u [(bare, opStop (wordR bare 0 1 0 0 0) [] none)] ∧ SMap.wf Group.idle u.groups = true ∧ (∀ f ∈ u.me.flights, f.ctr.isSome = true)) ∧
    (let u := sg fun g => { g with flights := [{ fl0 with ctr := none }] }
     Fit u [(bare, opStop (wordR bare 0 1 0 0 0) [] none)] ∧ SMap.wf Group.idle u.groups = true ∧ ∃ f ∈ u.me.flights, f.ctr = none) :=
  ⟨⟨fit_of _ _ (by decide +kernel), by decide +kernel, by decide +kernel⟩, fit_of _ _ (by decide +kernel), by decide +kernel, by decide +kernel⟩

/-- R397: with an access outstanding EXIT waits for reason 31; else the slot is free. -/
theorem test_exit : (after (.exit bare) s0).groups = [] ∧
    (after (.exit bare) (sg fun g => { g with flights := [{ fl0 with ctr := none }] })).me.wait = { code := 31, cond := .quiet } := by
  decide +kernel

/-! ### Vector instructions -/

theorem test_meets_vector :
    Fit s0 [(bare, opVInt bare 0x11 .v .add 10 1 2), (imm 0, opVInt (imm 0) 0x11 .v .add 10 1 5), (lane .rev (.bcast 3), opVInt (lane .rev (.bcast 3)) 0x11 .v .mad 10 1 2),
      (rep 1 true true true 0, opVInt (rep 1 true true true 0) 0x12 .v .sub 10 1 2), (bare, opVInt bare 0x13 .w .mul 10 2 4), (bare, opVVV bare 0x14 2 .v .v .v .wr 10 1 2),
      (bare, { opVVZ bare 0x14 8 .v .v 10 0 with word := wordR bare 0x14 8 10 0 2, flds := [⟨.d, .v, .wr, 10⟩, ⟨.b, .v, .rd, 2⟩] }),
      (bare, opVVZ bare 0x14 9 .v .v 10 1), (bare, { opVVZ bare 0x14 11 .v .v 10 0 with flds := [⟨.d, .v, .wr, 10⟩] }),
      (bare, opVVV bare 0x15 0 .p .v .v .wr 4 1 2), (bare, opVVV bare 0x15 10 .p .w .w .wr 4 2 4), (bare, opFlt bare 0x16 0 .v .add 10 3 4),
      (bare, opFlt bare 0x17 3 .v .fma 10 3 4), (bare, opFlt bare 0x18 0 .w .add 10 2 4), (bare, opVVZ bare 0x18 9 .v .w 10 4), (bare, opSfu bare 0 .v false 10 3 0),
      (bare, opSfu bare 3 .v true 10 3 4), (bare, opSfu bare 9 .w false 10 4 0), (bare, opVcvt bare 0 10 3 0x11), (bare, opVcvt bare 0 10 4 0x0A), (bare, opVcvt bare 3 10 3 0x03),
      (bare, opVpack bare 10 12 0x16), (bare, opVunpk bare 12 9 0x1C), (bare, opVVV bare 0x1B 0 .v .v .v .rw 10 3 4), (bare, opVVV bare 0x1C 0 .v .v .v .wr 10 1 2),
      (bare, opVVZ bare 0x1C 2 .p .v 4 1), (bare, opVVZ bare 0x1C 3 .v .v 10 3), (bare, opVVZ bare 0x1C 7 .v .v 10 1)] :=
  fit_of _ _ (by decide +kernel)

/-- Lane i of v(n) after an instruction. -/
noncomputable def vl (n i : Nat) (j : Instr) (s : State) : Word := vat ((after j s).me.getV (.v n)) i 0

/-- R476, R506: integer elements wrap; halves and pairs are separate elements; LANE reverses. -/
theorem test_vector_integer :
    [vl 10 5 (.vaddI32 bare 10 1 2) s0, vl 10 5 (.vsubI32 bare 10 1 2) s0, vl 10 5 (.vmulI32 bare 10 1 2) s0, vl 10 5 (.vmulhI32 bare 10 1 2) s0,
     vl 10 5 (.vmadI32 bare 10 1 1) s0, vl 10 5 (.vandI32 bare 10 1 2) s0, vl 10 5 (.vorI32 (imm 0) 10 1 8) s0, vl 10 5 (.vxorI32 bare 10 1 1) s0,
     vl 10 5 (.vshlI32 (imm 0) 10 1 33) s0, vl 10 5 (.vshrI32 (imm 0) 10 2 1) s0, vl 10 5 (.vsraI32 (imm 0) 10 2 1) s0, vl 10 5 (.vminI32 bare 10 1 2) s0,
     vl 10 5 (.vmaxI32 bare 10 1 2) s0, vl 10 5 (.vminnI32 bare 10 1 2) s0, vl 10 5 (.vmaxnI32 bare 10 1 2) s0, vl 10 5 (.vabsI32 bare 10 2) s0,
     vl 10 5 (.vaddI16 bare 10 1 2) s0, vl 10 5 (.vminI16 bare 10 1 2) s0, vl 10 5 (.vaddI32 (lane .rev .none) 10 1 0) s0, vl 10 5 (.vaddI32 (lane (.bcast 3) .none) 10 1 0) s0] =
    [3, 7, 0xFFFFFFF6, 0xFFFFFFFF, 25, 4, 13, 0, 10, 0x7FFFFFFF, 0xFFFFFFFF, 0xFFFFFFFE, 5, 5, 0xFFFFFFFE, 2, 0xFFFF0003, 0xFFFFFFFE, 26, 3] := by
  decide +kernel

/-- R476: 64-bit elements in pairs; v2:v3 is 0x3FC00000FFFFFFFE in every lane. -/
theorem test_vector_pairs :
    let w := fun i => (vl 10 5 i s0, vl 11 5 i s0)
    [w (.vaddI64 bare 10 2 2), w (.vshlI64 (imm 0) 10 2 4), w (.vsubI64 bare 10 2 2), w (.vabsI64 bare 10 2)] =
    [(0xFFFFFFFC, 0x7F800001), (0xFFFFFFE0, 0xFC00000F), (0, 0), (0xFFFFFFFE, 0x3FC00000)] := by
  decide +kernel

/-- R505, R498, R482, R501, R496; the last-result file shifts (R83). -/
theorem test_vector_moves :
    [vl 10 3 (.vsel bare 1 10 1 2) s0, vl 10 20 (.vsel bare 1 10 1 2) s0, vl 10 3 (.vmov bare 10 2) s0, vl 10 3 (.vclz bare 10 1) s0, vl 10 3 (.vpop bare 10 2) s0,
     vl 10 3 (.vlid bare 10) s0, vat ((after (.vlid bare 10) s0).me.getV (.h 0)) 3 0] = [3, 0xFFFFFFFE, 0xFFFFFFFE, 30, 31, 3, 3] := by
  decide +kernel

/-- R484: signed and unsigned order; v4 is 2.25 below lane 16 and a signalling NaN from there. -/
theorem test_vector_compares :
    let p := fun i => let t := after i s0; (vat t.me.preds 4 0, t.me.fflags)
    [p (.vcmpLtI32 bare 4 1 2), p (.vcmpLtN32 bare 4 1 2), p (.vcmpLtF32 bare 4 3 4), p (.vcmpEqF32 bare 4 5 1), p (.vcmpUnF32 bare 4 3 4), p (.vcmpLeF32 bare 4 4 4)] =
    [(0, 0), (0xFFFFFFFF, 0), (0x0000FFFF, 1), (1, 0), (0xFFFF0000, 1), (0x0000FFFF, 1)] := by
  decide +kernel

/-- R146 to R149, R488, R489: 1.5 + 2.25, 1.5 − 2.25, 1.5 × 2.25, 1.5 × 2.25 + 0, −0 below 2.25, classes. -/
theorem test_vector_floats :
    [vl 10 0 (.vfaddF32 bare 10 3 4) s0, vl 10 0 (.vfsubF32 bare 10 3 4) s0, vl 10 0 (.vfmulF32 bare 10 3 4) s0, vl 10 0 (.vfmaF32 bare 10 3 4) s0,
     vl 10 0 (.vfnmaF32 bare 10 3 4) s0, vl 10 0 (.vfminF32 bare 10 5 4) s0, vl 10 0 (.vfmaxF32 bare 10 5 10) s0, vl 10 0 (.vfabsF32 bare 10 5) s0,
     vl 10 0 (.vfnegF32 bare 10 3) s0, vl 10 20 (.vfaddF32 bare 10 3 4) s0, vl 10 0 (.vfclassF32 bare 10 5) s0, vl 10 20 (.vfclassF32 bare 10 4) s0] =
    [0x40700000, 0xBF400000, 0x40580000, 0x40580000, 0xC0580000, 0x80000000, 0, 0, 0xBFC00000, 0x7FC00000, 8, 256] := by
  decide +kernel

/-- R489's example: VFMA.BF16 of 0x40003F80, 0x3F804000 and 0x3F803F80 gives 3.0 in each half. -/
theorem test_vector_bf16 :
    let u := sg fun g => { g with vregs := [(4, lanesFn fun _ => 0x3F803F80), (5, lanesFn fun _ => 0x40003F80), (6, lanesFn fun _ => 0x3F804000)] }
    vl 4 0 (.vfmaBf16 bare 4 5 6) u = 0x40404040 ∧ (after (.vfmaBf16 bare 4 5 6) u).me.fflags = 0 := by
  decide +kernel

/-- R490: the result is outstanding and its register pending until a marker. -/
theorem test_special_function :
    let t := after (.vfdiv bare 10 4 3) s0
    t.me.pending (.v 10) = true ∧ t.me.flights.length = 1 ∧ (t.me.flights.map fun f => vat f.value 0 0) = [0x3FC00000] ∧ t.me.pc = 0x1004 := by
  decide +kernel

/-- R152's examples: 1000.0 to E4M3 saturating and not, 0.3 and −3.0 to E2M1 (0.3 is tiny as well, R150); 2.25 to an integer, a NaN to an integer. -/
theorem test_conversions :
    let u := sg fun g => { g with vregs := [(1, lanesFn fun _ => 0x447A0000), (2, lanesFn fun _ => 0x3E99999A), (3, lanesFn fun _ => 0xC0400000)] }
    [(vl 10 0 (.vcvt bare 10 1 0x11) u, (after (.vcvt bare 10 1 0x11) u).me.fflags), (vl 10 0 (.vcvt bare 10 1 0x10) u, (after (.vcvt bare 10 1 0x10) u).me.fflags),
     (vl 10 0 (.vcvt bare 10 2 0x16) u, (after (.vcvt bare 10 2 0x16) u).me.fflags), (vl 10 0 (.vcvt bare 10 3 0x16) u, (after (.vcvt bare 10 3 0x16) u).me.fflags),
     (vl 10 0 (.vcvt bare 10 4 0x06) s0, (after (.vcvt bare 10 4 0x06) s0).me.fflags), (vl 10 20 (.vcvt bare 10 4 0x06) s0, 0)] =
    [(0x7E, 0x14), (0x7F, 0x14), (0x01, 0x18), (0x0D, 0), (2, 0x11), (0, 0)] := by
  decide +kernel

/-- The examples of R500 and R504: VPACK of 1.0, −0.5, 6.0 and 7.0, VUNPK of the same, VSCACC of 16.0 with scales 0x7F and 0x7E. -/
theorem test_packing :
    let u := sg fun g => { g with vregs := [(9, lanesFn fun _ => 0x07070902), (10, lanesFn fun _ => 0x41800000), (12, lanesFn fun _ => 0x3F800000),
      (13, lanesFn fun _ => 0xBF000000), (14, lanesFn fun _ => 0x40C00000), (15, lanesFn fun _ => 0x40E00000)] }
    vl 9 0 (.vpack bare 9 12 0x16) u = 0x07070902 ∧ (after (.vpack bare 9 12 0x16) u).me.fflags = 0x14 ∧
    [12, 13, 14, 15].map (fun n => vl n 0 (.vunpk bare 12 9 0x1C) u) = [0x3F800000, 0xBF000000, 0x40C00000, 0x40C00000] ∧
    vl 20 0 (.vscaccE8m0 (imm 0xFC) 20 10 0x7F) u = 0x41000000 ∧ vl 20 0 (.vscaccE8m0 (imm 0x1FE) 20 10 0x7F) u = 0x7FC00000 := by
  decide +kernel

/-- The examples of R503, R487, R507 and R512. -/
theorem test_lane_operations :
    let u := sg fun g => { g with em := 0x000000F5, vregs := [(1, lanesFn fun _ => 1)] }
    let e := sg fun g => { g with em := 0xFF, vregs := [(1, lanesFn fun i => [4, 7, 4, 9, 7, 7, 2, 4].getD i 0)] }
    let h := sg fun g => { g with live := 0xFFFFFFEF, em := 0xF, vregs := [(1, lanesFn fun i => if i = 4 then 0 else BitVec.ofNat 32 (100 + i)), (2, lanesFn fun i => [4, 7, 0, 31].getD i 0)] }
    [0, 2, 4, 5, 6, 7, 1].map (fun i => vl 7 i (.vscanAddI32 bare 7 1) u) = [1, 2, 3, 4, 5, 6, 0] ∧ vl 7 6 (.vredAddI32 bare 7 1) u = 6 ∧
    vat (after (.velect bare 5 1) e).me.preds 5 0 = 0x4B ∧
    [0, 1, 2, 3].map (fun i => vl 3 i (.vshuf bare 3 1 2) h) = [0, 107, 100, 131] ∧ (after (.vshuf bare 3 1 2) h).me.fflags = 0x40 ∧
    (after (.vvote bare 10 1 0) h).me.sabs 10 = 0x5FFFFFFFEF := by
  decide +kernel

/-- R83 and R91 for a write of a register: their premise at both ends. -/
theorem test_meets_lane_writes : (0 : Reg).toNat < 112 ∧ (111 : Reg).toNat < 112 := by decide

/-! ### Floating point -/

/-- F32 operands: 1.5, 2.25, 2^−149, −0, a quiet and a signalling NaN, −∞. -/
theorem test_meets_float_operands :
    fF32 ∈ ieeeFormats ∧ fF32.dec 0x3FC00000 = .num false 0xC00000 (-23) ∧ fF32.rd true 0x40100000 = .num false 0x900000 (-22) ∧ fF32.rd false 1 = .num false 1 (-149) ∧
    (∃ e, fF32.rd true 1 = .num false 0 e) ∧ (∃ e, fF32.rd false 0x80000000 = .num true 0 e) ∧ fF32.rd false 0x7FC00000 = .nan false ∧
    fF32.rd false 0x7F800001 = .nan true ∧ fF32.rd false 0xFF800000 = .inf true := by
  refine ⟨by decide, by decide +kernel, by decide +kernel, by decide +kernel, ⟨_, rfl⟩, ⟨_, rfl⟩, by decide +kernel, by decide +kernel, by decide +kernel⟩

/-- R146: 1 + 2^−24 is a tie in F32; each direction gives its neighbour. -/
theorem test_rounding :
    [Rm.rne, .rz, .ru, .rd].map (fun m => fF32.round m false false (2 ^ 24 + 1) (-24) false) =
      [⟨0x3F800000, flNX⟩, ⟨0x3F800000, flNX⟩, ⟨0x3F800001, flNX⟩, ⟨0x3F800000, flNX⟩] ∧
    fF32.round .rz false false 1 128 false = ⟨0x7F7FFFFF, flOF ||| flNX⟩ ∧ fF32.round .rne false true 1 128 false = ⟨0xFF800000, flOF ||| flNX⟩ := by
  decide +kernel

/-- The premises of IntegerConversions: 2.5 rounds to 2 (RNE); beyond the range; a NaN. -/
theorem test_meets_integer_conversions :
    fF32.rd false (0x40200000 % 2 ^ 32) = .num false 0xA00000 (-22) ∧ RoundsToInt .rne (FloatValue false 0xA00000 (-22)) 2 ∧
    fF32.rd false (0x50000000 % 2 ^ 32) = .num false 0x800000 10 ∧ RoundsToInt .rz (FloatValue false 0x800000 10) (2 ^ 33) ∧
    fF32.rd false (0x7FC00000 % 2 ^ 32) = .nan false ∧ fF32.rd false (0xFF800000 % 2 ^ 32) = .inf true := by
  refine ⟨by decide +kernel, ?_, by decide +kernel, ?_, by decide +kernel, by decide +kernel⟩ <;> unfold RoundsToInt <;> decide +kernel

/-- R152: 2.5 to I32 by RNE and RU, 2^33 saturates with NV alone, −1.0 to N32 gives 0. -/
theorem test_integer_conversions :
    [convert 0x06 (.ieee .rne) false 0x40200000, convert 0x06 (.ieee .ru) false 0x40200000, convert 0x06 (.ieee .rz) false 0x50000000,
      convert 0x07 (.ieee .rz) false 0xBF800000, convert 0x08 (.ieee .rne) false 0xFFFFFFFF] =
    [⟨2, flNX⟩, ⟨3, flNX⟩, ⟨0x7FFFFFFF, flNV⟩, ⟨0, flNV⟩, ⟨0xBF800000, 0⟩] := by
  decide +kernel

/-- The premises of SpecialFunctionBounds: 3.0 and its reciprocal in F32 and F64, the integer 5, the power 2^−3, a pole, a negative number. -/
theorem test_meets_special_bounds :
    fF32.rd false 0x40400000 = .num false 0xC00000 (-22) ∧ fF32.rd false 0x40A00000 = .num false 0xA00000 (-21) ∧ FloatValue false 0xA00000 (-21) = 5 ∧
    fF32.rd false 0x3E000000 = .num false 0x800000 (-26) ∧ FloatValue false 0x800000 (-26) = 2 ^ (-3 : Int) ∧ (∃ e, fF32.rd false 0 = .num false 0 e) ∧
    fF32.rd false 0xBF800000 = .num true 0x800000 (-23) ∧ fF64.rd false 0x4008000000000000 = .num false 0x18000000000000 (-51) := by
  refine ⟨by decide +kernel, by decide +kernel, by decide +kernel, by decide +kernel, by decide +kernel, ⟨_, rfl⟩, by decide +kernel,
    by decide +kernel⟩

/-! ### Memory -/

/-- The page at 0x10000 is at local address 0x200000, readable, writable and executable. -/
def page0 : TlbEntry := { ctx := 1, base := 0x10000, size := 65536, pte := 0x200E01 }

/-- The sector of 0x10040, whole and clean, in the cluster's L2: its bytes are those of memory. -/
def sec0 : Sector := { Sector.empty with data := 0x0807060504030201, valid := 0xFFFFFFFFFFFFFFFF }

def gM : Group :=
  { g0 with
    sregs := [(1, 7), (2, 3), (9, 0x3000), (10, 0x10040), (11, 0x80000000000000), (12, 0x100), (13, 0x10044), (14, 0x10041), (15, 0x2000)]
    vregs := [(1, lanesFn fun i => BitVec.ofNat 32 i), (2, lanesFn fun i => BitVec.ofNat 32 (4 * i)), (6, lanesFn fun i => BitVec.ofNat 32 (100 + i))]
    em := 0x3 }

/-- Two lanes act; tiles 0 and 1 of core 0 belong to context 1; scratchpad byte 0x100 on holds 11 and 12 as words. -/
def sM : State :=
  { State.reset with
    groups := [(0, gM)]
    ctxs := [(1, { Ctx.none with used := true, tvec := 0x2000, spapb := 0x10000000000, tenant := 1 })]
    cores := [(0, { Core.idle with l1tlb := [page0], tiles := [(0, { held := true, crew := 0, ctx := 1, owner := 0 }), (1, { held := true, crew := 0, ctx := 1, owner := 9 })] })]
    clusters := [(0, { Cluster.empty with l2 := [(0x200040 / 64, sec0)] })]
    mem := [(0x200040, 1), (0x200041, 2), (0x200042, 3), (0x200043, 4), (0x200044, 5), (0x200045, 6), (0x200046, 7), (0x200047, 8),
      (2 ^ 52 + 0x100, 11), (2 ^ 52 + 0x104, 12)] }

/-- The lanes of a request have these places. -/
def placesB (m : Mem) (u : State) (ps : List (Nat × Dword × Spot)) : Bool :=
  match memPlace m u with
  | .inr p => decide (p = (ps, u))
  | .inl _ => false

theorem places_of {m : Mem} {u : State} {ps : List (Nat × Dword × Spot)} (h : placesB m u ps = true) : memPlace m u = .inr (ps, u) := by
  unfold placesB at h
  split at h
  · next p hp => rw [hp, of_decide_eq_true h]
  · cases h

/-- Every check of a request passes, as a test. -/
def clearB (m : Mem) (u : State) (ps : List (Nat × Dword × Spot)) : Bool :=
  !u.me.orderWait && (m.counterFull u.me).isNone && placesB m u ps && decide (parkedOf ps = []) &&
  (u.refusedTile m.acc (hitsOf ps)).isNone && (u.watchAt u.cur m.spad m.reads m.writes m.width (ps.map (·.2.1))).isNone &&
  decide (memBounds m (hitsOf ps) u = { trap := none, clamp := none, flag := false }) && (!m.writes || !(u.ctx u.me.ctx).exhausted) &&
  u.belowCaps u.cur (needSlots (hitsOf ps)).length (aims (needSlots (hitsOf ps))) &&
  decide (u.slotsUsed (coreOf u.cur) + (needSlots (hitsOf ps)).length ≤ 768) && decide (u.probes u.cur m (hitsOf ps) (hitsOf ps) = (none, u))

theorem clear_of {m : Mem} {u : State} {ps : List (Nat × Dword × Spot)} (h : clearB m u ps = true) : Clear m u ps := by
  simp only [clearB, Bool.and_eq_true, Bool.not_eq_true', Option.isNone_iff_eq_none, decide_eq_true_eq, Bool.or_eq_true] at h
  constructor
  case place => exact places_of (by simp only [h])
  case key => intro w; simpa [w] using h.1.1.1.2
  all_goals simp only [h]

theorem clears_of {u : State} {l : List (Mem × List (Nat × Dword × Spot))} (h : (l.all fun p => clearB p.1 u p.2) = true) :
    ∀ p ∈ l, Clear p.1 u p.2 := fun p hp => clear_of (List.all_eq_true.1 h p hp)

/-- The bundles of LoadsAndStores and Atomics. -/
theorem test_meets_memory_bundles : Fit sM [
    (bare, opMem (wordR bare 0x20 12 20 10 5) (fldsL .s .s 20 10 5) true none), (imm 0, opMem (wordR (imm 0) 0x20 8 20 10 4) (fldsL .s .s 20 10 4) true none),
    (bare, opMem (wordR bare 0x21 12 1 10 5) (fldsS .s .s 1 10 5) false none), (bare, opMem (wordR bare 0x22 0 20 10 1) (fldsL .v .v 20 10 1) true none),
    (bare, opMem (wordR bare 0x23 1 20 10 5) (fldsL .v .s 20 10 5) true none), (bare, opMem (wordR bare 0x24 2 20 10 1) (fldsL .w .v 20 10 1) true none),
    (bare, opMem (wordR bare 0x25 0 6 10 1) (fldsS .v .v 6 10 1) false none), (bare, opMem (wordR bare 0x26 0 6 10 5) (fldsS .v .s 6 10 5) false none),
    (bare, opMem (wordR bare 0x27 0 6 10 1) (fldsS .w .v 6 10 1) false none), (bare, opMem (wordR bare 0x28 0 20 12 1) (fldsL .v .v 20 12 1) true none),
    (bare, opMem (wordR bare 0x29 0 6 12 1) (fldsS .v .v 6 12 1) false none),
    (bare, opMem (wordR bare 0x2A 0 1 10 5) [⟨.d, .s, .rw, 1⟩, ⟨.a, .s, .rd, 10⟩, ⟨.b, .s, .rd, 5⟩] false (some 2)),
    (bare, opMem (wordR bare 0x2B 0 6 10 1) [⟨.d, .v, .rw, 6⟩, ⟨.a, .s, .rd, 10⟩, ⟨.b, .v, .rd, 1⟩] false (some 2)),
    (bare, opMem (wordR bare 0x2C 9 6 12 1) [⟨.d, .w, .rw, 6⟩, ⟨.a, .s, .rd, 12⟩, ⟨.b, .v, .rd, 1⟩] false (some 2))] := fit_of _ _ (by decide +kernel)

/-- Every check passes: LD of a doubleword at 0x10040, VST of two words there, SPLD and SPST at scratchpad 0x100, ATOM.ADD and VLD. -/
theorem test_meets_requests :
    let u := atBody bare sM
    let va := fun i => u.readS 10 + BitVec.ofNat 64 (4 * i)
    let sp := fun i => u.readS 12 + BitVec.ofNat 64 (4 * i)
    let words := [(0, 0x10040, .loc 0x200040 0 false), (1, 0x10044, .loc 0x200044 0 false)]
    let tiles := [(0, 0x100, .loc (2 ^ 52 + 0x100) 0 false), (1, 0x104, .loc (2 ^ 52 + 0x104) 0 false)]
    notEntry bare .w64 ⟨20, 10, 5, 0⟩ u ∧ ∀ p ∈ [
      ({ memLoad bare 8 1 [.s 20] none (fun _ => u.readS 10) with scalar := true }, [(0, 0x10040, .loc 0x200040 0 false)]),
      (memSt bare 4 u.me.act va (fun _ => 9), words),
      ({ memLoad bare 4 u.me.act [.v 20] none sp with spad := true }, tiles), ({ memSt bare 4 u.me.act sp (fun _ => 9) with spad := true }, tiles),
      ({ memAtom bare .add 1 [.s 1] (fun _ => u.readS 10) (fun _ => 7) (fun _ => 0) with scalar := true }, [(0, 0x10040, .loc 0x200040 0 false)]),
      (memLoad bare 4 u.me.act [.v 20] (some 0) va, words)], Clear p.1 u p.2 :=
  ⟨by unfold notEntry; decide +kernel, clears_of (by decide +kernel)⟩

/-- The premises of their traps: a misaligned lane, and a lane of a scratchpad request outside the context's tiles. -/
theorem test_meets_request_traps :
    let u := atBody bare sM
    Ready sM ∧ u.me.orderWait = false ∧
    (Mem.todo (memLoad bare 4 u.me.act [.v 20] none (fun i => u.readS 14 + BitVec.ofNat 64 (4 * i))) u.me).find? (fun p => p.2.toNat % 4 != 0) = some (0, 0x10041) ∧
    (Mem.todo { memLoad bare 4 u.me.act [.v 20] none (fun i => u.readS 15 + BitVec.ofNat 64 (4 * i)) with spad := true } u.me).find?
      (fun p => !u.spadGood u.cur p.2) = some (0, 0x2000) ∧
    (memLoad bare 4 u.me.act [.v 20] none (fun _ => 0)).counterFull u.me = none :=
  ⟨ready_of (by decide +kernel), by decide +kernel⟩

/-- R411, R265, R449: a load's access is outstanding and its register pending; MISALIGN; MEMFAULT outside the tiles; SPATOM adds at once. -/
theorem test_memory_issue :
    (let t := after (.ld bare .w64 false 20 10 5) sM; (t.me.flights.map (·.loc), t.me.pending (.s 20), t.me.pc) = ([0x200040], true, 0x1004)) ∧
    (let t := after (.vldc bare 1 20 14 5) sM; (t.me.tcause, t.me.tval) = (4, 0x10041)) ∧
    (let t := after (.spld bare 20 15 1) sM; (t.me.tcause, t.me.tval) = (5, 0x2000)) ∧
    (let t := after (.spatom bare .add 6 12 1) sM
     (Memory.le t.mem (2 ^ 52 + 0x100) 4, Memory.le t.mem (2 ^ 52 + 0x104) 4, vat (t.me.getV (.v 6)) 0 0, vat (t.me.getV (.v 6)) 1 0) = (111, 113, 11, 12)) := by
  decide +kernel

/-- SpAtom's premises: no access outstanding, its places, no refusal by owners or watchpoints. -/
theorem test_meets_spatom :
    let u := atBody bare sM
    let m := { memAtom bare .add u.me.act [.v 6] (fun i => u.readS 12 + BitVec.ofNat 64 (4 * i)) (fun _ => 100) (fun _ => 0) with spad := true }
    sM.me.flights = [] ∧ sM.hub.marks = [] ∧ sM.hub.l3marks = [] ∧ sM.hub.poison = [] ∧ Clear m u
      [(0, 0x100, .loc (2 ^ 52 + 0x100) 0 false), (1, 0x104, .loc (2 ^ 52 + 0x104) 0 false)] :=
  have h : sM.me.flights = [] ∧ sM.hub.marks = [] ∧ sM.hub.l3marks = [] ∧ sM.hub.poison = [] := by decide +kernel
  ⟨h.1, h.2.1, h.2.2.1, h.2.2.2, clear_of (by decide +kernel)⟩

/-- An access of lane 0 outstanding, of this kind, at a location. -/
def fl (k : FlightKind) (loc w : Nat) (dest : List RegId) : Flight := { fl0 with kind := k, loc := loc, width := w, dest := dest, ctr := none, data := 0x11223344 }
/-- sM with that access outstanding. -/
def sF (f : Flight) : State := { sM with groups := [(0, { gM with flights := [f], nextFlight := 1 })] }

def mayLandB (s : State) (g : Nat) (f : Flight) : Bool :=
  decide (g < 18432) && (s.grp g).used && decide ((s.grp g).flights.find? (fun e => e.id == f.id) = some f) && s.mayPerform g f && (s.grp g).runAhead.isNone &&
  (s.session? (s.grp g).ctx).isNone && decide (s.hub.doomed = []) && decide (s.hub.marks = []) && decide (s.hub.l3marks = []) && decide (s.hub.poison = []) &&
  s.mem.wf && decide (f.loc % 64 + f.width ≤ 64) && decide ((s.grp g).regMarks = [])

theorem mayLand_of {s : State} {g : Nat} {f : Flight} (h : mayLandB s g f = true) : MayLand s g f := by
  simp only [mayLandB, Bool.and_eq_true, Option.isNone_iff_eq_none, decide_eq_true_eq] at h
  constructor <;> simp only [h]

theorem mayLands_of {l : List Flight} (h : (l.all fun f => mayLandB (sF f) 0 f) = true) : ∀ f ∈ l, MayLand (sF f) 0 f :=
  fun f hf => mayLand_of (List.all_eq_true.1 h f hf)

/-- Each kind of access that LoadsLand and WritesPerformed speak of may land, from the scratchpad and from memory. -/
theorem test_meets_landing :
    (∀ f ∈ [fl .load (2 ^ 52 + 0x100) 4 [.s 20], fl .load 0x200040 8 [.s 20], fl .store (2 ^ 52 + 0x100) 4 [], fl .store 0x200040 4 [],
        fl .spill 0x200040 8 [], fl (.atomic .cas) 0x200040 4 [.s 20], fl .fence 0 0 [], fl .flush 0 0 [], fl .inval 0 0 [], fl .sfu 0 0 [.v 20],
        fl .fill 0 0 [.v 20], fl .fill 0 0 [.s 20]], MayLand (sF f) 0 f) ∧
    -- the sectors' conditions: no mark, no poison, valid, nothing of it written, no foreign owner in its line, a way of its set
    (let u := sF (fl .store 0x200040 4 [])
     (u.sector 0 0x200040).mark = 0 ∧ (u.sector 0 0x200040).poison = false ∧ (u.sector 0 0x200040).valid ≠ 0 ∧ (u.sector 0 0x200040).written = 0 ∧
     (u.cluster 0).armed = [] ∧ HasWay u 0 0x200040 ∧ (∀ e ∈ (u.cluster 0).l2, e.2.mark ≠ 2) ∧
     ((u.cluster 0).l2.any fun e => e.1 / 8 == 0x200040 / 512 && e.2.written != 0 && e.2.owner != (u.grp 0).ctx + 1) = false) ∧
    -- a CAS that matches nothing and one that does
    (valueOf (Memory.byte sM.mem) 0x200040 4 = 0x04030201 ∧ (fl (.atomic .cas) 0x200040 4 [.s 20]).cmp.toNat % 2 ^ 32 = 0) :=
  ⟨mayLands_of (by decide +kernel), by unfold HasWay; decide +kernel, by decide +kernel⟩

/-- R411, R213, R363: little-endian values; a store becomes visible in its cluster's L2, and memory keeps its bytes; ADD at the point of coherence. -/
theorem test_landing :
    (after (.variableResultLands 0 0) (sF (fl .load 0x200040 8 [.s 20]))).me.sabs 20 = 0x0807060504030201 ∧
    (after (.variableResultLands 0 0) (sF (fl .load (2 ^ 52 + 0x104) 4 [.s 20]))).me.sabs 20 = 12 ∧
    (let t := after (.accessPerformed 0 0) (sF (fl .store 0x200040 4 []))
     ((t.sector 0 0x200040).byte 0, (t.sector 0 0x200040).written, Memory.byte t.mem 0x200040, t.me.flights) = (0x44, 15, 1, [])) ∧
    (let t := after (.variableResultLands 0 0) (sF (fl (.atomic .add) 0x200040 4 [.s 20]))
     (Memory.le t.mem 0x200040 4, t.me.sabs 20) = (0x15253545, 0x04030201)) := by
  decide +kernel

/-- The premises of FencesAndWaits. -/
theorem test_meets_waits :
    Fit sM [(bare, opStop (wordR bare 0x2D 0 0 0 0x13) [] none), (bare, opStop (wordR bare 0x2D 0 0 0 0x1B) [] (some 1)), (bare, opStop (wordR bare 0x2D 1 0 0 4) [] (some 1)),
      (bare, opStop (wordR bare 0x2D 2 0 0 0) [] none), (bare, opMem (wordR bare 0x2D 3 0 10 5) [⟨.a, .s, .rd, 10⟩, ⟨.b, .s, .rd, 5⟩] true none),
      (imm 0, opStop (wordR (imm 0) 0x2D 4 0 1 0) [⟨.a, .c, .rd, 1⟩, ⟨.b, .s, .rd, 0⟩] none),
      (bare, opStop (wordR bare 0x2D 5 20 10 1) [⟨.d, .s, .wr, 20⟩, ⟨.a, .s, .rd, 10⟩, ⟨.b, .s, .rd, 1⟩] (some 10)),
      (bare, opStop (wordR bare 0x2D 6 20 12 1) [⟨.d, .s, .wr, 20⟩, ⟨.a, .s, .rd, 12⟩, ⟨.b, .s, .rd, 1⟩] (some 10)),
      (bare, opStop (wordR bare 0x2D 7 0 12 1) [⟨.a, .s, .rd, 12⟩, ⟨.b, .s, .rd, 1⟩] (some 2))] ∧
    (let u := atBody bare sM
     u.ownMaps = [] ∧ canonical 0x10040 = true ∧ sM.aperture? 1 0x10040 = none ∧ sM.me.uncounted 1 ≤ 0 ∧ sM.me.takeOwed 1 (vat sM.me.issued 1 0 - 0) = none ∧
     u.spot 0 0x10040 .r true = (.loc 0x200040 0 false, u) ∧ sM.refusedTile .r [{ lane := 0, va := 0x10040, loc := 0x200040, hint := 0, enc := false }] = none ∧
     sM.watchAt 0 false true false 8 [0x10040] = none ∧ (sM.sector 0 0x200040).written = 0 ∧ sM.spadGood 0 0x100 = true ∧ sM.mem.wf = true) ∧
    -- MWAIT differs from s1 and equals the doubleword; SYNCW the same
    (BitVec.ofNat 64 (valueOf (Memory.byte sM.mem) 0x200040 8) ≠ sM.srcS bare 1 ∧ valueOf (Memory.byte sM.mem) (2 ^ 52 + 0x100) 8 % 2 ^ 16 = 11) :=
  ⟨fit_of _ _ (by decide +kernel), by decide +kernel, by decide +kernel⟩

/-- R424, R461, R462, R399: MWAIT reads a word that differs, and waits with reason 11 for one that does not; SYNCW and SYNCSET; FENCE. -/
theorem test_waits :
    (after (.mwait bare 20 10 1) sM).me.sabs 20 = 0x0807060504030201 ∧
    (after (.mwait bare 20 10 16) { sM with groups := [(0, { gM with sregs := gM.sregs ++ [(16, 0x0807060504030201)] })] }).me.wait.code = 11 ∧
    (after (.syncw bare 20 12 1) sM).me.sabs 20 = 0xC0000000B ∧ Memory.le (after (.syncset bare 12 1) sM).mem (2 ^ 52 + 0x100) 8 = 7 ∧
    (after (.fence bare .acqRel .pkg) sM).me.flights.length = 1 := by
  decide +kernel

/-- sM with s16 at entry 0 of its core's mapping table; entry 1 is valid for context 2. -/
def sMap : State :=
  { sM with
    groups := [(0, { gM with sregs := gM.sregs ++ [(16, 0x1000007F000), (17, 0x1000007F018)] })]
    cores := sM.cores.map fun e => (e.1, { e.2 with maps := [(1, (0x20001, 2 * 2 ^ 48 + 0x101))] }) }

theorem atEntry_of {u : State} {va : Dword} {w : Bool} {k dw : Nat} (h : u.mapSlot? u.cur va = some (k, dw) ∧ u.me.orderWait = false ∧
    va.toNat % 8 = 0 ∧ u.watchAt u.cur false (!w) w 8 [va] = none) : AtEntry bare u va w k dw := ⟨h.1, rfl, h.2.1, h.2.2.1, h.2.2.2⟩

/-- The premises of MapAccesses: a load and a store at an invalid entry, and a store at another context's. -/
theorem test_meets_mapping :
    Fit sMap [(bare, opMem (wordR bare 0x20 12 20 16 5) (fldsL .s .s 20 16 5) true none), (bare, opMem (wordR bare 0x21 12 1 16 5) (fldsS .s .s 1 16 5) false none),
      (bare, opMem (wordR bare 0x21 12 1 17 5) (fldsS .s .s 1 17 5) false none)] ∧ Ready sMap ∧
    AtEntry bare (atBody bare sMap) 0x1000007F000 false 0 0 ∧ AtEntry bare (atBody bare sMap) 0x1000007F000 true 0 0 ∧
    AtEntry bare (atBody bare sMap) 0x1000007F018 true 1 1 ∧
    (mapV (mapEntry sMap 0) = false ∧ mapV (entryWith (mapEntry sMap 0) 0 6) = false ∧ mapV (mapEntry sMap 1) = true ∧ mapCtx (mapEntry sMap 1) ≠ sMap.me.ctx) :=
  ⟨fit_of _ _ (by decide +kernel), ready_of (by decide +kernel), atEntry_of (by decide +kernel), atEntry_of (by decide +kernel), atEntry_of (by decide +kernel), by
    decide +kernel⟩

/-- R199, R200: an LD reads the entry's doubleword; an ST without V sets the fields that its registers have; one at a foreign entry is MEMFAULT. -/
theorem test_mapping :
    (after (.ld bare .w64 false 20 17 5) sMap).me.sabs 20 = 0x2000000000101 ∧ mapEntry (after (.st bare .w64 12 16 5) sMap) 0 = (0, 0) ∧
    (let t := after (.st bare .w64 9 16 5) sMap; mapEntry t 0) = (0x3000, 0) ∧
    (let t := after (.st bare .w64 1 17 5) sMap; (t.me.tcause, t.me.tval)) = (5, 0x1000007F018) := by
  decide +kernel

/-! ### Barriers, engines, bins, deques, queues and bound registers -/

/-- Tiles of core 0 with their owner states: 0 to 4 THREAD, 5 and 6 COPY, 7 GATHER, 8 FABRIC, 9 and 10 COLLECTIVE, 16 to 25 MATRIX. -/
def tiles0 : SMap Tile :=
  (List.range 26).filterMap fun t =>
    let o := if t < 5 then 0 else if t < 7 then 9 else if t = 7 then 10 else if t = 8 then 13 else if t < 11 then 11 else 12
    if 10 < t ∧ t < 16 then none else some (t, { held := true, crew := 0, ctx := 1, owner := o })

def gU : Group :=
  { g0 with
    sregs := [(1, 7), (2, 3), (3, 0xFFFFFFFFFFFFFFFF), (9, 0x5000), (10, 0x10000), (11, 0x0FFFF00000000000), (12, 0x7000), (13, 0x0FFFF00000001C00),
      (14, 0x8000), (15, 0x10000), (16, 0x14000), (17, 0x16000), (18, 0x9000), (19, 0x40), (20, 0x1000), (21, 0x40001000), (22, 0x10000000100), (23, 0x10000000200),
      (24, 0x10000000300), (25, 0x10000000400), (26, 0x1040), (27, 0x1005)]
    vregs := [(1, lanesFn fun i => BitVec.ofNat 32 i)], em := 0x3 }

/-- Barrier objects 0x40 (free), 0x41 (arming two), 0x42 (foreign), 0x43 (EXPECT 0) of core 1; bins and configurations of context 1; a deque;
descriptors at scratchpad 0x100, 0x200 and 0x300. -/
def sU : State :=
  { State.reset with
    groups := [(0, gU)]
    ctxs := [(1, { Ctx.none with used := true, tvec := 0x2000, spapb := 0x10000000000, tenant := 1 })]
    cores := [
      (0, { Core.idle with tiles := tiles0, l1tlb := [page0], binCfg := [(1, 0x1000, 0x100000001)], deque := [5, 6], dqHolder := some 1 }),
      (1, { Core.idle with
        tiles := [(22, { held := true, crew := 0, ctx := 1, owner := 12 }), (23, { held := true, crew := 0, ctx := 1, owner := 12 }),
          (24, { held := true, crew := 0, ctx := 1, owner := 12 }), (25, { held := true, crew := 0, ctx := 1, owner := 12 })]
        dqHolder := some 2
        bars := [(1, { held := true, ctx := 1, gen := 4, arrived := 0, expect := 2 }), (2, { held := true, ctx := 2, gen := 4, arrived := 0, expect := 2 }),
          (3, { held := true, ctx := 1, gen := 4, arrived := 1, expect := 2 })] })]
    mem := [(2 ^ 52 + 0x100 + 1, 0x20), (2 ^ 52 + 0x100 + 9, 0x40), (2 ^ 52 + 0x100 + 20, 9), (2 ^ 52 + 0x100 + 27, 1), (2 ^ 52 + 0x200 + 26, 3), (2 ^ 52 + 0x200 + 27, 1),
      (2 ^ 52 + 0x300, 2), (2 ^ 52 + 0x300 + 2, 5), (2 ^ 52 + 0x400, 3)] }

def wait (c : Cond) : State := { sU with groups := [(0, { gU with wait := { code := 8, cond := c } })] }
def ctr (n : Nat) (f : Core → Core) : State := { sU with cores := sU.cores.map fun e => if e.1 = n then (e.1, f e.2) else e }

theorem ready_sU : Ready sU := ready_of (by decide +kernel)

theorem canonical_of {s : State} (h : (s.mem.wf && SMap.wf Group.idle s.groups && SMap.wf Core.idle s.cores) = true) : Canonical s := by
  simp only [Bool.and_eq_true] at h
  constructor <;> simp only [h]

theorem fresh_of {s : State} (h : s.me.wait.cond = .ready) : Fresh s := by intro p q e; rw [h] at e; cases e

theorem clean_of {u : State} (h : u.clusters = []) : Clean u := by intro k e he; rw [State.cluster, h] at he; cases he

theorem ownObj_of {s : State} {v : Dword} (h : v.toNat < 4096 ∧ s.objAway (objAt s v) v.toNat s.me.ctx = false ∧ (objOf s v).held = true ∧
    (objOf s v).ctx = s.me.ctx) : OwnObj s v := by constructor <;> simp only [h]

/-- sU with an access outstanding. -/
def sO (f : Flight) : State := { sU with groups := [(0, { gU with flights := [f], nextFlight := 1 })] }

/-- An outstanding acquire, and a flush: later instructions of some kinds wait behind each. -/
def acq : Flight := { fl .fence 0 0 [] with ord := .acquire, scope := .pkg }
def flu : Flight := { fl .flush 0 0 [] with ord := .release, scope := .pkg }


/-- The first barrier-object registers: a scalar register with each object's number. -/
def sObj (v w : Dword) : State := { sU with groups := [(0, { gU with sregs := [(1, v), (2, w)] })] }

/-- The premises of Barriers: a crew of one, a mate that has not arrived, a group released; objects held, foreign, free, busy, out of range. -/
theorem test_meets_barriers :
    Fit sU [(bare, opStop (wordR bare 0x2E 0 0 0 0) [] (some 7)), (bare, opStop (wordR bare 0x2E 1 20 1 0) [⟨.d, .s, .wr, 20⟩, ⟨.a, .s, .rd, 1⟩] (some 1)),
      (bare, opStop (wordR bare 0x2E 2 0 1 2) [⟨.a, .s, .rd, 1⟩, ⟨.b, .s, .rd, 2⟩] (some 7)),
      (bare, opStop (wordR bare 0x2E 3 0 1 2) [⟨.a, .s, .rd, 1⟩, ⟨.b, .s, .rd, 2⟩] (some 7))] ∧
    (Canonical sU ∧ Fresh sU ∧ sU.me.flights = [] ∧ wideScope (sU.barScope 0) = false ∧ ∀ h ∈ crewMates sU, h ≠ 0 → (sU.grp h).live = 0) ∧
    (let u : State := { sU with groups := [(0, gU), (1, gU)], hub := { Hub.reset with crews := [(0, {
        ctx := 1, launch := none, unit := 0, scrw := 0, core := 0, tile := 0, tiles := 5, gids := [0, 1], vregs := 32, sregs := 32, cls := .p, runahead := false, weight := 0
        away := 0, slot := 0, first := 0 })] } }
     Plain u ∧ (∃ h ∈ crewMates u, h ≠ u.cur ∧ (u.grp h).live ≠ 0 ∧ (u.grp h).wait.cond ≠ .bar) ∧
       let v : State := { u with groups := [(0, gU), (1, { gU with wait := { code := 8, cond := .bar } })] }
       ∀ h ∈ crewMates v, h ≠ v.cur → (v.grp h).live = 0 ∨ ((v.grp h).wait.cond = .bar ∧ (v.grp h).flights = [])) ∧
    (Plain (wait (.handed 0 0)) ∧ (wait (.handed 0 0)).me.wait.cond = .handed 0 0) ∧
    (4096 ≤ (0x1000 : Dword).toNat ∧ ((objOf sU 0x42).held = true ∧ (objOf sU 0x42).ctx ≠ 1) ∧ (objOf sU 0x40).held = false) ∧
    (OwnObj sU 0x41 ∧ (objOf sU 0x41).expect ≠ 0 ∧ (objOf sU 0x41).gen ≠ 3 ∧ OwnObj sU 0x43 ∧ (objOf sU 0x43).arrived + 1 = (objOf sU 0x43).expect) ∧
    (let u := ctr 1 fun k => { k with bars := [(3, { held := true, ctx := 1, gen := 4, arrived := 0, expect := 0 })] }
     Ready u ∧ OwnObj u 0x43 ∧ (objOf u 0x43).expect = 0) ∧
    -- BOINIT: busy, to free an object that is held, one that is free, one without waiters
    ((objOf sU 0x43).arrived ≠ 0 ∧ sU.objWaited 0 0x41 = false ∧ ((sU.core 1).barsBack.any fun e => e.1 == 1) = false) := by
  refine ⟨fit_of _ _ (by decide +kernel), ⟨canonical_of (by decide +kernel), fresh_of (by decide +kernel), ?_⟩,
    ⟨plain_of (by decide +kernel), ⟨1, by decide +kernel⟩, by decide +kernel⟩, ⟨plain_of (by decide +kernel), by decide +kernel⟩, by decide +kernel,
    ⟨ownObj_of (by decide +kernel), ?_, ?_, ownObj_of (by decide +kernel), ?_⟩, ⟨ready_of (by decide +kernel), ownObj_of (by decide +kernel), ?_⟩, ?_⟩ <;>
    decide +kernel

/-- R374 to R376, R372: an arrival gives the generation and completes it at EXPECT; QUEUE 2, 3, 4 and 5. -/
theorem test_barriers :
    (let t := after (.boarr bare 20 1) (sObj 0x43 0); (t.me.sabs 20, t.me.binding, (objOf t 0x43).gen, (objOf t 0x43).arrived) = (4, some (0x43, 4), 5, 0)) ∧
    (let t := after (.boarr bare 20 1) (sObj 0x41 0); ((objOf t 0x41).gen, (objOf t 0x41).arrived) = (4, 1)) ∧
    (after (.bowait bare 1 2) (sObj 0x41 4)).me.wait = { code := 9, cond := .barrier 0x41 4 } ∧ (after (.bowait bare 1 2) (sObj 0x41 3)).me.pc = 0x1004 ∧
    [after (.boarr bare 20 1) (sObj 0x42 0), after (.boarr bare 20 1) (sObj 0x40 0), after (.boarr bare 20 1) (sObj 0x1000 0), after (.boinit bare 1 2) (sObj 0x43 1)].map
      (fun t => (t.me.tcause, t.me.tval)) = [(0x11, 2), (0x11, 3), (0x11, 4), (0x11, 5)] ∧
    (objOf (after (.boinit bare 1 2) (sObj 0x40 6)) 0x40).expect = 6 := by
  decide +kernel

/-- The premises of EngineCommands: each command on ranges and tiles that R230 and R231 accept. -/
theorem test_meets_engines :
    Fit sU [(bare, opEng bare 0x2F 0 9 10 11), (bare, opEng bare 0x2F 4 12 10 13), (bare, opEng bare 0x2F 6 1 14 11), (bare, opEng bare 0x31 0 16 17 15),
      (bare, opEng bare 0x2F 5 9 18 11)] ∧
    (let ok := fun (op : CmdOp) (c : EngChk) => c.reason = none ∧ (∀ p ∈ c.align, p.2.toNat % p.1 = 0) ∧ c.rngs.findSome? (sU.badRng 0 1) = none ∧
      c.rngs.findSome? (sU.ownRng 0 op.eng) = none ∧ (sU.core 0).queued op.eng < queueCap op.eng
     let h : Dword := 0x0FFFF00000000000
     -- CPY.G2S, CPY.S2S, GTHR, FSEND, MMA.BF16
     ok .g2s { reason := firstOf (shapeReasons h), align := [(16, 0x5000), (16, 0x10000)], rngs := [.sp 0x5000 (shRows h) (shDstr h) (shLen h) .dst, .va 0x10000 (shRows h) (shSstr h) (shLen h)] ++ syncRng (csaCore 0x5000) h } ∧
     ok .s2s { reason := firstOf (shapeReasons h), align := [(16, 0x5000), (16, 0x6000)], rngs := [.sp 0x5000 0 0 16 .dst, .sp 0x6000 0 0 16 .src] } ∧
     ok .gthr { reason := none, align := [(16, 0x7000), (16, 0x10000)], rngs := [.sp 0x7000 0 0 16 .dst, .va 0x10000 0 0 16, .own (4 * 0x1C00) 4] } ∧
     ok .fsend { reason := firstOf [(dbits (3 : Dword) 63 44 != 0, (3, 3)), (dbits h 63 60 != 0 || dbits h 43 0 != 0, (3, h))], align := [(64, 0x8000)], rngs := [.sp 0x8000 0 0 64 .src] } ∧
     ok (.mma .bf16) { matChk .bf16 64 1 [] 0x10000 0x14000 0x16000 0 with rngs := [.sp 0x10000 0 0 16384 .src, .sp 0x14000 0 0 8192 .src, .sp 0x16000 0 0 16384 .dst, .sp (2 ^ 19 + 0x16000) 0 0 16384 .dst] }) ∧
    -- and those it refuses: reserved bits, alignment, a range outside, tiles not its own, a full queue
    (shapeReasons 0x1000000000000000).any (·.1) = true ∧ ((20 : Dword).toNat % 16 ≠ 0) ∧ sU.badRng 0 1 (.sp 0xB000 0 0 16 .dst) = some 0xB000 ∧
    sU.ownRng 0 .copy (.sp 0x1000 0 0 16 .dst) = some 0x1000 ∧
    queueCap .copy ≤ Core.queued (State.core (ctr 0 fun k => { k with cmds := List.replicate 32 {
      id := 0, gid := 0, ctx := 1, batch := 0, op := .g2s, a := 0, b := 0, e := 0, landed := [], tiles := [], status := 0, ended := false, debited := false, clamped := false, phase := 0
      msg := [], held := 0, work := none } }) 0) .copy ∧
    -- a group behind an acquire, one with a flush, and one with neither
    ((sO acq).me.orderWait = true ∧ (sO flu).me.orderWait = false ∧ (sO flu).me.sendsHome = true ∧ sU.me.orderWait = false ∧ sU.me.sendsHome = false) :=
  ⟨fit_of _ _ (by decide +kernel), by decide +kernel⟩

/-- R229, R230, R241, R385: a command waits in its queue and joins the batch; ENGINE with its reason; MEMFAULT; TILEOWN. -/
theorem test_engines :
    (let t := after (.cpyG2s bare 9 10 11) sU; (((t.core 0).cmds.map fun c => (c.op, c.a, c.b, c.tiles)), t.me.batches.map (·.count)) = ([(.g2s, 0x5000, 0x10000, [5])], [1])) ∧
    (let t := after (.mma bare .bf16 15 16 17) sU; ((t.core 0).cmds.map fun c => c.tiles.length) = [14]) ∧
    (let t := after (.cpyG2s bare 9 10 3) sU; (t.me.tcause, t.me.tval, t.me.lastErr) = (0x10, 0xFFFFFFFFFFFFFFFF, 3)) ∧
    (let t := after (.cpyG2s bare 20 10 11) sU; (t.me.tcause, t.me.tval) = (7, 0x1000)) ∧
    (let t := after (.cpyG2s bare 22 10 11) sU; (t.me.tcause, t.me.tval) = (5, 0x10000000100)) := by
  decide +kernel

/-- The premises of TileOwnership: two tiles of THREAD given and taken, one that is not, an address outside the tiles. -/
theorem test_meets_tiles :
    Fit sU [(bare, opEng bare 0x30 0 20 1 2), (bare, opStop (wordR bare 0x30 1 20 1 0) [⟨.a, .s, .rd, 20⟩, ⟨.b, .s, .rd, 1⟩] (some 6)),
      (bare, opStop (wordR bare 0x30 2 21 20 0) [⟨.a, .s, .wr, 21⟩, ⟨.b, .s, .rd, 20⟩] (some 6))] ∧ Ready sU ∧
    TileRun sU 0x1000 2 0 1 ∧ TileRun sU 0x5000 1 0 5 ∧ Plain (sF (fl .store (2 ^ 52 + 0x100) 4 [])) ∧ (∀ i < 2, (sU.tile 0 (1 + i)).owner = 0) ∧ sU.tilesTouched 0 1 2 = false ∧ sU.tilesBusy 0 5 1 = false ∧
    (sU.me.toReport fun q => q.tiles.any (([0].map fun i => 0 * 128 + 5 + i).contains)) = none ∧ (sU.tile 0 5).owner ≠ 0 ∧
    sU.badRng 0 1 (.sp 0xB000 0 0 4096 .sync) = some 0xB000 ∧ sU.spadGood 0 0x1000 = true ∧ sU.spadGood 0 0xB000 = false ∧
    ((sO acq).me.orderWait = true ∧ (sO acq).me.wait.cond = .ready ∧ sU.me.orderWait = false) ∧
    (sF (fl .store (2 ^ 52 + 0x100) 4 [])).tilesTouched 0 0 1 = true :=
  ⟨fit_of _ _ (by decide +kernel), ready_sU, ⟨by decide, rfl, by decide +kernel, rfl, rfl⟩, ⟨by decide, rfl, by decide +kernel, rfl, rfl⟩,
    plain_of (by decide +kernel), by decide +kernel⟩

/-- R466, R469, R472: owner states 9 and back to 0; TILEOWN at a tile that is not THREAD; ENGINE 5 for a count of 0. -/
theorem test_tiles :
    (let t := after (.tgive (imm 0) 20 2 9) sU; ((t.tile 0 1).owner, (t.tile 0 3).owner, (t.tile 0 4).owner) = (9, 9, 0)) ∧
    (let t := after (.ttake bare 9 19) { sU with groups := [(0, { gU with sregs := [(9, 0x5000), (19, 1)] })] }; ((t.tile 0 5).owner, (t.tile 0 6).owner) = (0, 9)) ∧
    (after (.tchk bare 10 9) sU).me.sabs 10 = 9 ∧ (let t := after (.tgive (imm 0) 9 2 9) sU; (t.me.tcause, t.me.tval) = (7, 0x5000)) ∧
    (let t := after (.tgive (imm 0) 20 5 9) sU; (t.me.tcause, t.me.tval, t.me.lastErr) = (0x10, 0, 5)) := by
  decide +kernel

/-- An open batch with a command outstanding, one that has retired with status 4, and none. -/
def bat (n left status : Nat) (closed retired : Bool) : Batch :=
  { num := n, count := 1, left := left, arrive := none, status := status, closed := closed, retired := retired, reported := false, tiles := [] }
def sBat (l : List Batch) (n : Nat) (v : Dword) : State := { sU with groups := [(0, { gU with batches := l, batchNum := n, sregs := [(1, v)] })] }

theorem test_meets_batches :
    Fit (sBat [bat 3 1 0 false false] 3 0) [(bare, opStop (wordR bare 0x33 0 20 1 0) [⟨.d, .s, .wr, 20⟩, ⟨.a, .s, .rd, 1⟩] (some 6)),
      (bare, opStop (wordR bare 0x33 1 20 1 0) [⟨.d, .s, .wr, 20⟩, ⟨.a, .s, .rd, 1⟩] (some 6)), (bare, opStop (wordR bare 0x33 2 20 0 0) [⟨.d, .s, .wr, 20⟩] (some 10))] ∧
    Ready (sBat [] 3 3) ∧
    (closedBatch (sBat [bat 3 1 0 false false] 3 0).me 0).left ≠ 0 ∧ dbits (0 : Dword) 63 13 = 0 ∧ (sBat [bat 3 1 0 false false] 3 0).me.openBatches < 8 ∧
    ((closedBatch (sBat [] 3 0).me 0).left = 0 ∧ (closedBatch (sBat [] 3 0).me 0).arrive = none) ∧
    ((closedBatch sU.me 0x1041).arrive = some 0x41 ∧ (sU.obj 1 0x41).held = true ∧ (sU.obj 1 0x41).ctx = sU.me.ctx) ∧
    ((closedBatch sU.me 0x1040).arrive = some 0x40 ∧ (sU.obj 1 0x40).held = false ∧ sU.objAway 1 0x40 1 = false) ∧
    8 ≤ (sBat ((List.range 8).map fun i => bat i 1 0 true false) 8 0).me.openBatches ∧ dbits (0x2000 : Dword) 63 13 ≠ 0 ∧
    -- MBWAIT: batch 2 outstanding, retired, retired with a status to report
    (let u := sBat [bat 2 1 0 true false] 3 2; ¬ ∀ b ∈ u.me.batches, u.me.covers 2 b = true → b.retired = true) ∧
    (let u := sBat [] 3 2; (∀ b ∈ u.me.batches, u.me.covers 2 b = true → b.retired = true) ∧ u.me.toReport (u.me.covers 2) = none) ∧
    (let u := sBat [bat 2 0 4 true true] 3 2; (∀ b ∈ u.me.batches, u.me.covers 2 b = true → b.retired = true) ∧ u.me.toReport (u.me.covers 2) = some (bat 2 0 4 true true)) :=
  ⟨fit_of _ _ (by decide +kernel), ready_of (by decide +kernel), by decide +kernel⟩

/-- R241 to R245: numbers, retirement, reasons 7 and 8, the reported status. -/
theorem test_batches :
    (let t := after (.mbatch bare 20 1) (sBat [bat 3 1 0 false false] 3 0); (t.me.sabs 20, t.me.batchNum, t.me.batches.map (·.closed)) = (3, 4, [true])) ∧
    (let t := after (.mbatch bare 20 1) (sBat [] 3 0x1041); ((t.obj 1 0x41).arrived, t.me.batches) = (1, [])) ∧
    (after (.mbwait bare 20 1) (sBat [bat 2 1 0 true false] 3 2)).me.wait = { code := 14, cond := .batches 2 } ∧ (after (.mbwait bare 20 1) (sBat [] 3 2)).me.pc = 0x1004 ∧
    [after (.mbwait bare 20 1) (sBat [bat 2 0 4 true true] 3 2), after (.mbwait bare 20 1) (sBat [] 3 3), after (.mbatch bare 20 1) (sBat [] 3 0x2000)].map
      (fun t => (t.me.tcause, t.me.tval)) = [(0x10, 0x40002), (0x10, 3), (0x10, 0x2000)] := by
  decide +kernel

/-- Bins: an open one with 29 or 30 arguments. -/
def bin0 (n : Nat) : Bin := { ctx := 1, entry := 0x1000, args := List.replicate n 9, cfg := 0, start := 0, closing := 0, index := 0 }

theorem test_meets_bins :
    Fit sU [(bare, opStop (wordR bare 0x34 0 0 20 1) [⟨.a, .s, .rd, 20⟩, ⟨.b, .v, .rd, 1⟩] (some 5)), (bare, opStop (wordR bare 0x34 1 0 20 2) [⟨.a, .s, .rd, 20⟩, ⟨.b, .s, .rd, 2⟩] (some 5)),
      (bare, opStop (wordR bare 0x34 2 0 0 0) [] (some 5)), (bare, opStop (wordR bare 0x34 3 0 19 0) [⟨.a, .s, .rd, 19⟩] (some 5))] ∧ Ready sU ∧ Canonical sU ∧
    ((sU.core 0).cfgOf 1 0x1000).isSome = true ∧ (sU.core 0).cfgOf 1 0x5000 = none ∧ canonical 0x1000 = true ∧ (0x1005 : Dword).toNat % 4 ≠ 0 ∧ sU.me.act ≠ 0 ∧
    (sU.core 0).buffer.length < 4 ∧ (sU.core 0).binOf 1 0x1000 = none ∧ (sU.core 0).freeBin = some 0 ∧ (spawnArgs bare 1 sU).length < 32 ∧
    (let u := ctr 0 fun k => { k with bins := [bin0 29] }
     (u.core 0).binOf 1 0x1000 = some (bin0 29) ∧ (∀ p ∈ (u.core 0).bins, p.index = 0 → p = bin0 29) ∧ (bin0 29).args.length + 2 < 32) ∧
    (let u := ctr 0 fun k => { k with bins := [bin0 30] }
     (u.core 0).binOf 1 0x1000 = some (bin0 30) ∧ (u.core 0).bins.Nodup ∧ (∀ p ∈ (u.core 0).bins, p.closing = 0) ∧ (bin0 30).args.length + 2 = 32) ∧
    (let u := ctr 0 fun k => { k with binCfg := (List.range 16).map fun i => (1, BitVec.ofNat 64 (4 * i), 1) }
     (u.core 0).cfgOf 1 0x1000 = none ∧ 16 ≤ ((u.core 0).binCfg.filter (·.1 == 1)).length) ∧
    badBinCfg 0xFFFFFFFFFFFFFFFF = true ∧ badBinCfg 0x1000000000000 = false ∧ (∀ q ∈ (sU.core 0).bins, q.ctx ≠ 1) ∧
    (∀ l, sU.me.wait.cond ≠ .flush l) ∧
    (let u := ctr 0 fun k => { k with bins := [bin0 3] }; (u.core 0).bins = [bin0 3] ∧ (bin0 3).ctx = 1 ∧ (bin0 3).closing = 0) := by
  have wait : ∀ l, sU.me.wait.cond ≠ .flush l := by intro l h; cases h
  refine ⟨fit_of _ _ (by decide +kernel), ready_sU, canonical_of (by decide +kernel), ?_⟩
  simp only [wait, ne_eq, not_false_eq_true, implies_true, true_and]
  decide +kernel

/-- R67, R368, R370: SPAWN opens a bin, fills one to its launch buffer, faults without a configuration; BINCFG; BINFLUSH. -/
theorem test_bins :
    (let t := after (.spawn bare 20 1) sU; (t.core 0).bins.map (fun b => (b.entry, b.args, b.index)) = [(0x1000, [0, 1], 0)]) ∧
    (let t := after (.spawn bare 20 1) (ctr 0 fun k => { k with bins := [bin0 30] })
     (t.core 0).bins = [] ∧ (t.core 0).buffer.map (fun b => (b.args.length, b.closing)) = [(32, 1)]) ∧
    (let t := after (.spawn bare 9 1) sU; (t.me.tcause, t.me.tval) = (0x11, 0x5000)) ∧
    (let t := after (.bincfg bare 9 3) sU; (t.me.tcause, t.me.tval) = (0x11, 8)) ∧ ((after (.bincfg bare 20 5) sU).core 0).binCfg = [] ∧
    ((after (.binflush bare) (ctr 0 fun k => { k with bins := [bin0 3] })).core 0).buffer.length = 1 := by
  decide +kernel

/-- Deques: core 0's is held by context 1, core 1's by context 2; the group has been answered with an entry, or with none. -/
theorem test_meets_deques :
    Fit sU [(bare, opStop (wordR bare 0x35 0 20 0 1) [⟨.d, .s, .wr, 20⟩, ⟨.b, .s, .rd, 1⟩] (some 4)), (bare, opStop (wordR bare 0x35 1 20 0 0) [⟨.d, .t, .wr, 20⟩] (some 4)),
      (bare, opStop (wordR bare 0x35 2 20 1 0) [⟨.d, .t, .wr, 20⟩, ⟨.a, .s, .rd, 1⟩] (some 4)), (bare, opStop (wordR bare 0x35 3 20 1 0) [⟨.d, .s, .wr, 20⟩, ⟨.a, .s, .rd, 1⟩] (some 4))] ∧
    Ready sU ∧ Fresh sU ∧ (sU.core 0).dqHolder = some 1 ∧ sU.dqWaits = false ∧ sU.me.flights = [] ∧ (sU.core 1).dqHolder = some 2 ∧ (768 : Nat) > 767 ∧
    (Plain (wait (.handed 5 0)) ∧ (wait (.handed 5 0)).me.wait.cond = .handed 5 0) ∧ Clean sU ∧
    (let u := ctr 0 fun k => { k with dqHolder := some 2 }; Ready u ∧ (u.core 0).dqHolder = some 2) :=
  ⟨fit_of _ _ (by decide +kernel), ready_sU, fresh_of (by decide +kernel), by decide +kernel, by decide +kernel, by decide +kernel, by decide +kernel, by decide,
    ⟨plain_of (by decide +kernel), by decide +kernel⟩, clean_of rfl, ready_of (by decide +kernel), by decide +kernel⟩

/-- R72, R73, R390 to R392: requests wait with reason 13, the service answers, DQLEN counts, a foreign deque is QUEUE 1. -/
theorem test_deques :
    (after (.dqpop bare 20) sU).me.wait = { code := 13, cond := .deque } ∧ (after (.dqlen bare 20 28) sU).me.sabs 20 = 2 ∧
    (let t := after (.dqpop bare 20) (after (.dequeService 0) (after (.dqpop bare 20) sU)); (t.me.sabs 20, t.me.sabs 21, (t.core 0).deque) = (6, 0, [5])) ∧
    (let t := after (.dqpush bare 20 1) (ctr 0 fun k => { k with dqHolder := some 2 }); (t.me.tcause, t.me.tval) = (0x11, 1)) ∧
    (let t := after (.dqsteal bare 20 9) sU; (t.me.tcause, t.me.tval) = (0x11, 11)) := by
  decide +kernel

/-- The page at 0x10000 again, now in tables at 0x400000, with a queue's header there, its ring at 0x10040 with one entry, a communicator of one
rank at 0x10080, and a launch record at 0x10200. The page tables' line is in L3. -/
def sQ : State :=
  { sU with
    groups := [(0, { gU with sregs := [(1, 0x4000010), (2, 0x77), (3, 0x10200), (9, 0x9000), (18, 0xA000), (11, 0x0FFFF00000000000), (24, 0x10000000300), (25, 0x10000000400)] })]
    ctxs := [(1, { Ctx.none with used := true, tvec := 0x2000, spapb := 0x10000000000, tenant := 1, ptroot := 0x400000, commp := 0x10080, scount := 768 })]
    hub := { Hub.reset with window := [(1, 2), (2, 2)], slices := [(32, { Slice.reset with lines := [0x2000] })] }
    mem := [(0x200000, 1), (0x200002, 0x51), (0x200003, 0x5A), (0x200004, 1), (0x200008, 0x40), (0x20000A, 1), (0x200018, 1), (0x200020, 1), (0x200040, 0x55),
      (0x200080, 1), (0x200088, 0xC0), (0x20008A, 1), (0x200242, 1), (0x200250, 2), (0x200255, 1), (0x200258, 32), (0x20025A, 16), (0x200262, 1), (0x200280, 32),
      (0x200290, 1), (0x200294, 1), (0x200295, 1)] ++ (List.range 8).map (fun i => (0x200300 + i, 0xFF)) ++
      [(0x400000, 1), (0x400002, 0x40), (0x400007, 0xC0), (0x400008, 1), (0x400009, 0x0E), (0x40000A, 0x20)] ++ sU.mem }

/-- The header as the device reads it. -/
def hdr0 : QHdr := { id := 0x4000010, loc := 0x200000, logn := 1, e64 := false, fabric := false, peer := 0, ring := 0x10040, head := 0, tail := 1, free := 1, inflight := 0 }

/-- The header and the places of a put or get, as a test. -/
def asksB (u : State) (v va : Dword) (h : QHdr) (put : Bool) (ls : List Nat) : Bool :=
  (match queueHeader v 2 u with
    | .inr p => decide (p = (h, u))
    | .inl _ => false) &&
  (match queuePlaces ((if h.e64 then [((if put then Acc.r else Acc.w), true, 64, va)] else []) ++
      [((if put then Acc.w else Acc.r), false, h.size, h.slot (if put then h.tail else h.head))]) u with
    | .inr p => decide (p = (ls, u))
    | .inl _ => false)

/-- A queue found open, as a test. -/
def queueOpenB (u : State) (v va : Dword) (h : QHdr) (put : Bool) (ls : List Nat) : Bool :=
  decide (u.me.wait.cond = .ready) && decide (u.cur < 18432) && u.myReq.isNone && asksB u v va h put ls && (!h.e64 || decide (va.toNat % 64 = 0)) &&
  decide (u.hub.queueReqs = []) && decide (u.me.flights = []) && decide (u.clusters = []) && u.mem.wf && decide (u.hub.marks = []) &&
  decide (u.hub.l3marks = []) && decide (u.hub.poison = [])

theorem queueOpen_of {u : State} {v va : Dword} {h : QHdr} {put : Bool} {ls : List Nat} (hb : queueOpenB u v va h put ls = true) : QueueOpen u v va h put ls := by
  simp only [queueOpenB, Bool.and_eq_true, Option.isNone_iff_eq_none, decide_eq_true_eq, Bool.or_eq_true, Bool.not_eq_true'] at hb
  have asks : asksB u v va h put ls = true := by simp only [hb]
  simp only [asksB, Bool.and_eq_true] at asks
  have ready : u.me.wait.cond = .ready := by simp only [hb]
  constructor
  case header =>
    have p := asks.1
    split at p
    · next q hq => rw [hq, of_decide_eq_true p]
    · cases p
  case places =>
    have p := asks.2
    split at p
    · next q hq => rw [hq, of_decide_eq_true p]
    · cases p
  case fresh => simp [ready]
  case fault => simp [ready]
  case clean => exact clean_of (by simp only [hb])
  case sound => constructor <;> simp only [hb]
  case alone => simp [hb]
  case aligned => intro w; have := hb.1.1.1.1.1.1.1.2; simpa [w] using this
  all_goals simp only [hb]

/-- The queue with its slots all filled, and with none. -/
def sQfull : State := { sQ with mem := sQ.mem.filterMap fun e => if e.1 = 0x200018 then some (e.1, 2) else if e.1 = 0x200020 then none else some e }
def sQnone : State := { sQ with mem := sQ.mem.filterMap fun e => if e.1 = 0x200018 then none else if e.1 = 0x200020 then some (e.1, 2) else some e }

/-- The queue's group as its queue's home has served it: with a value, or with an exhausted budget. -/
def served (n : Nat) : State := { sQ with groups := sQ.groups.map fun e => (e.1, { e.2 with wait := { code := 12, cond := .handed 5 n } }) }

/-- Queues: a put and a get that go through, with the home's own access; a full queue, an empty one; a group served; an ID of another context. -/
theorem test_meets_queues :
    Fit sQ [(bare, opStop (wordR bare 0x36 0 0 1 2) [⟨.a, .s, .rd, 1⟩, ⟨.b, .s, .rd, 2⟩] (some 3)), (bare, opStop (wordR bare 0x36 1 20 1 2) [⟨.d, .s, .wr, 20⟩, ⟨.a, .s, .rd, 1⟩, ⟨.b, .s, .rd, 2⟩] (some 3)),
      (bare, opStop (wordR bare 0x36 2 20 1 0) [⟨.d, .s, .wr, 20⟩, ⟨.a, .s, .rd, 1⟩] (some 3)),
      (bare, opStop (wordR bare 0x36 4 20 1 2) [⟨.d, .t, .wr, 20⟩, ⟨.a, .s, .rd, 1⟩, ⟨.b, .s, .rd, 2⟩] (some 3))] ∧
    (∀ p ∈ [(sQ, hdr0, true, 0x200048), (sQ, hdr0, false, 0x200040), (sQfull, { hdr0 with tail := 2, free := 0 }, true, 0x200040),
        (sQnone, { hdr0 with tail := 0, free := 2 }, false, 0x200040)], QueueOpen (atBody bare p.1) 0x4000010 0x77 p.2.1 p.2.2.1 [p.2.2.2]) ∧
    (let r : QueueReq := { queue := 0x4000010, gid := 0, put := true, entry := leBytes 8 0x77, dest := 0 }
     let v := atBody bare sQ
     let w := asked v.releaseWide r
     (v.me = v.me ∧ Clean v ∧ v.hub.queueReqs = sQ.hub.queueReqs ∧ Sound v ∧ v.mem.wf = true) ∧
     w.findQueue 0x4000010 = (.ok hdr0, w) ∧ 0 < hdr0.free ∧ w.devSpot 1 0x10048 .w = (.loc 0x200048 0 false, w)) ∧
    (let r : QueueReq := { queue := 0x4000010, gid := 0, put := false, entry := [], dest := 0x77 }
     let w := asked (atBody bare sQ) r
     w.findQueue 0x4000010 = (.ok hdr0, w) ∧ hdr0.filled ≠ 0 ∧ w.getDest hdr0 r = (.inl none, w) ∧ w.devSpot 1 0x10040 .r = (.loc 0x200040 0 false, w)) ∧
    Ready sQ ∧ (Plain (served 0) ∧ (served 0).myReq = none ∧ (served 0).me.wait.cond = .handed 5 0) ∧ (Ready (served 1) ∧ (served 1).me.wait.cond = .handed 5 1) ∧
    sQ.me.live ≠ 0 ∧ sQ.myReq = none ∧ Fresh sQ ∧ (2 ^ 32 ≤ (0x100000000 : Nat) ∧ 0x8000010 / 2 ^ 26 % 64 ≠ sQ.me.ctx) :=
  have opens : ∀ p ∈ [(sQ, hdr0, true, 0x200048), (sQ, hdr0, false, 0x200040), (sQfull, { hdr0 with tail := 2, free := 0 }, true, 0x200040),
      (sQnone, { hdr0 with tail := 0, free := 2 }, false, 0x200040)], queueOpenB (atBody bare p.1) 0x4000010 0x77 p.2.1 p.2.2.1 [p.2.2.2] = true := by decide +kernel
  ⟨fit_of _ _ (by decide +kernel), fun p h => queueOpen_of (opens p h),
    ⟨⟨rfl, clean_of rfl, rfl, ⟨rfl, rfl, rfl⟩, by decide +kernel⟩, by decide +kernel⟩, by decide +kernel, ready_of (by decide +kernel),
    ⟨plain_of (by decide +kernel), by decide +kernel⟩, ⟨ready_of (by decide +kernel), by decide +kernel⟩, by decide +kernel, by decide +kernel,
    fresh_of (by decide +kernel), by decide +kernel⟩

/-- R74, R434 to R437: the entry goes to the slot of TAIL; HEAD's entry comes out; a full queue waits with reason 12, QTRYPUT answers 1; QUEUE 12. -/
theorem test_queues :
    (let t := after (.qput bare 1 2) sQ; (Memory.le t.mem 0x200048 8, Memory.le t.mem 0x200018 8, Memory.le t.mem 0x200020 4) = (0x77, 2, 0)) ∧
    (let t := after (.qget bare 20 1 2) sQ; (t.me.sabs 20, Memory.le t.mem 0x200010 8, Memory.le t.mem 0x200020 4) = (0x55, 1, 2)) ∧
    (after (.qfree bare 20 1) sQ).me.sabs 20 = 1 ∧ (after (.qput bare 1 2) sQfull).me.wait = { code := 12, cond := .queue } ∧
    (after (.qtryput bare 20 1 2) sQfull).me.sabs 20 = 1 ∧ ((after (.qtryget bare 20 1 2) sQnone).me.sabs 21, (after (.qtryget bare 20 1 2) sQ).me.sabs 20) = (1, 0x55) ∧
    (let t := after (.qput bare 2 2) sQ; (t.me.tcause, t.me.tval) = (0x11, 12)) := by
  decide +kernel

/-- COLL on a communicator of the one rank 0 of device 0, and LAUNCH of the record. -/
theorem test_meets_coll_launch :
    Fit sQ [(bare, opEng bare 0x2F 5 9 18 11), (bare, opStop (wordR bare 0x34 3 0 3 0) [⟨.a, .s, .rd, 3⟩] (some 5))] ∧
    (let u := atBody bare sQ
     u.comm 1 (.engine 0) (dbits (0x0FFFF00000000000 : Dword) 43 32) = (.inr { entry := [1, 0, 0x100C0, 0], ranks := [(0, 0)] }, u) ∧
     ([(0, 0)].filter (· == (sQ.hub.device.toNat, 0))).length = 1 ∧ [Rng.sp 0x9000 0 0 16 .dst, .sp 0xA000 0 0 16 .src].findSome? (sQ.badRng 0 1) = none ∧
     [Rng.sp 0x9000 0 0 16 .dst, .sp 0xA000 0 0 16 .src].findSome? (sQ.ownRng 0 .collective) = none ∧ (sQ.core 0).queued .collective < 32) ∧
    (let u := atBody bare sQ
     u.spot 0 0x10200 .r false = (.loc 0x200240 0 false, u) ∧ sQ.admitted < 256 ∧ sQ.me.flights = [] ∧
     (match homeDws u.releaseWide 0x200240 0x10200 32 with
       | .inr (b, v) => decide (v.me = u.me ∧ v.recReason 1 b = 0 ∧ fieldAt b 0xC0 4 = 0xFFFFFFFF ∧ fieldAt b 0xC4 4 = 0xFFFFFFFF)
       | .inl _ => false) = true) ∧ Clean sQ ∧ Sound sQ ∧
    -- a communicator number whose exchange has failed
    (sQ.me.orderWait = false ∧ sQ.me.sendsHome = false ∧ (sQ.ctx 1).used = true ∧ (sQ.ctx 1).collBad.contains (dbits (0x0FFFF00000000000 : Dword) 43 32, 0) = false ∧
      (let u : State := { sQ with ctxs := [(1, { sQ.ctx 1 with collBad := [(dbits (0x0FFFF00000000000 : Dword) 43 32, 0)] })] }
       (u.ctx 1).collBad.contains (dbits (0x0FFFF00000000000 : Dword) 43 32, 0) = true ∧ ∀ q ∈ (u.core 0).cmds, q.id ≠ (u.core 0).nextCmd)) :=
  ⟨fit_of _ _ (by decide +kernel), by decide +kernel, by decide +kernel, clean_of rfl, ⟨rfl, rfl, rfl⟩, by decide +kernel⟩

theorem test_coll_launch :
    ((after (.coll bare 9 18 11) sQ).core 0).cmds.map (fun c => (c.op, c.landed, c.tiles)) = [(.coll, [0], [9, 10])] ∧
    (after (.launch bare 3) sQ).hub.launches.map (fun l => (l.1, l.2.stage, l.2.entry, l.2.vregs, l.2.levels.length)) = [(0, 2, 0x10000, 32, 2)] ∧
    (let t := after (.launch bare 2) sQ; (t.me.tcause, t.me.tval) = (4, 0x77)) := by
  decide +kernel

/-- What a read of doublewords gives, as a test. -/
def readsB (u : State) (va : Dword) (n : Nat) (p : List Byte → Bool) : Bool :=
  match readDws u va n with
  | .inr (b, v) => decide (v = u) && p b
  | .inl _ => false

theorem reads_of {u : State} {va : Dword} {n : Nat} {p : List Byte → Bool} (h : readsB u va n p = true) :
    ∃ b, readDws u va n = .inr (b, u) ∧ p b = true := by
  unfold readsB at h
  split at h
  · next b v e => simp only [Bool.and_eq_true, decide_eq_true_eq] at h; exact ⟨b, by rw [e, h.1], h.2⟩
  · cases h

/-- TBSET from the descriptors at 0x100 (good) and 0x200 (CLASS 3), DMBOX from those at 0x300 (KIND 2, core 5) and 0x400 (KIND 3). -/
theorem test_meets_bounds :
    Fit sU [(bare, opStop (wordR bare 0x37 0 2 22 0) [⟨.d, .bd, .wr, 2⟩, ⟨.a, .s, .rd, 22⟩] (some 1)), (bare, opStop (wordR bare 0x37 1 2 0 0) [⟨.d, .bd, .wr, 2⟩] (some 1)),
      (bare, opStop (wordR bare 0x38 1 0 0 1) [⟨.b, .s, .rd, 1⟩] none), (bare, opStop (wordR bare 0x38 2 0 24 0) [⟨.a, .s, .rd, 24⟩] none)] ∧ Ready sU ∧ Canonical sU ∧ Clean sU ∧
    (∀ w, atBody bare sU = w → SameFor (atBody bare sU) w) ∧
    (let reads := fun va n (p : List Byte → Bool) => ∃ b, readDws (atBody bare sU) va n = .inr (b, atBody bare sU) ∧ p b = true
     reads 0x10000000100 4 (fun b => fieldAt b 0x1B 1 != 0 && !boundRefused b) ∧ reads 0x10000000200 4 (fun b => fieldAt b 0x1B 1 != 0 && boundRefused b) ∧
     reads 0x10000000500 4 (fun b => fieldAt b 0x1B 1 == 0) ∧ reads 0x10000000300 8 (fun b => fieldAt b 0 1 == 2 && fieldAt b 2 1 == 5) ∧
     reads 0x10000000400 8 (fun b => fieldAt b 0 1 == 3)) ∧
    (sU.tenant 1).debugRing.sen.getLsbD 0 = false ∧ (sU.ctx 1).encl = false ∧
    (let r : SRing := { SRing.reset with sbase := 0x20000, slog2 := 16, sen := 1 }
     r.swr.toNat + 64 - r.srd.toNat ≤ r.size ∧ r.lost = 0 ∧ r.size < ({ r with swr := 0x10000 } : SRing).swr.toNat + 64 - r.srd.toNat) := by
  refine ⟨fit_of _ _ (by decide +kernel), ready_sU, canonical_of (by decide +kernel), clean_of rfl, ?_, ⟨?_, ?_, ?_, ?_, ?_⟩, by decide +kernel⟩
  · rintro w rfl; constructor <;> rfl
  all_goals exact reads_of (by decide +kernel)

/-- R302, R303, R464, R388, R389, R443. -/
theorem test_bounds :
    (let b := vat ((after (.tbset bare 2 22) sU).ctx 1).bounds 2 Bound.clear; (b.base, b.limit, b.high, b.valid) = (0x2000, 0x4000, 9, true)) ∧
    (let t := after (.tbset bare 2 23) sU; (t.me.tcause, t.me.tval) = (9, 0x10000000200)) ∧ (after (.rmark bare 1) sU).me.pc = 0x1004 ∧
    ((after (.dmbox bare 24) sU).core 5).dbg.map (fun c => (c.ctx, c.host)) = [(1, false)] ∧ (let t := after (.dmbox bare 25) sU; (t.me.tcause, t.me.tval) = (0x11, 9)) := by
  decide +kernel

/-! ### Events of groups, cores and launches -/

/-- A launch of four crews of two groups of eight lanes each, of a core level and a die level; and one of its crews, in slots 0 and 1. -/
def la0 : Launch :=
  { ctx := 1, source := none, notify := false, record := 0, entry := 0x10000, argp := 0, cls := .p, runahead := false, recording := false, pevict := true, weight := 2
    prio := 0, vregs := 32, sregs := 16, spad := 8192, cfirst := 0, ccount := 4, boundp := 0, donep := 0
    levels := [{ extent := 8, domain := 0, scope := 0, nofence := false }, { extent := 2, domain := 1, scope := 1, nofence := false },
      { extent := 4, domain := 4, scope := 4, nofence := false }]
    inq := 0xFFFFFFFF, outq := 0xFFFFFFFF, stage := 2, status := 0, reason := 0, next := 1, evicted := [], dies := [], stuck := 0, reserved := 0, fresh := true
    ended := [], releases := [], retired := 0, held := 0, logNo := 0 }

def crew0 : Crew :=
  { ctx := 1, launch := some 0, unit := 0, scrw := 0, core := 0, tile := 0, tiles := 2, gids := [0, 1], vregs := 32, sregs := 16, cls := .p, runahead := false, weight := 2
    away := 0, slot := 0, first := 0 }

def queued : Wait := { code := 8, cond := .queue }

/-- Context 1 holds residency slot 1 of core 0; both groups are parked; its save area is mapped at 0x100000 to frame 3, by tables at 0x400000. -/
def sG : State :=
  { sM with
    groups := [(0, { gM with parked := 70000, wait := queued }), (1, { gM with parked := 80000, index := 1, wait := queued })]
    cores := [(0, { Core.idle with
      l1tlb := [page0], tiles := [(0, { held := true, crew := 0, ctx := 1, owner := 0 }), (1, { held := true, crew := 0, ctx := 1, owner := 9 })]
      resident := vset (Vector.replicate 4 none) 1 (some 1), sinceEvict := vset (Vector.replicate 4 0) 1 65536 })]
    clusters := []
    ctxs := [(1, { Ctx.none with used := true, tvec := 0x2000, spapb := 0x10000000000, tenant := 1, ptroot := 0x400000, saveb := 0x100000, evslots := 1 })]
    hub := { Hub.reset with
      launches := [(0, la0)], crews := [(0, crew0)], window := [(1, 2), (2, 2), (3, 2)], slices := [(32, { Slice.reset with lines := [0x2000] })] }
    mem := sM.mem.take 8 ++ [(0x400000, 1), (0x400002, 0x40), (0x400007, 0xC0), (0x400008, 1), (0x400009, 0x0E), (0x40000A, 0x20)] ++
      ((List.range 16).flatMap fun i => [(0x400080 + 8 * i, 1), (0x400080 + 8 * i + 1, 0x0E)] ++ [(0x400080 + 8 * i + 2, BitVec.ofNat 8 (0x60 + i))]) }

def onG (f : Group → Group) : State := { sG with groups := [(0, f gM), (1, gM)] }
def onK (f : Core → Core) : State := { sG with cores := sG.cores.map fun e => (e.1, f e.2) }
def withL (x : Launch) : State := { sG with hub := { sG.hub with launches := [(0, x)] } }

theorem sound_sG : Sound sG := ⟨rfl, rfl, rfl⟩
theorem clean_sG : Clean sG := clean_of rfl

/-- Group 0 in a run-ahead that awaits load 3, with these accesses outstanding there and at its checkpoint. -/
def ahead (l : List Flight) : State :=
  let u := onG fun g => { g with runAhead := some { bundles := 1, bad := [], badPreds := [], stopped := true, badEm := false, awaited := 3 }, flights := l }
  { u with checkpoints := [(0, { gM with flights := l })] }
def laneFl (id : Nat) : Flight := { fl .load 0x200040 4 [.s 3] with id := id, seq := 3 }

/-- The access that a run-ahead's end would land is lane 0, and it may land at the checkpoint. -/
def LandsFirst (v : State) (more : Bool) : Prop :=
  (v.grp 0).flights.find? (fun f => f.seq == 3 && v.mayPerform 0 f) = some (laneFl 0) ∧ (restored v 0).mayPerform 0 (laneFl 0) = true ∧
  ((restored v 0).grp 0).flights.find? (fun e => e.id == (laneFl 0).id && e.markerResult) = some (laneFl 0) ∧
  ((((restored v 0).perform 0 (laneFl 0)).grp 0).flights.any fun e => e.seq == 3) = more

/-- Run-ahead whose load is back, or lands with and without another access of it outstanding; a fetch; the chunk limit without and with a session. -/
theorem test_meets_group_events :
    ((ahead []).hub.doomed = [] ∧ ((ahead []).grp 0).runAhead.map (·.awaited) = some 3 ∧ ∀ f ∈ ((ahead []).grp 0).flights, f.seq ≠ 3) ∧
    LandsFirst (ahead [laneFl 0]) false ∧ LandsFirst (ahead [laneFl 0, laneFl 1]) true ∧
    (let s := onG fun g => { g with pc := 0x10040, wait := { code := 0, cond := .fetch } }
     let u := s.onGrp 0 fun x => { x with wait := Wait.none }
     Sound s ∧ HasWay s (cluOf (coreOf 0)) 0x200040 ∧ (s.grp 0).wait.cond = .fetch ∧ u.spot 0 (s.grp 0).pc .x false = (.loc 0x200040 0 false, u) ∧
     s.sector (cluOf (coreOf 0)) 0x200040 = Sector.empty) ∧
    (let s := { onG fun g => { g with chunk := { Chunk.new with count := 16384, live := true } } with
        tenants := [(1, { Tenant.reset with sessions := vset (Vector.replicate 4 Session.reset) 0 { Session.reset with lctl := 1 + 1024 } })] }
     (onG id).session? 1 = none ∧ ((onG id).grp 0).chunk.count < 16384 ∧
     s.session? 1 = some (1, 0) ∧ (s.sess 1 0).replay = false ∧ (s.sess 1 0).closing = false ∧ (s.grp 0).chunk.live = true) :=
  ⟨by decide +kernel, by unfold LandsFirst; decide +kernel, by unfold LandsFirst; decide +kernel, ⟨⟨rfl, rfl, rfl⟩, by unfold HasWay; decide +kernel, by decide +kernel⟩, by decide +kernel⟩

/-- A group that ends, first or last of its crew. -/
theorem test_meets_group_end :
    let s := onG fun g => { g with live := 0 }
    let t := { s with groups := [(0, { gM with live := 0 })], hub := { s.hub with crews := [(0, { crew0 with gids := [0] })] } }
    Canonical s ∧ Canonical t ∧ (s.grp 0).used = true ∧ (s.grp 0).live = 0 ∧ (s.grp 0).runAhead = none ∧ (s.grp 0).flights = [] ∧ (s.grp 0).binding = none ∧
    (s.grp 0).batches = [] ∧ s.session? (s.grp 0).ctx = none ∧ s.crew? (s.grp 0).crew = some crew0 ∧ (∃ h ∈ crew0.gids, h ≠ 0) ∧
    t.crew? (t.grp 0).crew = some { crew0 with gids := [0] } ∧ t.tilesBusy 0 0 2 = false ∧ (t.core 0).maps = [] ∧ t.launch? 0 = some la0 ∧
    (la0.levels.getD 1 { extent := 1, domain := 1, scope := 1, nofence := false }).nofence = false :=
  ⟨canonical_of (by decide +kernel), canonical_of (by decide +kernel), by decide +kernel⟩

/-- Releases of a core-level unit, and of the top level of launches without and with a completion word at 0x10040. -/
theorem test_meets_releases :
    let x := { la0 with releases := [(1, 0)] }
    let z := { la0 with releases := [(2, 0)], donep := 0x10040, outq := 4 }
    let y := { z with releases := z.releases.filter (· != (2, 0)), stage := 5, status := 1 }
    let v := ((withL z).setLaunch 0 { y with stage := 4 }).notify y
    Sound (withL z) ∧ (∀ k, (sG.cluster k).l2 = []) ∧
    ((withL x).mem.wf = true ∧ (withL x).launch? 0 = some x ∧ (1, 0) ∈ x.releases ∧ 1 + 1 < x.levels.length ∧ (withL x).unitBusy 0 1 0 = false ∧
     (x.levels.getD 2 { extent := 1, domain := 0, scope := 0, nofence := false }).nofence = false) ∧
    ((withL z).launch? 0 = some z ∧ (2, 0) ∈ z.releases ∧ z.levels.length = 2 + 1 ∧ (withL z).unitBusy 0 2 0 = false ∧ z.held = 0 ∧ z.status = 0 ∧ z.reason = 0 ∧
     (withL z).session? 1 = none ∧ isSpad 0x200040 = false ∧ v.devSpot 1 0x10040 .w = (.loc 0x200040 0 false, v)) :=
  ⟨⟨rfl, rfl, rfl⟩, fun _ => rfl, by decide +kernel⟩

/-- A turn that ends, with and without another ready context, and one whose holder has no ready group left; bins whose timers run or have run out; an
eviction, and none. -/
theorem test_meets_core_events :
    (let s := { onG id with groups := [(0, gM)] }
     (s.core 0).turnLeft = 0 ∧ (s.core 0).issuedNow 0 = false ∧ (s.core 0).issuedNow 1 = false ∧ vat (s.core 0).resident ((0 + 1) % 4) none = some 1 ∧
     s.readyIn 0 1 = true) ∧
    (let s := onK fun k => { k with turnLeft := 9, turn := 1 }
     (s.core 0).turnCtx = some 1 ∧ s.readyIn 0 1 = false ∧
       ∀ i < 4, vat (s.core 0).resident i none = none ∨ (vat (s.core 0).resident i none = some 1 ∧ s.readyIn 0 1 = false)) ∧
    (let b : Bin := { ctx := 1, entry := 0x1000, args := [1], cfg := 0, start := 4, closing := 0, index := 2 }
     let s := fun n => (onK fun k => { k with cycles := n, bins := [b], binCfg := [(1, 0x1000, 0x100000009)] })
     ((s 20).core 0).bins.find? (fun b => b.index == 2 && b.closing == 0) = some b ∧ dbits ((((s 20).core 0).cfgOf 1 0x1000).getD 0) 23 0 = 9 ∧
     9 ≤ ((s 20).core 0).cycles - b.start ∧ ((s 10).core 0).cycles - b.start < 9 ∧ [b].Nodup) ∧
    Canonical sG ∧
    (sM.evictee 0 = none ∧ sG.evictee 0 = some (0, crew0) ∧ sG.unitOf 0 crew0 = [(0, crew0)] ∧ (∀ g ∈ crew0.gids,
      g < 18432 ∧ (sG.grp g).used = true ∧ (sG.grp g).flights = [] ∧ (sG.grp g).runAhead = none ∧ (sG.grp g).chunk.count = 0) ∧ sG.cmdsHold crew0.gids = false ∧
     (sG.evictSlots 1).head? = some 0 ∧
     let v := crew0.gids.foldl (fun st g => st.onGrp g fun z => { z with leaving := true }) sG
     v.savePages 1 0 .w 16 = (.inr ((List.range 16).map fun i => rawOf .p 0x600000 (65536 * i)), v)) :=
  ⟨by decide +kernel, by decide +kernel, by decide +kernel, canonical_of (by decide +kernel), by decide +kernel⟩

/-- R27, R33, R49, R285, R398: the last group's end frees its tiles; a release counts. -/
theorem test_group_events :
    ((after (.groupEnd 0) { onG fun g => { g with live := 0 } with hub := { sG.hub with crews := [(0, { crew0 with gids := [0] })] } }).tile 0 1).held = false ∧
    ((after (.retirementReleaseDone 0 1 0) (withL { la0 with releases := [(1, 0)] })).launch? 0).map (·.retired) = some 1 := by
  decide +kernel

/-- sQ with tenant 1's queue 0 enabled, its ring at host address 0x20000, and one entry there: the record at 0x10200 of context 1 with these flags. -/
def sSub (flags : Nat) (last : Option Nat) : State :=
  { sQ with
    tenants := [(1, { Tenant.reset with queues := vset Tenant.reset.queues 0 { qbase := 0x20000, qctl := 1, qtail := 1, qhead := 0, last := last } })]
    hub := { sQ.hub with launches := [(7, la0)] }
    mem := sQ.mem.take (sQ.mem.length - sU.mem.length) ++ [(hostLoc 0x20001, 0x02), (hostLoc 0x20002, 0x01), (hostLoc 0x20008, 1)] ++
      (if flags = 0 then [] else [(hostLoc 0x2000A, BitVec.ofNat 8 flags)]) ++ sU.mem }

/-- A launch of one crew of two groups of eight lanes. -/
def la1 : Launch :=
  { la0 with
    levels := [{ extent := 8, domain := 0, scope := 0, nofence := false }, { extent := 2, domain := 1, scope := 1, nofence := false }], next := 0 }

def sQL (x : Launch) (u : State) : State := { u with hub := { u.hub with launches := [(0, x)] } }

/-- A queue's registers, a submission: admitted, held back, refused; inbound and outbound queues; bounds; a first placement. -/
theorem test_meets_launch_events :
    ((sSub 0 none).hub.doomed = [] ∧ dbits (2 : Dword) 14 0 < 2 ^ (dbits ((sSub 0 none).subq 1 0).qbase 3 0 + 4) ∧
     2 ^ (dbits ((sSub 0 none).subq 1 0).qbase 3 0 + 4) ≤ dbits (16 : Dword) 14 0 ∧ ((sSub 0 none).subq 1 0).qctl.getLsbD 0 = true ∧
     (sQ.subq 1 0).qctl.getLsbD 0 = false) ∧
    (let s := sSub 0 none
     let b := Memory.bytes s.mem (hostLoc 0x20000) 16
     s.fetchOrder = [(1, 0)] ∧ fieldAt b 8 2 = 1 ∧ fieldAt b 0x0A 2 = 0 ∧ fieldAt b 0 8 = 0x10200 ∧ fieldAt b 0x0C 4 = 0 ∧ (s.ctx 1).used = true ∧ (s.ctx 1).tenant = 1 ∧
     s.session? 1 = none ∧ s.devSpot 1 0x10200 .r = (.loc 0x200240 0 false, s) ∧
     (match s.unitRead 1 0x200240 0x10200 32 with
       | (some r, v) => decide (v = s ∧ s.recReason 1 r = 0 ∧ fieldAt r 0xC0 4 = 0xFFFFFFFF ∧ fieldAt r 0xC4 4 = 0xFFFFFFFF)
       | _ => false) = true) ∧
    (let s := sSub 1 (some 7)
     s.fetchOrder = [(1, 0)] ∧ fieldAt (Memory.bytes s.mem (hostLoc 0x20000) 16) 0x0A 2 % 2 = 1 ∧ (s.subq 1 0).last = some 7 ∧ (s.launch? 7).any (fun y => !y.finished) = true) ∧
    (let b := Memory.bytes (sSub 4 none).mem (hostLoc 0x20000) 16
     4 ≤ fieldAt b 0x0A 2) ∧
    -- the ring shrunk below TAIL, and the ring as it stands
    (let x := (sSub 0 none).subq 1 0
     (dbits x.qbase 3 0 < 12 ∧ dbits x.qtail 14 0 < 2 ^ (dbits x.qbase 3 0 + 4)) ∧ 2 ^ (dbits x.qbase 3 0 + 4) ≤ dbits (16 : Dword) 14 0) ∧
    (sSub 0 none).admitted < 256 := by
  decide +kernel

theorem queueHere_of {s : State} {id : Nat} {h : QHdr} (e : s.findQueue id = (.ok h, s) ∧ (isSpad h.loc = false ∧ isSpad (h.loc + 0x10) = false) ∧
    ∀ r ∈ s.hub.queueReqs, r.queue ≠ id) : QueueHere s id h := by
  constructor
  case alone => exact e.2.2
  all_goals simp only [e, and_self]

theorem test_meets_launch_queues :
    (let x := { la0 with stage := 0, inq := 0x4000010 }
     let s := sQL x sQ
     s.mem.wf = true ∧ s.launch? 0 = some x ∧ Calm s ∧ s.session? 1 = none ∧ QueueHere s x.inq.toNat hdr0 ∧ hdr0.filled ≠ 0) ∧
    (let s := sQL { la0 with stage := 0, inq := 0x4000010 } sQnone
     QueueHere s 0x4000010 { hdr0 with tail := 0, free := 2 } ∧ ({ hdr0 with tail := 0, free := 2 } : QHdr).filled = 0) ∧
    (let s := sQL { la0 with stage := 1, boundp := 0x10400 } sQ
     (s.ctx 1).used = true ∧ s.boundArray 1 0x10400 16 = (.inr (List.replicate 16 (List.replicate 32 0)), s)) ∧
    (let s := sQL { la0 with stage := 5, outq := 0x4000010 } sQ
     QueueHere s 0x4000010 hdr0 ∧ hdr0.free ≠ 0 ∧ s.devSpot 1 (hdr0.slot hdr0.tail) .w = (.loc 0x200048 0 false, s)) ∧
    QueueHere (sQL { la0 with stage := 5, outq := 0x4000010 } sQfull) 0x4000010 { hdr0 with tail := 2, free := 0 } := by
  refine ⟨⟨by decide +kernel, by decide +kernel, ⟨fun _ => rfl, rfl, rfl, rfl⟩, by decide +kernel, queueHere_of ?_, by decide +kernel⟩, ⟨queueHere_of ?_, by decide +kernel⟩,
    by decide +kernel, ⟨queueHere_of ?_, by decide +kernel⟩, queueHere_of ?_⟩ <;> decide +kernel

theorem test_meets_placement :
    (let x := la1
     let s := { State.reset with ctxs := sG.ctxs, hub := { Hub.reset with launches := [(0, x)] } }
     s.groups = [] ∧ s.cores = [] ∧ s.hub.crews = [] ∧ s.hub.launches = [(0, x)] ∧ x.stage = 2 ∧ x.levels.length = 2 ∧ (x.levels.map (·.domain)) = [0, 1] ∧
     1 ≤ x.groups ∧ x.groups ≤ 24 ∧ 0 < x.vregs ∧ x.groups * x.vregs ≤ 2048 ∧ x.groups * x.sregs ≤ 1024 ∧ x.extent 0 ≤ 32 ∧ x.spad / 4096 ≤ usable x.cls / 4096 ∧
     x.next = 0 ∧ x.evicted = [] ∧ x.dies = [] ∧ x.stuck = 0 ∧ x.reserved = 0 ∧ x.fresh = true ∧ 1 ≤ x.ccount ∧ x.cfirst + x.ccount ≤ 768 ∧
     s.session? x.ctx = none ∧ (s.ctx x.ctx).dequeBack = [] ∧ (s.ctx x.ctx).barsAway = [] ∧ (s.ctx x.ctx).mapsBack = []) := by
  decide +kernel

theorem test_meets_deque_service :
    let p : DqReq := { gid := 0, op := 1, val := 0, since := 0 }
    let r : DqReq := { gid := 30, op := 2, val := 0, since := 0 }
    let s := ctr 0 fun k => { k with dqReqs := [{ r with gid := 0 }] }
    let u := { ctr 0 fun k => { k with dqReqs := [p, r], deque := [9] } with groups := [(0, gU), (30, gU)] }
    Canonical s ∧ Canonical u ∧ ((s.core 0).dqReqs = [{ r with gid := 0 }] ∧ s.session? (s.grp 0).ctx = none ∧ (s.core 0).dqHolder = some (s.grp 0).ctx) ∧ (sM.core 0).dqHolder ≠ some 1 ∧
    ((u.core 0).dqReqs = [p, r] ∧ p.gid ≠ r.gid ∧ (u.core 0).deque = [9] ∧ u.session? (u.grp p.gid).ctx = none ∧ u.session? (u.grp r.gid).ctx = none ∧
     (u.core 0).dqHolder = some (u.grp r.gid).ctx) :=
  ⟨canonical_of (by decide +kernel), canonical_of (by decide +kernel), by decide +kernel⟩

/-- R51 to R55: a doorbell out of range, a submission; R61: the placed crew's groups. -/
theorem test_launch_events :
    ((after (.qtailDoorbell 1 0 16) (sSub 0 none)).subq 1 0).qhead.getLsbD 15 = true ∧
    ((after (.submissionEntryFetch false) (sSub 0 none)).hub.launches.map fun e => (e.1, e.2.entry)) = [(0, 0x10000), (7, 0x10000)] ∧
    (let s := { State.reset with ctxs := sG.ctxs, hub := { Hub.reset with launches := [(0, la1)] } }
     let t := after .placementPass s
     (t.groups.map fun e => (e.1, e.2.pc, e.2.index)) = [(0, 0x10000, 0), (12, 0x10000, 1)]) := by
  decide +kernel

/-! ### Engines and the fabric -/

def cmd0 (op : CmdOp) (a b e : Dword) : Cmd :=
  { id := 0, gid := 0, ctx := 1, batch := 0, op := op, a := a, b := b, e := e, landed := [], tiles := [5], status := 0, ended := false, debited := false, clamped := false, phase := 0
    msg := [], held := 0, work := none }

/-- sQ with one command at core 0. -/
def sC (q : Cmd) : State := { sQ with cores := sQ.cores.map fun e => if e.1 = 0 then (0, { e.2 with cmds := [q] }) else e }

def engineB (s : State) (core : Nat) (q : Cmd) : Bool :=
  decide (s.cmd? core q.id = some q) && decide ((s.core core).cmds = [q]) && s.cmdRuns q && (s.session? q.ctx).isNone && decide (s.hub.marks = []) && decide (s.hub.l3marks = []) &&
  decide (s.hub.poison = []) && decide (s.clusters = []) && s.mem.wf && decide (s.hub.doomed = []) && decide (s.boundsFor core q.ctx true = []) &&
  decide (s.boundsFor core q.ctx false = []) && decide (shSync q.e = 0xFFFF)

theorem engine_of {s : State} {core : Nat} {q : Cmd} (h : engineB s core q = true) : EngineRuns s core q := by
  simp only [engineB, Bool.and_eq_true, decide_eq_true_eq, Option.isNone_iff_eq_none] at h
  constructor
  case one => simp [h]
  case sound => constructor <;> simp only [h]
  case clean => exact clean_of (by simp only [h])
  case bounds => intro b; cases b <;> simp only [h]
  all_goals simp only [h]

def qG2s : Cmd := cmd0 .g2s 0x5000 0x10000 0x0FFFF00000000000
def qGthr : Cmd := cmd0 .gthr 0x7000 0x10000 0x0FFFF00100001C00

/-- A granule of a copy, a row of a gather. -/
theorem test_meets_engine_events :
    EngineRuns (sC qG2s) 0 qG2s ∧ EngineRuns (sC qGthr) 0 qGthr ∧
    ([0].flatMap qG2s.dsts = [.sp 0x5000 .dst] ∧ (sC qG2s).writeOrder 0 qG2s 0x5000 = true ∧
      qG2s.op.eng = .copy ∧ 0 < qG2s.granules ∧ (sC qG2s).landUnit 0 qG2s 0 = [0] ∧ (qG2s.dsts 0).length = 1 ∧
      (sC qG2s).engSpots 0 qG2s .r qG2s.srcCls ([0].map (qG2s.src 0)) = (.inr [(0x200000, 0)], sC qG2s) ∧
      (sC qG2s).engSpots 0 qG2s .w qG2s.dstCls ([0].flatMap qG2s.dsts) = (.inr [(2 ^ 52 + 0x5000, 0)], sC qG2s)) ∧
    (let q := qGthr
     (sC q).writeOrder 0 q (q.a.toNat + 16 * 0) = true ∧ shLen q.e = 16 ∧ 0 ≤ shRows q.e ∧ q.landed.length + 1 < 2 * (shRows q.e + 1) ∧
      (sC q).engSpot 0 q (.sp (0 % 64 * 2 ^ 19 + 4 * dbits q.e 17 0 + 4 * 0) .src) .r none = (.loc (2 ^ 52 + 0x7000) 0, sC q) ∧
      valueOf (Memory.byte (sC q).mem) (2 ^ 52 + 0x7000) 4 = 0 ∧ (sC q).engSpot 0 q (.va (q.b + BitVec.ofNat 64 (16 * 0))) .r none = (.loc 0x200000 0, sC q) ∧
      (sC q).engSpot 0 q (.sp (q.a.toNat + 16 * 0) .dst) .w none = (.loc (2 ^ 52 + 0x7000) 0, sC q)) :=
  ⟨engine_of (by decide +kernel), engine_of (by decide +kernel), by decide +kernel⟩

/-- A matrix operation of BF16 on tiles 16 to 25 of core 0 and 22 to 25 of core 1: A at 0x10000, B at 0x14000, C at tile 22. -/
def qMma : Cmd := { cmd0 (.mma .bf16) 0x10000 0x14000 0x0FFFF00000016000 with tiles := [16] }

theorem spadOk_tile (s : State) (core t o c : Nat) (hc : core < 64) (ht : t < 128) (ho : o < 4096) :
    s.spadOk c (spadOf 0 (core * 2 ^ 19 + 4096 * t + o)) = (decide (4096 * t + o < usable (s.core core).format) && (s.tile core t).held && (s.tile core t).ctx == c) ∧
    s.ownerAt (spadOf 0 (core * 2 ^ 19 + 4096 * t + o)) = (s.tile core t).owner := by
  have h1 : (spadOf 0 (core * 2 ^ 19 + 4096 * t + o) - spadBase) / 2 ^ 19 = core := by simp only [spadOf, spadBase]; omega
  have h2 : (spadOf 0 (core * 2 ^ 19 + 4096 * t + o) - spadBase) % 2 ^ 19 = 4096 * t + o := by simp only [spadOf, spadBase]; omega
  have h3 : (4096 * t + o) / 4096 = t := by omega
  simp only [State.spadOk, State.ownerAt, spadParts, h1, h2, h3, and_self]

theorem test_meets_matrix :
    EngineRuns (sC qMma) 0 qMma ∧ ((sC qMma).core 0).cmds.find? (fun p => decide (p.op.eng = .matrix) && !p.ended) = some qMma ∧ ((sC qMma).core 0).matrixBusy = false ∧
    (sC qMma).hub.matrixHold = false ∧ qMma.a.toNat + 128 * MatPair.k .bf16 * MatPair.sA .bf16 ≤ 2 ^ 25 ∧ qMma.b.toNat + 64 * MatPair.k .bf16 * MatPair.sB .bf16 ≤ 2 ^ 25 ∧
    (∀ c, c < 32768 → (sC qMma).engSpot 0 qMma (.sp ((0 % 64 + c / 16384) * 2 ^ 19 + 4096 * dbits qMma.e 18 12 + c % 16384) .dst) .w none =
      (.loc (spadOf (cluOf 0) ((0 % 64 + c / 16384) * 2 ^ 19 + 4096 * dbits qMma.e 18 12 + c % 16384)) 0, sC qMma)) ∧
    (∀ i n j, i < 128 → n < 64 → (j < 128 * MatPair.k .bf16 * MatPair.sA .bf16 →
        cellC 0 qMma.e i n + 4 ≤ spadOf (cluOf 0) (qMma.a.toNat + j) ∨ spadOf (cluOf 0) (qMma.a.toNat + j) < cellC 0 qMma.e i n) ∧
      (j < 64 * MatPair.k .bf16 * MatPair.sB .bf16 →
        cellC 0 qMma.e i n + 4 ≤ spadOf (cluOf 0) (qMma.b.toNat + j) ∨ spadOf (cluOf 0) (qMma.b.toNat + j) < cellC 0 qMma.e i n)) := by
  have he : dbits qMma.e 18 12 = 22 := by decide +kernel
  have ha : qMma.a.toNat = 0x10000 := by decide
  have hb : qMma.b.toNat = 0x14000 := by decide
  have h : ((sC qMma).core 0).cmds.find? (fun p => decide (p.op.eng = .matrix) && !p.ended) = some qMma ∧ ((sC qMma).core 0).matrixBusy = false ∧
    (sC qMma).hub.matrixHold = false := by decide +kernel
  refine ⟨engine_of (by decide +kernel), h.1, h.2.1, h.2.2, by decide, by decide, ?_, ?_⟩
  · intro c hc
    have tiles : ∀ k < 2, ∀ t < 4, ((sC qMma).tile k (22 + t)).held = true ∧ ((sC qMma).tile k (22 + t)).ctx = 1 ∧ ((sC qMma).tile k (22 + t)).owner = 12 ∧
        ((sC qMma).core k).format = .p := by decide +kernel
    obtain ⟨a1, a2, a3, a4⟩ := tiles (c / 16384) (by omega) (c % 16384 / 4096) (by omega)
    obtain ⟨b1, b2⟩ := spadOk_tile (sC qMma) (c / 16384) (22 + c % 16384 / 4096) (c % 4096) 1 (by omega) (by omega) (by omega)
    have hx : (0 % 64 + c / 16384) * 2 ^ 19 + 4096 * 22 + c % 16384 = c / 16384 * 2 ^ 19 + 4096 * (22 + c % 16384 / 4096) + c % 4096 := by omega
    have hs : c / 16384 * 2 ^ 19 + 4096 * (22 + c % 16384 / 4096) + c % 4096 < 2 ^ 25 := by omega
    have hu : 4096 * (22 + c % 16384 / 4096) + c % 4096 < usable .p := by simp only [usable]; omega
    rw [he, hx]
    have hk : cluOf 0 = 0 := rfl
    have hq : qMma.ctx = 1 := rfl
    have hw : qMma.op.eng = .matrix := rfl
    simp only [State.engSpot, hk, hq, hw, b1, b2, a1, a2, a3, a4, hs, hu, decide_true, useAllows, engCode, Bool.true_and, Bool.and_true, beq_self_eq_true]
    rfl
  · intro i n j hi hn
    have hk : cluOf 0 = 0 := rfl
    simp only [cellC, he, ha, hb, hk, spadOf, MatPair.k, MatPair.sA, MatPair.sB]
    omega

/-- A collective of one rank; commands that end. -/
def qColl : Cmd := { cmd0 .coll 0x9000 0xA000 0x1FFFF00000000000 with tiles := [9, 10], msg := ([1, 0, 0x100C0, 0].map (leBytes 4)).flatten }

theorem test_meets_collective :
    EngineRuns (sC qColl) 0 qColl ∧ dbits qColl.e 63 60 = 1 ∧ (sC qColl).collCmds 1 (dbits qColl.e 43 32) = [(0, qColl)] ∧ (sC qColl).collReady 0 qColl = true ∧
    (sC qColl).comm 1 (.engine 0) (dbits qColl.e 43 32) = (.inr { entry := [1, 0, 0x100C0, 0], ranks := [((sC qColl).hub.device.toNat, 0)] }, sC qColl) ∧
    qColl.a.toNat % 16 = 0 ∧ qColl.b.toNat % 16 = 0 ∧ shLen qColl.e / 16 = 1 ∧
    (sC qColl).engSpot 0 qColl (.sp (qColl.a.toNat + 16 * 0) .dst) .w none = (.loc (spadOf (cluOf 0) (qColl.a.toNat + 16 * 0)) 0, sC qColl) :=
  ⟨engine_of (by decide +kernel), by decide +kernel⟩

theorem test_meets_completion :
    let q := { qG2s with ended := true }
    let s := { sC q with groups := [(0, { gU with batches := [bat 0 1 0 true false] })] }
    Canonical s ∧ s.cmd? 0 q.id = some q ∧ (∀ e ∈ s.hub.crews, e.2.gids ≠ []) ∧ (s.grp q.gid).batches.find? (fun b => b.num == q.batch && !b.retired) = some (bat 0 1 0 true false) ∧
    (sC qG2s).cmd? 0 qG2s.id = some qG2s ∧ qG2s.ended = false :=
  ⟨canonical_of (by decide +kernel), by decide +kernel⟩

/-- R248, R254: bytes at their destination; the operation of one rank; a command leaves its queue. -/
theorem test_engine_events :
    (let s := { sC qG2s with mem := (0x200001, 7) :: sQ.mem.filter (fun e => e.1 ≠ 0x200000) }
     Memory.byte (after (.copyPieceLands 0 0 0 1) s).mem (2 ^ 52 + 0x5001) = 7) ∧
    ((after (.collectiveComplete 1 0 []) (sC qColl)).core 0).cmds.map (·.ended) = [true] ∧
    ((after (.engineCommandComplete 0 0) (sC { qG2s with ended := true })).core 0).cmds = [] := by
  decide +kernel

/-- A queue for fabric senders of tenant 1, two slots of 64 bytes, this many of them filled and free and in flight. -/
def sFab (tail free inflight : Nat) (credits : List (Nat × Nat)) : State :=
  { sQ with
    hub := { sQ.hub with credits := credits }
    mem := [(0x200000, 1), (0x200002, 0x51), (0x200003, 0x5A), (0x200004, 1), (0x200005, 3), (0x200006, 1), (0x200008, 0x40), (0x20000A, 1)] ++
      [(0x200018, BitVec.ofNat 8 tail), (0x200020, BitVec.ofNat 8 free), (0x200024, BitVec.ofNat 8 inflight)].filter (·.2 ≠ 0) ++
      [(0x400000, 1), (0x400002, 0x40), (0x400007, 0xC0), (0x400008, 1), (0x400009, 0x0E), (0x40000A, 0x20)] }

def hdrF (tail free inflight : Nat) : QHdr :=
  { id := 0x4000010, loc := 0x200000, logn := 1, e64 := true, fabric := true, peer := 1, ring := 0x10040, head := 0, tail := tail, free := free, inflight := inflight }

theorem calm_sFab (t f i : Nat) (l : List (Nat × Nat)) : Calm (sFab t f i l) := ⟨fun _ => rfl, ⟨rfl, rfl, rfl⟩⟩

/-- Credit requests for no queue, one without fabric senders or of another tenant, a free slot, none; a delivery with and without a credit. -/
theorem test_meets_fabric_credits :
    ((7 : Nat) ≠ (sFab 0 2 0 []).hub.device.toNat ∧ (sFab 0 2 0 []).mem.wf = true ∧ (sFab 0 2 0 []).hub.doomed = [] ∧ sQ.findQueue 0x4000011 = (.none, sQ) ∧
      QueueHere sQ 0x4000010 hdr0 ∧ hdr0.fabric = false) ∧
    (QueueHere (sFab 0 2 0 []) 0x4000010 (hdrF 0 2 0) ∧ (hdrF 0 2 0).peer ≠ 2 ∧
      ∀ f ∈ [2, 0], let h := hdrF (2 - f) f 0
        let s := sFab (2 - f) f 0 []
        QueueHere s 0x4000010 h ∧
        let w := s.onHub fun u => { u with queueReqs := u.queueReqs ++ [{ queue := 0x4000010, gid := 2 ^ 20 + 7, put := true, entry := [], dest := 0 }] }
        w.findQueue 0x4000010 = (.ok h, w)) ∧
    (let s := sFab 0 1 1 [(7, 0x4000010)]
     s.mem.wf = true ∧ QueueHere s 0x4000010 (hdrF 0 1 1) ∧ s.session? (queueCtx 0x4000010) = none ∧
     s.devSpot (queueCtx 0x4000010) ((hdrF 0 1 1).slot 0) .w = (.loc 0x200040 0 false, s) ∧ (7, 0x4000010) ∈ s.hub.credits ∧ (6, 0x4000010) ∉ s.hub.credits) := by
  refine ⟨⟨by decide +kernel, by decide +kernel, by decide +kernel, by decide +kernel, queueHere_of (by decide +kernel), by decide⟩,
    ⟨queueHere_of (by decide +kernel), by decide, ?_⟩, by decide +kernel, queueHere_of (by decide +kernel), by decide +kernel⟩
  intro f hf
  simp only [List.mem_cons, List.not_mem_nil, or_false] at hf
  rcases hf with rfl | rfl <;> exact ⟨queueHere_of (by decide +kernel), by decide +kernel⟩

/-- FSEND of the row at 0x8000 to queue 0x04000010 of device 7. -/
def qSend : Cmd := { cmd0 .fsend 0x0000000704000010 0x8000 0x0FFFF00000000000 with tiles := [8] }

theorem sends_sC (q : Cmd) (h : (decide ((sC q).cmd? 0 q.id = some q) && decide (((sC q).core 0).cmds = [q]) && decide (q.op = .fsend) && (sC q).cmdRuns q &&
    decide (q.toDev ≠ (sC q).hub.device.toNat) && decide ((sC q).hub.doomed = [])) = true) : Sends (sC q) 0 q := by
  simp only [Bool.and_eq_true, decide_eq_true_eq] at h
  constructor
  case one => simp [h]
  all_goals simp only [h, ne_eq, not_false_eq_true]

theorem test_meets_sends :
    Sends (sC qSend) 0 qSend ∧ (sC qSend).hub.marks = [] ∧ (sC qSend).hub.l3marks = [] ∧ qSend.phase = 0 ∧
    (∀ p ∈ ((sC qSend).core 0).cmds, p.op = .fsend → p.ended = false → p.phase = 0 → p.toDev = qSend.toDev → p.toQueue = qSend.toQueue → qSend.id ≤ p.id) ∧
    spadOf (cluOf 0) qSend.b.toNat / 64 ∉ (sC qSend).hub.poison ∧
    (let s := { sC qSend with hub := { sQ.hub with poison := [spadOf 0 0x8000 / 64] } }
     Sends s 0 qSend ∧ spadOf (cluOf 0) qSend.b.toNat / 64 ∈ s.hub.poison ∧ qSend.status = 0) ∧
    (let q := { qSend with phase := 2 }
     Sends (sC q) 0 q ∧ shSync q.e = 0xFFFF ∧ q.phase = 2 ∧ q.status = 0) := by
  have h := sends_sC qSend (by decide +kernel)
  refine ⟨h, by decide, by decide, by decide, by decide +kernel, by decide +kernel, ⟨?_, by decide +kernel⟩, sends_sC _ (by decide +kernel), by decide +kernel⟩
  exact { mine := h.mine, one := h.one, send := h.send, runs := by decide +kernel, away := h.away, calm := h.calm }

theorem no_session (s : State) (c : Nat) (h : s.tenants = []) : s.session? c = none := by
  simp only [State.session?, Option.map_eq_none_iff, List.find?_eq_none, State.tenant, h]
  intro k hk
  have e : ∀ k < 4, (vat Tenant.reset.sessions k Session.reset).en = false := by decide
  have r : SMap.look ([] : SMap Tenant) (s.ctx c).tenant Tenant.reset = Tenant.reset := rfl
  simp [r, e k (List.mem_range.1 hk)]

/-- Peer requests inside and outside an export of frame 5 to tenant 3; table writes that keep the rules, break one, overlap. -/
theorem test_meets_exports :
    let e : Export := { wbase := 0, rbase := 0xA00000, len := 0x200000, tenant := 3, valid := true }
    let s := { State.reset with hub := { Hub.reset with exports := [(0, e)], portsDown := [4] } }
    (let ok := fun (tn off n : Nat) => 1 ≤ n ∧ n ≤ 8 ∧ off % n = 0 ∧ e.valid = true ∧ e.tenant = tn ∧ e.wbase ≤ off ∧ off + n ≤ e.wbase + e.len
     ok 3 8 8 ∧ ¬ ok 2 8 8 ∧ ¬ ok 3 0x1FFFFC 8 ∧ isSpad (e.rbase + 8) = false) ∧ Calm s ∧
    (s.fmtAt (0xA00000 + 8) = .p ∧ (0xA00000 + 8) % 512 < lineData .p ∧ ∀ i < 8, isLocal (0xA00000 + 8 + i) = isLocal (0xA00000 + 8) ∧
      s.fmtAt (0xA00000 + 8 + i) = .p ∧ (0xA00000 + 8 + i) % 512 < lineData .p) ∧ s.mem.wf = true ∧ (∀ c, s.session? c = none) ∧ 4 ∈ s.hub.portsDown ∧ 5 ∉ s.hub.portsDown ∧
    ExportBad 0x100000 0 0x200000 0 1 ∧ ¬ ExportBad 0x200000 0 0x200000 3 1 ∧
    (∀ p ∈ s.hub.exports, p.1 ≠ 1 → p.2.valid = true → (0x200000 : Dword).toNat + (0x200000 : Dword).toNat ≤ p.2.wbase ∨ p.2.wbase + p.2.len ≤ (0x200000 : Dword).toNat) ∧
    (∃ p ∈ s.hub.exports, p.1 ≠ 1 ∧ p.2.valid = true ∧ p.2.wbase < (0 : Dword).toNat + (0x200000 : Dword).toNat ∧ (0 : Dword).toNat < p.2.wbase + p.2.len) := by
  refine ⟨by decide, ⟨fun _ => rfl, ⟨rfl, rfl, rfl⟩⟩, by decide, rfl, fun c => no_session _ c rfl, by decide, by decide, .inl (by decide), ?_, by decide, by decide⟩
  unfold ExportBad
  decide

/-- R75, R353, R356: the header after a credit and after a delivery; a port goes down once; a read through an export. -/
theorem test_fabric_events :
    (let t := after (.fabricCreditRequest 7 1 0x4000010) (sFab 0 2 0 []); (Memory.le t.mem 0x200020 4, Memory.le t.mem 0x200024 4, t.hub.credits) = (1, 1, [(7, 0x4000010)])) ∧
    (let t := after (.fabricDelivery 7 1 0x4000010 0 0 false 0x55) (sFab 0 1 1 [(7, 0x4000010)])
     (Memory.le t.mem 0x200018 8, Memory.le t.mem 0x200024 4, Memory.le t.mem 0x200040 8) = (1, 0, 0x55)) ∧
    (after (.fabricLinkDown 3) (after (.fabricLinkDown 3) State.reset)).hub.portsDown = [3] ∧
    ((after (.fabricCreditGrant 0 0) (sC qSend)).hub.sent = [(7, 0x4000010, 0, 0, 0)]) := by
  decide +kernel

/-! ### Translation and the fault service -/

def gW : Group := { gU with sregs := [], vregs := [] }

/-- Tables at 0x400000 whose pages from 0x10000 on are resident, in the cellar at slot 0x210000, migrating from slot 0x220000, in host memory
to be moved when touched, and absent. Slot 96, of frame 3, is free. -/
def sW : State :=
  { sQ with
    groups := [(0, gW)]
    ctxs := [(1, { Ctx.none with used := true, tenant := 1, ptroot := 0x400000 })]
    cores := []
    hub := { sQ.hub with window := [(1, 2), (2, 2), (3, 2)], pool := [96] }
    mem := [(0x200000, 9), (0x400000, 1), (0x400002, 0x40), (0x400007, 0xC0), (0x400008, 1), (0x400009, 0x0E), (0x40000A, 0x20), (0x400010, 3), (0x400011, 0x0E),
      (0x400012, 0x21), (0x400018, 5), (0x400019, 0x0E), (0x40001A, 0x22), (0x400020, 0x17), (0x400021, 0x1E), (0x400026, 4)] }

def withF (x : FaultRec) : State := { sW with hub := { sW.hub with faults := [(0, x)] } }
def rec0 (page pte : Dword) (stage dst : Nat) : FaultRec := { ctx := 1, page := page, size := 65536, kind := 0, pte := pte, why := 0, stage := stage, tag := 0, dst := dst, gids := [0] }

theorem plainly_of {s : State} (h : (s.mem.wf && SMap.wf Group.idle s.groups && SMap.wf Core.idle s.cores && decide (s.clusters = []) && decide (s.hub.marks = []) &&
    decide (s.hub.l3marks = []) && decide (s.hub.poison = []) && decide (s.hub.doomed = [])) = true) : Plainly s := by
  simp only [Bool.and_eq_true, decide_eq_true_eq] at h
  constructor
  case canon => exact canonical_of (by simp only [h, Bool.and_self])
  case clusters => simp only [h]; rfl
  case calm => exact ⟨fun k => by simp only [State.cluster, h]; rfl, by constructor <;> simp only [h]⟩
  case doomed => simp only [h]

theorem le_congr (m n : Memory) (a : Nat) (h : ∀ z, a ≤ z → z < a + 8 → Memory.byte m z = Memory.byte n z) : Memory.le m a 8 = Memory.le n a 8 := by
  simp only [Memory.le, Memory.bytes]
  repeat (first | rw [h _ (by omega) (by omega)])

/-- What a memory holds in the tables' first 40 bytes decides the entries of the pages up to 0x4FFFF. -/
theorem entry_of {s : State} {page e : Dword} {l lo hi : Nat} (hs : isSpad l = false) (hl : l + 8 ≤ lo ∨ hi < l) (hr : (s.ctx 1).ptroot = 0x400000)
    (hf : s.fmtAt 0x400000 = .p) (ht : Memory.le s.mem 0x400000 8 = 0xC000000000400001) (h3 : vaIndex page 3 = 0) (h2 : vaIndex page 2 = 0) (h1 : vaIndex page 1 = 0)
    (h0 : l = 0x400000 + 8 * vaIndex page 0) (h4 : vaIndex page 0 < 5) (he : BitVec.ofNat 64 (Memory.le s.mem l 8) = e) (hx : pteSize e = 0)
    (hlo : 0x400028 ≤ lo) (hlt : lo ≤ hi ∨ hi = 0) : EntryAt s 1 page l e lo hi := by
  refine ⟨hs, hl, fun m hm => ?_⟩
  have a : ∀ z, z < 0x400028 → Memory.byte m z = Memory.byte s.mem z := fun z hz => hm z (.inl (by omega))
  have b1 : Memory.le m 0x400000 8 = 0xC000000000400001 := by rw [← ht]; exact le_congr _ _ _ fun z _ _ => a z (by omega)
  have b2 : Memory.le m l 8 = Memory.le s.mem l 8 := le_congr _ _ _ fun z _ _ => a z (by omega)
  have pb : ∀ i, i < 5 → State.pageByte { s with mem := m } 0x400000 (8 * i) = 0x400000 + 8 * i := by
    intro i hi
    have : State.fmtAt { s with mem := m } 0x400000 = .p := hf
    simp only [State.pageByte, this, rawOf, lineData, show isLocal 0x400000 = true from rfl, if_true]
    omega
  have f : (!(isLocal 0x400000 && decide (State.fmtAt { s with mem := m } 0x400000 = .p))) = false := by
    have : State.fmtAt { s with mem := m } 0x400000 = .p := hf
    rw [this]; rfl
  have o : ∀ n, vaIndex page n = 0 → State.entryOf { s with mem := m } page 0x400000 n = some (0x400000, 0xC000000000400001) := by
    intro n hn
    simp only [State.entryOf, f, hn, Bool.false_eq_true, if_false, Nat.zero_div, Nat.zero_mul, pb 0 (by omega), Nat.mul_zero, Nat.add_zero]
    have : Memory.le ({ s with mem := m } : State).mem 0x400000 8 = 0xC000000000400001 := b1
    rw [this]
    simp
  have q : State.entryOf { s with mem := m } page 0x400000 0 = some (l, e) := by
    have b3 : Memory.le ({ s with mem := m } : State).mem l 8 = Memory.le s.mem l 8 := b2
    simp only [State.entryOf, f, Bool.false_eq_true, if_false, pb _ h4, ← h0, b3, he, hx]
    simp [pb _ h4, ← h0, b3, he]
  rw [hr]
  show State.entryAt { s with mem := m } page 0x400000 3 = _
  have g1 : pteSize 0xC000000000400001 = 3 := by decide
  have g2 : leafAddr 0xC000000000400001 = 0x400000 := by decide
  have g3 : (0xC000000000400001 : Dword).getLsbD 0 = true := by decide
  simp only [State.entryAt, o 3 h3, o 2 h2, o 1 h1, q, g1, g2, g3, Bool.true_and, beq_self_eq_true, if_true]

/-- Walks overtaken, of the resident page, of one that parks; a shoot-down that nothing holds. -/
theorem test_meets_walks :
    (let w : Walk := { id := 3, ctx := 1, core := 0, page := 0x10000, gids := [0], seq := 0, quiet := false, begun := true }
     let cache := (List.range 3).map fun i => ({ ctx := 1, level := 3 - i, idx := 0, pte := 0xC000000000400001 } : WalkEntry)
     let s := { sW with clusters := [(0, { Cluster.empty with walks := [w], wcache := cache })] }
     (s.cluster 0).walks.find? (·.begun) = some w ∧ cluOf w.core = 0 ∧ s.staleWalk w = false ∧ s.walk 0 1 0x10000 = (.leaf { page0 with pte := 0x200E01 }, s) ∧
     s.walk 0 1 0x20000 = (.leaf { ctx := 1, base := 0x20000, size := 65536, pte := 0x210E03 }, s) ∧ s.walk 0 1 0x50000 = (.absent 0, s) ∧
     ({ s with hub := { s.hub with shootSeq := 17 } }).staleWalk w = true ∧ SMap.wf Cluster.empty s.clusters = true ∧ ∀ e ∈ s.clusters, e.2.l2 = []) ∧
    Plainly sW ∧
    (let x : Shoot := { id := 2, ctx := some 1, base := 0x10000, size := 65536, tenant := some 1, seq := 0 }
     let s := { sW with hub := { sW.hub with shoots := [x] }, tenants := [(1, { Tenant.reset with cmds := [0x1000] })] }
     s.hub.shoots.find? (·.id == x.id) = some x ∧ s.shootWaits x = [] ∧ x.tenant = some 1 ∧ (s.tenant 1).cmds = [0x1000] ∧ SMap.wf Tenant.reset s.tenants = true ∧ Plainly s) :=
  ⟨by decide +kernel, plainly_of (by decide +kernel), by decide +kernel, by decide +kernel, by decide, by decide +kernel, by decide +kernel, plainly_of (by decide +kernel)⟩

theorem groupsOnly_withF (x : FaultRec) : GroupsOnly (withF x) 0 x :=
  ⟨fun _ he => absurd he List.not_mem_nil, fun _ hk => absurd hk List.not_mem_nil, fun _ hw => absurd hw List.not_mem_nil⟩

/-- The service's cases: resident, migrating, in the cellar with and without a free slot, absent; the ring has room or not. -/
theorem test_meets_fault_service :
    (let s := withF (rec0 0x10000 0 0 0)
     Plainly s ∧ GroupsOnly s 0 (rec0 0x10000 0 0 0) ∧ List.find? (fun (e : Nat × FaultRec) => e.1 == 0) s.hub.faults = some (0, rec0 0x10000 0 0 0) ∧
     s.devWalk 1 0x10000 = (.leaf { page0 with pte := 0x200E01 }, s) ∧ pteParks 0x200E01 = false ∧
     s.devWalk 1 0x30000 = (.leaf { ctx := 1, base := 0x30000, size := 65536, pte := 0x220E05 }, s) ∧ pteState 0x220E05 = 2 ∧
     s.devWalk 1 0x20000 = (.leaf { ctx := 1, base := 0x20000, size := 65536, pte := 0x210E03 }, s) ∧ pteState 0x210E03 = 1 ∧ pteSize 0x210E03 = 0 ∧
     s.poolOf 1 .p = [96] ∧ ({ s with hub := { s.hub with pool := [] } }).poolOf 1 .p = [] ∧ s.devWalk 1 0x50000 = (.absent 0, s)) ∧
    (let s := { sW with tenants := [(1, { Tenant.reset with faultRing := { Ring.reset with rctl := 1, rlog2 := 12 } })] }
     let r := (s.tenant 1).faultRing
     r.rctl.getLsbD 0 = true ∧ r.rwr.toNat + 32 - r.rrd.toNat ≤ 2 ^ dbits r.rlog2 5 0) ∧ (sW.tenant 1).faultRing.rctl.getLsbD 0 = false :=
  ⟨⟨plainly_of (by decide +kernel), groupsOnly_withF _, by decide +kernel⟩, by decide +kernel⟩

/-- The entries of sW's pages, whatever a slot of frame 3 holds. -/
theorem entry_sW (h : Hub) (page e : Dword) (l lo hi : Nat) (hh : h.formats = []) (h3 : vaIndex page 3 = 0) (h2 : vaIndex page 2 = 0) (h1 : vaIndex page 1 = 0)
    (h0 : l = 0x400000 + 8 * vaIndex page 0) (h4 : vaIndex page 0 < 5) (he : BitVec.ofNat 64 (Memory.le sW.mem l 8) = e) (hx : pteSize e = 0)
    (hlo : 0x400028 ≤ lo) (hlt : lo ≤ hi ∨ hi = 0) : EntryAt { sW with hub := h } 1 page l e lo hi := by
  refine entry_of (by simp only [isSpad, h0, decide_eq_false_iff_not]; omega) (by omega) rfl ?_ (show Memory.le sW.mem 0x400000 8 = _ by decide +kernel) h3 h2 h1 h0 h4 he hx hlo hlt
  simp only [State.fmtAt, hh]; rfl

/-- An expansion into slot 96, a page moved there from host memory on its touch, a page given up. -/
theorem test_meets_fault_ends :
    (let x := rec0 0x20000 0x210E03 1 0x600000
     let s := { withF x with hub := { (withF x).hub with cellar := [(0x210000, List.replicate 65536 0)] } }
     Plainly s ∧ pteSize x.pte = 0 ∧ EntryAt s 1 0x20000 0x400010 0x210E03 (s.pageByte 0x600000 0) (s.pageByte 0x600000 65535) ∧ leafAddr x.pte = 0x210000 ∧
     List.find? (fun (e : Nat × List Byte) => e.1 == 0x210000) s.hub.cellar = some (0x210000, List.replicate 65536 0) ∧ (List.replicate 65536 (0 : Byte)).length = 65536 ∧
     isLocal 0x600000 = true ∧ 0x600000 % 65536 = 0 ∧ s.slotOk 0x600000 = true) ∧
    (let x := rec0 0x40000 0x4000000001E17 2 0x600000
     let s := withF x
     Plainly s ∧ leafAddr x.pte = hostLoc 0 ∧ isHost (leafAddr x.pte) = true ∧ isHost (leafAddr x.pte + 65535) = true ∧
     EntryAt s 1 0x40000 0x400020 0x4000000001E17 (s.pageByte 0x600000 0) (s.pageByte 0x600000 65535) ∧
     s.session? 1 = none ∧ (∀ g v k a, (s.grp g).wait.cond ≠ .word v k a) ∧ (∀ g v k, (s.grp g).wait.cond ≠ .sync v k)) ∧
    (let x := rec0 0x50000 0 5 0
     let s := withF x
     (s.ctx x.ctx).tenant = 1 ∧ x.tag = dbits (0x100000000 : Dword) 31 0 ∧ (0x100000000 : Dword).getLsbD 32 = true ∧ s.fetchOrder = [] ∧ x.gids ≠ [] ∧
     (∀ e ∈ s.hub.faults, e.2.stage = 5 → (s.ctx e.2.ctx).tenant = 1 → e.2.tag = dbits (0x100000000 : Dword) 31 0 → e = (0, x))) ∧
    (∀ e ∈ sW.hub.faults, e.2.stage = 5 → (sW.ctx e.2.ctx).tenant = 1 → e.2.tag ≠ dbits (0 : Dword) 31 0) := by
  have wt : ∀ x g, ((withF x).grp g).wait.cond = .ready := by
    intro x g
    simp only [withF, State.grp, sW, SMap.look]
    repeat (first | rfl | split)
  refine ⟨⟨plainly_of (by decide +kernel), by decide, ?_, by decide, rfl, List.length_replicate, by decide, by decide, by decide +kernel⟩,
    ⟨plainly_of (by decide +kernel), by decide +kernel, by decide +kernel, by decide +kernel, ?_, by decide +kernel, fun g v k a => by rw [wt]; exact Cond.noConfusion, fun g v k => by rw [wt]; exact Cond.noConfusion⟩,
    by decide +kernel, by decide +kernel⟩
  · exact entry_sW _ _ _ _ _ _ rfl (by decide) (by decide) (by decide) (by decide) (by decide) (by decide +kernel) (by decide) (by decide +kernel) (by decide +kernel)
  · exact entry_sW _ _ _ _ _ _ rfl (by decide) (by decide) (by decide) (by decide) (by decide) (by decide +kernel) (by decide) (by decide +kernel) (by decide +kernel)

/-- Firmware moves and compresses the resident page, and ends a move; a filter to clear. -/
theorem test_meets_firmware :
    Plainly sW ∧ (0x10000 : Dword) = BitVec.ofNat 64 (sW.pageSpan 1 0x10123).1 ∧ sW.inLarder 1 0x10000 65536 = false ∧ sW.resident? 1 0x10000 = some 0x200E01 ∧ pteSize 0x200E01 = 0 ∧ EntryAt sW 1 0x10000 0x400008 0x200E01 (2 ^ 64) 0 ∧
    (∀ m ∈ sW.hub.migrations, m.ctx = 1 → m.page ≠ 0x10000) ∧ sW.canMove 1 0x200E01 0x600000 = true ∧
    (∀ g, (sW.grp g).flights = []) ∧ (0x200000 : Dword).toNat = leafAddr 0x200E01 ∧ sW.slotOk 0x200000 = true ∧
    (let m : Migration := { ctx := 1, page := 0x30000, dst := 0x600000, shoot := 0 }
     let s := { sW with hub := { sW.hub with migrations := [m] } }
     Plainly s ∧ (∀ x ∈ s.hub.shoots, x.id ≠ m.shoot) ∧ (s.pageSpan m.ctx m.page).1 = m.page.toNat ∧ s.hub.faults = [] ∧ s.session? m.ctx = none ∧
     EntryAt s 1 0x30000 0x400018 0x220E05 (s.pageByte 0x600000 0) (s.pageByte 0x600000 65535) ∧ pteState 0x220E05 = 2 ∧ leafAddr 0x220E05 = 0x220000 ∧
     s.slotOk 0x220000 = true ∧ s.slotOk 0x600000 = true ∧ Apart s 0x220000 0x600000) ∧
    (SMap.look sW.hub.slices 0 Slice.reset).misses < 2 ^ 16 ∧ 2 ^ ({ Slice.reset with misses := 65536 } : Slice).w ≤ 65536 := by
  refine ⟨plainly_of (by decide +kernel), by decide +kernel, by decide +kernel, by decide +kernel, by decide, ?_, by decide +kernel, by decide +kernel, ?_, by decide, by decide +kernel,
    ⟨plainly_of (by decide +kernel), by decide +kernel, by decide +kernel, by decide, by decide +kernel, ?_, by decide, by decide, by decide +kernel, by decide +kernel, .inl (by decide +kernel)⟩,
    by decide +kernel, by decide⟩
  · exact entry_sW sW.hub _ _ _ _ _ rfl (by decide) (by decide) (by decide) (by decide) (by decide) (by decide +kernel) (by decide) (by decide) (.inr rfl)
  · intro g
    simp only [State.grp, sW, SMap.look]
    repeat (first | rfl | split)
  · exact entry_sW _ _ _ _ _ _ rfl (by decide) (by decide) (by decide) (by decide) (by decide) (by decide +kernel) (by decide) (by decide +kernel) (by decide +kernel)

/-- R269, R272: the resident page's fault ends, one in the cellar takes a slot, a missing page is held for the ring. -/
theorem test_fault_events :
    (after (.faultService 0) (withF (rec0 0x10000 0 0 0))).hub.faults = [] ∧
    (after (.faultService 0) (withF (rec0 0x20000 0 0 0))).hub.faults.map (fun e => e.2.stage) = [1] ∧
    (after (.faultService 0) (withF (rec0 0x50000 0 0 0))).hub.faults.map (fun e => e.2.stage) = [4] ∧
    Memory.le (after (.pageMigration 1 0x10000 0x600000) sW).mem 0x400008 8 = 0x200E05 := by
  decide +kernel

/-! ### The package and the TDI -/

def hubIs (f : Hub → Hub) : State := { sW with hub := f sW.hub }

/-- Pins with lanes left and none, sectors in sets with ways left and none, frames named and not. -/
theorem test_meets_firmware_orders :
    ((hubIs fun h => { h with swaps := [(0, 1, 9)] }).hub.swaps.filter fun e => e.1 == 0 && e.2.1 == 1).length < 4 ∧ (0, 1, 2) ∉ [((0 : Nat), (1 : Nat), (9 : Nat))] ∧
    4 ≤ ([((0 : Nat), (1 : Nat), (2 : Nat)), (0, 1, 3), (0, 1, 4), (0, 1, 5)].filter fun e => e.1 == 0 && e.2.1 == 1).length ∧
    Sound sW ∧ (∀ c, sW.session? c = none) ∧ isLocal 0x200040 = true ∧ sW.hub.pinned = [] ∧ sW.lockedWays none 0x200040 < 2 ∧ (hubIs fun h => { h with pinned := [0x200000 / 64] }).hub.pinned.any (fun k => k / 8 == 0x200040 / 512) = true ∧
    2 ≤ (hubIs fun h => { h with slices := [(sliceOf 0x200040, { Slice.reset with locked := [(cacheSet none 0x200040, 2)] })] }).lockedWays none 0x200040 ∧
    sW.frameHeld 1 = true ∧ State.reset.frameHeld 9 = false ∧ Canonical State.reset ∧ SMap.wf Cls.p State.reset.hub.formats = true := by
  have h : sW.hub.pinned = [] ∧ sW.lockedWays none 0x200040 < 2 ∧ (hubIs fun h => { h with pinned := [0x200000 / 64] }).hub.pinned.any (fun k => k / 8 == 0x200040 / 512) = true ∧
    sW.frameHeld 1 = true ∧ State.reset.frameHeld 9 = false := by decide +kernel
  refine ⟨by decide +kernel, by decide, by decide, ⟨rfl, rfl, rfl⟩, fun c => no_session _ c rfl, by decide, h.1, h.2.1, h.2.2.1, ?_, h.2.2.2.1, h.2.2.2.2, canonical_of (by decide +kernel), by decide +kernel⟩
  have : State.lockedWays (hubIs fun h => { h with slices := [(sliceOf 0x200040, { Slice.reset with locked := [(cacheSet none 0x200040, 2)] })] }) none 0x200040 =
      SMap.look [(cacheSet none 0x200040, 2)] (cacheSet none 0x200040) 0 := by
    simp [State.lockedWays, hubIs, SMap.look]
  rw [this]
  simp [SMap.look]

/-- Test mode: refused beside an enclave, entered, left; sites with and without a valid sector. -/
theorem test_meets_test_mode :
    (sW.hub.testMode = false ∧ (hubIs fun h => { h with testMode := true }).hub.testMode = true) ∧ (sM.sector 0 0x200040).valid ≠ 0 ∧ (sM.sector 0 0x200080).valid = 0 ∧
    (0 : Nat) < usable (sM.core 0).format ∧ (∃ e ∈ ({ sW with ctxs := [(1, { Ctx.none with used := true, encl := true })] } : State).ctxs, e.2.used = true ∧ e.2.encl = true) ∧
    (∀ e ∈ sW.ctxs, e.2.used = true → e.2.encl = false) ∧ SMap.wf Cluster.empty sW.clusters = true ∧ (∀ tn k, (sW.sess tn k).en = false) := by
  have h : (sM.sector 0 0x200040).valid ≠ 0 ∧ (sM.sector 0 0x200080).valid = 0 ∧ (0 : Nat) < usable (sM.core 0).format := by decide +kernel
  refine ⟨by decide, h.1, h.2.1, h.2.2, by decide, by decide, by decide, fun tn k => ?_⟩
  have h : ∀ k, (vat Tenant.reset.sessions k Session.reset) = Session.reset := by
    intro k; simp only [vat, Tenant.reset]; split <;> simp
  rw [show sW.sess tn k = vat Tenant.reset.sessions k Session.reset from rfl, h]; rfl

/-- A RESET with and without enough cores, a self-test of an idle core, a die that may widen, a hold of matrix issue, TDIs. -/
theorem test_meets_package :
    (let short := fun (all : List Nat) => (List.range 12).filter (fun k => decide ((((List.range 68).map (68 * k + ·)).filter fun p => !(all.contains p)).length < 64))
     short [] = [] ∧ short [0, 1, 2, 3, 4] = [0]) ∧
    ((sW.core 3).resident = Vector.replicate 4 none ∧ (sW.core 3).unavailable = false ∧
      (((List.range 68).map (68 * (3 / 64) + ·)).filter fun q => !(sW.hub.mappedCores.contains q))[3 % 64]? = some 3 ∧ (sG.core 0).resident.toList.any (·.isSome) = true) ∧
    ((hubIs fun h => { h with narrowed := [2], clean := [2] }).dieBusy 2 = false) ∧
    (15000000 : Nat) ≤ 16000000 ∧ (hubIs fun h => { h with narrowed := [0, 1, 2, 3, 4, 5], hot := [0, 1, 2, 3, 4, 5] }).hub.narrowed.length = 6 ∧
    (let ok := fun (v : Vector Nat 7) => v.toList.sum ≤ 15000000 ∧ (∀ i, i < 6 → budget.getD i 0 * 4 ≤ vat v i 0 * 5) ∧
        ((List.range 6).map fun i => vat v i 0 - vat sW.hub.power i 0).sum ≤ 1000000
     ok Hub.reset.power ∧ ¬ ok (Vector.replicate 7 0)) ∧
    (∀ c, c < 64 → (sW.ctx c).encl = true → (sW.ctx c).tenant ≠ 1) ∧
    (let s := { sW with tenants := [(1, { Tenant.reset with dump := [(4, [1])] })] }
     SMap.wf Tenant.reset s.tenants = true ∧ (s.tenant 1).dump ≠ []) := by
  decide +kernel

/-- R8, R16, R20, R292, R531: cores given up, dies narrowed, power cut, a frame's format, no mark outside test mode. -/
theorem test_package_events :
    (after (.reset [0, 1, 2, 3, 4] true 7) sW).hub.up = false ∧ (after (.reset [0, 1, 2, 3] true 7) sW).hub.device = 7 ∧ (after (.powerAlarm 3) sW).hub.narrowed = [3] ∧
    (after (.overtemperatureCutoff 1 115) sW).hub.powered = false ∧ SMap.look (after (.format 9 .d) State.reset).hub.formats 9 .p = .d ∧
    (after (.inject (.hbm 0x200040) true false) sW).hub.marks = [] := by
  decide +kernel

/-! ### Tenant commands -/

/-- u with one command of tenant 1 pending, of these doublewords, and contexts 1 to 3 allotted to it. -/
def sT (u : State) (ws : List Nat) : State :=
  { u with
    tenants := [(1, { Tenant.reset with cmds := [0x1000] })]
    hub := { u.hub with allot := [(1, 2), (2, 2), (3, 2)] }
    mem := (List.range 8).foldl (fun m i => Memory.setLe m (hostLoc (0x1000 + 8 * i)) 8 (ws.getD i 0)) u.mem }

def commandedB (s : State) : Bool :=
  decide ((s.tenant 1).cmds = [0x1000]) && s.hub.linkUp && decide (s.hub.shoots = []) && s.mem.wf && SMap.wf Group.idle s.groups && SMap.wf Core.idle s.cores &&
  decide (s.clusters = []) && decide (s.hub.marks = []) && decide (s.hub.l3marks = []) && decide (s.hub.poison = []) && SMap.wf Tenant.reset s.tenants &&
  decide (s.hub.doomed = [])

theorem commanded_of {s : State} (h : commandedB s = true) : Commanded s 1 0x1000 [] := by
  simp only [commandedB, Bool.and_eq_true, decide_eq_true_eq] at h
  constructor
  case tenant => decide
  case ready => simp [h]
  case calm => exact ⟨fun k => by simp only [State.cluster, h]; rfl, by constructor <;> simp only [h]⟩
  case canon => exact canonical_of (by simp only [h, Bool.and_self])
  all_goals simp only [h]

def wellPutB (s : State) (op used c : Nat) : Bool :=
  decide ((wordOf s 0x1000 7).toNat % 8 = 0) && decide (dbits (wordOf s 0x1000 0) 7 0 = op) && decide (dbits (wordOf s 0x1000 0) 13 8 = c) &&
  decide (SMap.look s.hub.allot c 0 = 2) && decide ((s.ctx c).used = !(op == 1)) && decide (dbits (wordOf s 0x1000 0) 63 14 = 0) &&
  (List.range 7).all fun i => decide (i ≤ used) || decide (wordOf s 0x1000 i = 0)

theorem wellPut_of {s : State} {op used c : Nat} (h : wellPutB s op used c = true) : WellPut s 1 0x1000 op used c := by
  simp only [wellPutB, Bool.and_eq_true, decide_eq_true_eq, List.all_eq_true, List.mem_range, Bool.or_eq_true] at h
  have z := h.2
  constructor
  case zeros => exact ⟨h.1.2, fun i hi hj => (z i hj).resolve_left (by omega)⟩
  all_goals simp only [h, Owns]

/-- Commands with a completion word out of alignment, an unknown OP, a context that is not the tenant's, and a nonzero field. -/
theorem test_meets_commands :
    (let s := sT sW [0x105, 3, 0, 0, 0, 0, 0, 4]; Commanded s 1 0x1000 [] ∧ (wordOf s 0x1000 7).toNat % 8 ≠ 0) ∧
    (let s := sT sW [0x10C]; Commanded s 1 0x1000 [] ∧ 11 < dbits (wordOf s 0x1000 0) 7 0) ∧
    (let s := sT sW [0x405, 3]; Commanded s 1 0x1000 [] ∧ SMap.look s.hub.allot (dbits (wordOf s 0x1000 0) 13 8) 0 ≠ 1 + 1) ∧
    (let s := sT sW [0x105, 3, 7]; Commanded s 1 0x1000 [] ∧ (s.ctx 1).used = true ∧ wordOf s 0x1000 2 ≠ 0) :=
  ⟨⟨commanded_of (by decide +kernel), by decide +kernel⟩, ⟨commanded_of (by decide +kernel), by decide +kernel⟩, ⟨commanded_of (by decide +kernel), by decide +kernel⟩,
    ⟨commanded_of (by decide +kernel), by decide +kernel⟩⟩

/-- CREATE of context 2 from the descriptor at host address 0x2000: good, one of another tenant, an enclave's. -/
def sCreate (tn encl : Nat) : State :=
  let u := sT sW [0x201, 0x2000, 5]
  let l := [(0, 8, 0x400000), (8, 8, 0x3000), (0x18, 1, 12), (0x19, 1, tn), (0x1A, 1, encl), (0x32, 2, 1)]
  { u with mem := l.foldl (fun m (e : Nat × Nat × Nat) => Memory.setLe m (hostLoc (0x2000 + e.1)) e.2.1 e.2.2) u.mem }

theorem test_meets_create :
    (Commanded (sCreate 1 0) 1 0x1000 [] ∧ WellPut (sCreate 1 0) 1 0x1000 1 2 2 ∧ (wordOf (sCreate 1 0) 0x1000 1).toNat = 0x2000 ∧ (wordOf (sCreate 1 0) 0x1000 2).toNat < 8 ∧
      GoodDescriptor 1 (Memory.bytes (sCreate 1 0).mem (hostLoc 0x2000) 256) ∧ fieldAt (Memory.bytes (sCreate 1 0).mem (hostLoc 0x2000) 256) 0x1A 1 = 0) ∧
    ¬ GoodDescriptor 1 (Memory.bytes (sCreate 2 0).mem (hostLoc 0x2000) 256) ∧
    (GoodDescriptor 1 (Memory.bytes (sCreate 1 1).mem (hostLoc 0x2000) 256) ∧ ((sCreate 1 1).tenant 1).tdi ≠ .run) ∧
    (let s := sT sW [0x201, 0x2010, 5]; WellPut s 1 0x1000 1 2 2 ∧ (wordOf s 0x1000 1).toNat % 256 ≠ 0) := by
  refine ⟨⟨commanded_of (by decide +kernel), wellPut_of (by decide +kernel), by decide +kernel, by decide +kernel, ?_, by decide +kernel⟩, ?_, ⟨?_, by decide +kernel⟩,
    wellPut_of (by decide +kernel), by decide +kernel⟩ <;> unfold GoodDescriptor <;> decide +kernel

/-- sG with one group in the crew, and contexts ranging over core 0. -/
def sOne : State :=
  { sG with
    groups := [(0, gM)], ctxs := sG.ctxs.map fun e => (e.1, { e.2 with scount := 1 })
    hub := { sG.hub with crews := [(0, { crew0 with gids := [0] })] } }

/-- The same crew pre-empted, without tiles; its group is kept as 32768. -/
def sAway : State :=
  { sOne with
    groups := [(32768, gM)], cores := []
    hub := { sOne.hub with crews := [(0, { crew0 with gids := [32768], away := 1, tiles := 0 })] } }

theorem atRest_of {s : State} {c w g : Nat} {x : Crew} (h : s.hub.crews = [(w, x)] ∧ (x.away = 0 ∧ x.ctx = c ∧ x.gids = [g]) ∧
    (g < 18432 ∧ coreOf g = x.core ∧ x.core < 768) ∧ ((s.grp g).used = true ∧ (s.grp g).ctx = c ∧ (s.grp g).flights = [] ∧ (s.grp g).runAhead = none ∧
    (s.grp g).chunk.count = 0) ∧ s.session? c = none ∧ ((s.core x.core).cmds = [] ∧ (s.core x.core).maps = []) ∧ s.cmdsHold x.gids = false) : AtRest s c w g x := by
  constructor
  case done => exact h.2.2.2.2.2.2
  all_goals simp only [h, and_self]

/-- TERMINATE of a context without groups; PREEMPT and RETURN outside the context's range, of nothing, of a crew of one group. -/
theorem test_meets_switching :
    (let s := sT { sW with groups := [] } [0x102]
     Commanded s 1 0x1000 [] ∧ WellPut s 1 0x1000 2 0 1 ∧ (∀ g, (s.grp g).used = true → (s.grp g).ctx ≠ 1) ∧ (∀ e ∈ s.hub.launches, e.2.ctx ≠ 1) ∧ SMap.wf Ctx.none s.ctxs = true ∧
     s.session? 1 = none ∧ (s.tenant 1).errorRing.rctl = 0) ∧
    (let s := sT sOne [0x103, 0, 2]; Commanded s 1 0x1000 [] ∧ WellPut s 1 0x1000 3 2 1 ∧ (s.ctx 1).sfirst + (s.ctx 1).scount < (wordOf s 0x1000 1).toNat + (wordOf s 0x1000 2).toNat) ∧
    (∀ e ∈ sW.hub.crews, e.2.ctx ≠ 1) ∧ (∀ e ∈ sW.hub.crews, e.2.away ≠ 3) ∧
    (let s := sT sOne [0x103, 0, 1]
     Commanded s 1 0x1000 [] ∧ WellPut s 1 0x1000 3 2 1 ∧ AtRest s 1 0 0 { crew0 with gids := [0] } ∧
     (let v := s.onGrp 0 fun z => { z with leaving := true }
      v.savePages 1 0 .w 16 = (.inr ((List.range 16).map fun i => rawOf .p 0x600000 (65536 * i)), v))) := by
  refine ⟨⟨commanded_of (by decide +kernel), wellPut_of (by decide +kernel), ?_, by decide +kernel⟩,
    ⟨commanded_of (by decide +kernel), wellPut_of (by decide +kernel), by decide +kernel⟩, by decide, by decide,
    ⟨commanded_of (by decide +kernel), wellPut_of (by decide +kernel), atRest_of (by decide +kernel), by decide +kernel⟩⟩
  intro g hg; cases hg

theorem test_meets_return :
    let x := { crew0 with gids := [32768], away := 1, tiles := 0 }
    let s := sT sAway [0x104, 0, 1]
    let v := s.onHub (fun h => { h with crews := [(0, { x with away := 3 })] })
    Commanded s 1 0x1000 [] ∧ WellPut s 1 0x1000 4 2 1 ∧ s.hub.crews = [(0, x)] ∧ (v.backAt 0 { x with away := 3 } true).isSome = true ∧
    v.savePages 1 0 .r 16 = (.inr ((List.range 16).map fun i => rawOf .p 0x600000 (65536 * i)), v) ∧ s.session? 1 = none ∧ (s.ctx 1).collAway = [] ∧ (s.ctx 1).binsAway = [] ∧
    (s.ctx 1).mapsBack = [] ∧ s.hub.queueReqs = [] ∧ s.hub.faults = [] ∧ (s.grp 32768).used = true ∧ (∀ i, i < 24 → (s.grp (24 * 0 + i)).used = false) ∧
    (let w := { v with cores := [(0, { Core.idle with unavailable := true })] }; w.backAt 0 { x with away := 3 } true = none) :=
  ⟨commanded_of (by decide +kernel), wellPut_of (by decide +kernel), by decide +kernel⟩

/-- An enclave context 3 with a page of its region at 0x10000; REFILL, SHOOT, POOL and SHARE, good and bad. -/
def sEncl : State :=
  { sW with ctxs := [(3, { Ctx.none with used := true, tenant := 1, encl := true, ptroot := 0x400000 })], mem := sW.mem.map fun e => if e.1 = 0x400009 then (e.1, 0x0F) else e }

theorem test_meets_settings :
    (let s := sT sW [0x105, 3]; Commanded s 1 0x1000 [] ∧ WellPut s 1 0x1000 5 1 1 ∧ (wordOf s 0x1000 1).toNat < 2 ^ 32) ∧
    (let s := sT sW [0x105, 0x100000000]; WellPut s 1 0x1000 5 1 1 ∧ 2 ^ 32 ≤ (wordOf s 0x1000 1).toNat) ∧
    (let s := sT sW [0x106, 0x10000, 0x10000, 1]; WellPut s 1 0x1000 6 3 1 ∧ (wordOf s 0x1000 1).toNat % 65536 = 0 ∧ canonical (wordOf s 0x1000 1) = true ∧ (wordOf s 0x1000 3).toNat ≤ 1) ∧
    (let s := sT sW [0x106, 0x10001]; WellPut s 1 0x1000 6 3 1 ∧ (wordOf s 0x1000 1).toNat % 65536 ≠ 0) ∧
    (let s := sT sW [0x107, 0x600000, 1]; WellPut s 1 0x1000 7 2 1 ∧ (wordOf s 0x1000 1).toNat = 3 * 2 ^ 21 ∧ SMap.look s.hub.window 3 0 = 2 ∧ wordOf s 0x1000 2 = 1 ∧ (s.ctx 1).encl = false) ∧
    (let s := sT sW [0x107, 0x600000, 0]; WellPut s 1 0x1000 7 2 1 ∧ wordOf s 0x1000 2 = 0 ∧ (∃ n ∈ (List.range 28).map (32 * 3 + ·), n ∉ s.hub.pool) ∧
      (∀ n ∈ (List.range 28).map (32 * 3 + ·), n ∈ ({ s.hub with pool := (List.range 28).map (96 + ·) }).pool)) ∧
    (let s := sT sEncl [0x307, 0x600000, 1]; WellPut s 1 0x1000 7 2 3 ∧ (s.ctx 3).encl = true ∧ SMap.look ({ s.hub with formats := [(3, .u)] }).formats 3 .p ≠ .p) ∧
    (let s := sT sW [0x108, 0x10000, 6]; WellPut s 1 0x1000 8 2 1 ∧ SMap.look s.hub.window ((wordOf s 0x1000 1).toNat / 2 ^ 21) 0 ≠ 2) ∧
    (let s := sT sW [0x108, 0x610000, 6]; WellPut s 1 0x1000 8 2 1 ∧ SMap.look s.hub.window ((wordOf s 0x1000 1).toNat / 2 ^ 21) 0 = 2) := by
  refine ⟨⟨commanded_of (by decide +kernel), wellPut_of (by decide +kernel), by decide +kernel⟩, ⟨wellPut_of (by decide +kernel), by decide +kernel⟩,
    ⟨wellPut_of (by decide +kernel), by decide +kernel⟩, ⟨wellPut_of (by decide +kernel), by decide +kernel⟩, ⟨wellPut_of (by decide +kernel), by decide +kernel⟩,
    ⟨wellPut_of (by decide +kernel), by decide +kernel⟩, ⟨wellPut_of (by decide +kernel), by decide +kernel⟩, ⟨wellPut_of (by decide +kernel), by decide +kernel⟩,
    wellPut_of (by decide +kernel), by decide +kernel⟩

/-- SEALIN of one byte to an enclave and to none; REKEY at a page of the region and at another; ATTEST with leaves left and none. -/
theorem test_meets_enclaves :
    (let s := sT sEncl [0x309, 0x3000, 0x10000, 1]
     Commanded s 1 0x1000 [] ∧ WellPut s 1 0x1000 9 3 3 ∧ (s.ctx 3).encl = true ∧ s.devSpot 3 0x10000 .w = (.loc 0x200000 0 true, s) ∧ (wordOf s 0x1000 2).toNat % 65536 + (wordOf s 0x1000 3).toNat ≤ 65536 ∧
     ∀ b : Byte, ∃ m, ∀ z, Memory.byte m z =
       (List.range (wordOf s 0x1000 3).toNat).foldl (fun f i => putBytes (s.locPlus 0x200000 i) [[b].getD i 0] f) (Memory.byte s.mem) z) ∧
    (let s := sT sW [0x109, 0x3000, 0x10000, 1]; WellPut s 1 0x1000 9 3 1 ∧ (s.ctx 1).encl = false) ∧
    (let s := sT sEncl [0x30A, 0x10000]; WellPut s 1 0x1000 10 1 3 ∧ (s.devWalk 3 (wordOf s 0x1000 1)).1 = .leaf { ctx := 3, base := 0x10000, size := 65536, pte := 0x200F01 }) ∧
    (let s := sT sEncl [0x30A, 0x20000]; WellPut s 1 0x1000 10 1 3 ∧ (s.devWalk 3 (wordOf s 0x1000 1)).1 = .leaf { ctx := 3, base := 0x20000, size := 65536, pte := 0x210E03 }) ∧
    (let s := sT sEncl [0x30B, 0x2000, 0x3000]; Commanded s 1 0x1000 [] ∧ WellPut s 1 0x1000 11 2 3 ∧ s.hub.reports < 2 ^ 20 ∧ 2 ^ 20 ≤ ({ s.hub with reports := 2 ^ 20 }).reports) := by
  refine ⟨⟨commanded_of (by decide +kernel), wellPut_of (by decide +kernel), by decide +kernel, by decide +kernel, by decide +kernel, ?_⟩, ⟨wellPut_of (by decide +kernel), by decide +kernel⟩,
    ⟨wellPut_of (by decide +kernel), by decide +kernel⟩, ⟨wellPut_of (by decide +kernel), by decide +kernel⟩, commanded_of (by decide +kernel), wellPut_of (by decide +kernel), by decide +kernel⟩
  intro b
  have h1 : (wordOf (sT sEncl [0x309, 0x3000, 0x10000, 1]) 0x1000 3).toNat = 1 := by decide +kernel
  have h2 : (sT sEncl [0x309, 0x3000, 0x10000, 1]).locPlus 0x200000 0 = 0x200000 := by decide +kernel
  have hw : (sT sEncl [0x309, 0x3000, 0x10000, 1]).mem.wf = true := by decide +kernel
  refine ⟨Memory.setBytes (sT sEncl [0x309, 0x3000, 0x10000, 1]).mem 0x200000 [b], fun z => ?_⟩
  rw [h1]
  simp only [List.range_one, List.foldl_cons, List.foldl_nil, h2, putBytes, List.getD_cons_zero, List.length_singleton]
  by_cases e : z = 0x200000
  · subst e; simpa using Memory.byte_setBytes_in (i := 0) [b] hw (by simp)
  · rw [if_neg (by omega)]; exact Memory.byte_setBytes_out [b] hw (by simp; omega)

/-- R350, R299, R274: a refused command's completion word; a budget; a shoot-down under way; a context made. -/
theorem test_commands :
    (let s := sT sW [0x405, 3, 0, 0, 0, 0, 0, 0x5000]; Memory.le (after (.refill 1) s).mem (hostLoc 0x5000) 8 = 0x102) ∧
    ((after (.refill 1) (sT sW [0x105, 3])).ctx 1).errbud = 3 ∧ (after (.shoot 1) (sT sW [0x106, 0x10000, 0x10000, 0])).hub.shoots.map (·.base) = [0x10000] ∧
    ((after (.create 1) (sCreate 1 0)).ctx 2).tvec = 0x3000 ∧ ((after (.terminate 1) (sT { sW with groups := [] } [0x102])).ctx 1).used = false := by
  decide +kernel

/-! ### Registers, sessions and the sampler -/

/-- sW in test mode, with tenant 1's session slot 0 and context 1 allotted to it. -/
def sS (x : Session) : State :=
  { sW with
    tenants := [(1, { Tenant.reset with sessions := vset (Vector.replicate 4 Session.reset) 0 x })]
    hub := { sW.hub with allot := [(1, 2)], testMode := true } }

/-- A recording of context 1, of 64 KiB at 0x10000, open or not; a replay. -/
def rec1 (open_ : Nat) : Session := { Session.reset with lctl := BitVec.ofNat 64 (0x400 + open_), lbase := 0x10000, lsize := 16 }
def rep1 (open_ : Nat) : Session := { rec1 open_ with lctl := BitVec.ofNat 64 (0x402 + open_) }

theorem only_sS (x : Session) : OnlySession (sS x) 1 0 := by
  intro i j h
  have h1 : ∀ k, vat Tenant.reset.sessions k Session.reset = Session.reset := by
    intro k; simp only [vat, Tenant.reset]; split <;> simp
  have h2 : ∀ k < 4, k ≠ 0 → vat (vset (Vector.replicate 4 Session.reset) 0 x) k Session.reset = Session.reset := by
    intro k hk h0; simp [vat, vset, hk, Ne.symm h0]
  simp only [State.sess, State.tenant, sS, SMap.look]
  split
  · subst i
    by_cases hj : j < 4
    · rw [h2 j hj (fun e => h (by rw [e]))]; rfl
    · simp only [vat, hj, dite_false]; rfl
  · split <;> rw [h1] <;> rfl

/-- Consumer pointers that move, are refused, let a held fault in. -/
theorem test_meets_rings :
    let r : Ring := { Ring.reset with rctl := 1, rlog2 := 12, rwr := 64, rrd := 32 }
    let s := { withF (rec0 0x50000 0 4 0) with tenants := [(1, { Tenant.reset with faultRing := r })] }
    r = ringOf s 1 false ∧ s.hub.doomed = [] ∧ SMap.wf Tenant.reset s.tenants = true ∧ (33 : Dword).toNat % 32 ≠ 0 ∧ (0 : Dword).toNat < r.rrd.toNat ∧ r.rwr.toNat < (96 : Dword).toNat ∧
    (64 : Dword).toNat % 32 = 0 ∧ r.rrd.toNat ≤ (64 : Dword).toNat ∧ (64 : Dword).toNat ≤ r.rwr.toNat ∧ s.mem.wf = true ∧
    s.hub.faults.filter (fun e => e.2.stage == 4 && (s.ctx e.2.ctx).tenant == 1) = [(0, rec0 0x50000 0 4 0)] ∧ r.rctl.getLsbD 0 = true ∧ r.rwr.toNat + 32 - (64 : Dword).toNat ≤ r.size ∧
    sW.hub.faults.filter (fun e => e.2.stage == 4 && (sW.ctx e.2.ctx).tenant == 1) = [] := by
  decide +kernel

/-- Sessions to open, with reason 1 against it, open already; to close, closing, with and without records left. -/
theorem test_meets_sessions :
    (let s := sS (rec1 0)
     s.hub.doomed = [] ∧ SMap.wf Tenant.reset s.tenants = true ∧ rec1 0 = s.sess 1 0 ∧ (0x401 : Dword).getLsbD 0 = true ∧ (rec1 0).en = false ∧
     OpenCode (s.onSess 1 0 fun _ => { rec1 0 with lctl := lctlOf 0x401 }) 1 { rec1 0 with lctl := lctlOf 0x401 } 0 ∧ ({ rec1 0 with lctl := lctlOf 0x401 } : Session).replay = false) ∧
    (let x := { rec1 0 with lsize := 0 }
     OpenCode ((sS x).onSess 1 0 fun _ => { x with lctl := lctlOf 0x401 }) 1 { x with lctl := lctlOf 0x401 } 1) ∧
    ((sS (rec1 1)).sess 1 0 = rec1 1 ∧ (rec1 1).en = true ∧ withBits (rec1 1).lctl 0 0 0 = lctlOf 0x400 ∧ (rec1 1).closing = false ∧ (rec1 1).replay = false) ∧
    (let x := { rec1 1 with closing := true, bufs := vset Session.reset.bufs 3 [leBytes 8 0x800] }
     x.closing = true ∧ ((sS x).ctx x.ctx).used = true ∧ x.replay = false ∧ ∃ b ∈ x.bufs.toList, b ≠ []) ∧
    (let x := { rec1 1 with closing := true }
     let s := { sS x with groups := [] }
     s.gidsCtx x.ctx = [] ∧ x.replay = false ∧ x.bufs = Session.reset.bufs ∧ x.horizon = false ∧ (s.ctx x.ctx).encl = false) := by
  refine ⟨⟨by decide +kernel, by decide +kernel, by decide +kernel, by decide +kernel, by decide +kernel, ?_, by decide +kernel⟩, ?_, by decide +kernel⟩
  · refine .inr (.inr (.inr (.inr (.inr ⟨by decide +kernel, by decide +kernel, ?_, by decide +kernel, by decide +kernel, rfl⟩))))
    rintro ⟨i, h1, h2⟩
    have e : dbits (rec1 0).lsize 5 0 = 16 := by decide
    have h3 : 65536 * i < 2 ^ 16 := by simpa [e] using h1
    have : i = 0 := by omega
    subst this
    revert h2
    decide +kernel
  · exact .inl ⟨by decide +kernel, rfl⟩

/-- Records in the ring: LRD moves to a record's start or end, or elsewhere; LWR brings a record of a kind, or one of none; pauses. -/
theorem test_meets_pointers :
    (let x := { rec1 1 with lwr := 16 }
     x.replay = false ∧ (sS x).ringGet x x.lrd.toNat 8 = some (leBytes 8 9) ∧ x.lrd.toNat + 8 * (recField (leBytes 8 9) 6 5 + 1) = 8 ∧ (8 : Dword).toNat < x.lwr.toNat ∧
     x.lrd.toNat < (4 : Dword).toNat ∧ x.lwr.toNat < (24 : Dword).toNat ∧ (24 : Dword) ≠ x.lwr) ∧
    ((rep1 0).replay = true ∧ (rep1 0).en = false) ∧
    (let x := rep1 1
     let u := (sS x).onSess 1 0 fun _ => { x with lwr := 8 }
     x.en = true ∧ ((sS x).ctx x.ctx).encl = false ∧ x.log = [] ∧ u.ringGet (u.sess 1 0) x.lrd.toNat 8 = some (leBytes 8 9) ∧ x.lrd.toNat + 8 ≤ (8 : Dword).toNat ∧
     recKind (leBytes 8 9) = 0 ∧ u.session? x.ctx = some (1, 0) ∧ ({ sS x with groups := [] }).gidsCtx x.ctx = [] ∧ x.lstat.getLsbD 2 = false ∧
     (let v := { u with mem := (0x200001, 8) :: u.mem.drop 1 }
      v.ringGet (v.sess 1 0) 0 8 = some (leBytes 8 0x800) ∧ recKind (leBytes 8 0x800) ∈ [1, 3, 4, 5, 6, 7, 8, 9, 10, 12] ∧ 8 * (recField (leBytes 8 0x800) 6 5 + 1) = 8)) ∧
    (let x := { rep1 1 with lstat := 0xC, lstop := 0x8000000000000005 }
     (0xC : Dword).getLsbD 2 = true ∧ x.lstat.getLsbD 2 = true ∧ x.lstat.getLsbD 3 = true ∧ x.lstop.getLsbD 63 = true ∧ vat x.order (dbits x.lstop 51 48) 0 ≤ dbits x.lstop 47 0 ∧
     dbits x.lstop 47 0 < vat (vset x.order 0 6) (dbits x.lstop 51 48) 0) := by
  decide +kernel

/-- A recorder's oldest record with and without room in the ring, and one that waits for the session's SESSION record. -/
theorem test_meets_spill :
    let r := leBytes 8 0x800
    let x := { rec1 1 with bufs := vset Session.reset.bufs 3 [r], lwr := 8 }
    let s := sS x
    OnlySession s 1 0 ∧ Calm s ∧
    (s.sess 1 0 = x ∧ vat x.bufs 3 [] = [r] ∧ vat x.bufs 2 [] = [] ∧ (∀ b ∈ vat x.bufs 12 [], recKind b ≠ 0x1E) ∧ x.en = true ∧ x.replay = false ∧
     x.horizon = false ∧ (s.ctx x.ctx).encl = false ∧ x.pad r.length = 0 ∧ x.lwr.toNat + r.length - x.lrd.toNat + 64 ≤ 2 ^ dbits x.lsize 5 0 ∧ r.length = 8 * 1 ∧
     isSpad (0x200008 + r.length) = false) ∧
    ((∃ b ∈ vat (vset x.bufs 12 [mkRec 0x1E 24 15 []]) 12 [], recKind b = 0x1E) ∧
     let x := { rec1 1 with lwr := 65536 }; 2 ^ dbits x.lsize 5 0 < x.lwr.toNat + 8 - x.lrd.toNat + 64 ∧ dbits x.lctl 3 2 ≠ 1) ∧
    ∀ i v, i < 1 → v = s.setMem (Memory.setBytes s.mem 0x200008 (r.take (8 * i))) → v.devSpot x.ctx (x.at_ (x.lwr.toNat + 8 * i)) .w = (.loc (0x200008 + 8 * i) 0 false, v) := by
  refine ⟨only_sS _, ⟨fun _ => rfl, rfl, rfl, rfl⟩, by decide +kernel, by decide +kernel, fun i v hi hv => ?_⟩
  have : i = 0 := by omega
  subst this hv
  decide +kernel

/-- A mailbox command, allotments and windows; a sample's premises. -/
theorem test_meets_samples :
    (let m := vset (vset Tenant.reset.mailbox 0 0x50002) 7 9; m = vset ({ Tenant.reset with mailbox := vset Tenant.reset.mailbox 0 0x50002 }).mailbox 7 9 ∧ dbits (vat m 0 0) 7 0 = 2 ∧
      dbits (vat m 0 0) 25 16 = 5) ∧
    (sW.ctx 5).used = false ∧ State.reset.frameHeld 9 = false ∧
    (let s := { sS (rec1 0) with
       cores := [(0, { Core.idle with cycles := 1048576 })]
       tenants := [(1, { Tenant.reset with sampleRing := { SRing.reset with slog2 := 16, sen := 2 } })] }
     let r := (s.tenant 1).sampleRing
     (s.core 0).cycles % 2 ^ (s.core 0).sampleK = 0 ∧ (s.core 0).cycles ≠ (s.core 0).sampledAt ∧ s.mem.wf = true ∧ (s.grp 0).used = true ∧ (s.ctx (s.grp 0).ctx).tenant = 1 ∧
     (s.grp 0).ctx < 64 ∧ (s.grp 0).wait.code < 32 ∧ r.sen.getLsbD 1 = true ∧ (s.ctx 1).encl = false ∧ r.lost = 0 ∧ r.swr.toNat % r.size + 16 ≤ r.size ∧ r.swr.toNat + 32 - r.srd.toNat ≤ r.size) ∧
    (∀ h, h / 24 = 0 → h ≠ 0 → (sW.grp h).used = false) ∧ (∀ i, i < 24 → (State.reset.grp (24 * 0 + i)).used = false) := by
  refine ⟨by decide +kernel, by decide +kernel, by decide +kernel, by decide +kernel, ?_, by decide +kernel⟩
  intro h h1 h2
  have : ∀ h < 24, h ≠ 0 → (sW.grp h).used = false := by decide +kernel
  exact this h (by omega) h2

/-- R314, R349 to R352: a session opens; a refused one says why; a command's address, its overflow; a ring's base. -/
theorem test_registers :
    ((after (.registerWrite 1 0x4010 0x401) (sS (rec1 0))).sess 1 0).lctl = 0x401 ∧
    ((after (.registerWrite 1 0x4010 0x401) (sS { rec1 0 with lsize := 0 })).sess 1 0).lstat = 0x100 ∧
    ((after (.registerWrite 1 0x2000 0x41) sW).tenant 1).align = true ∧ ((after (.registerWrite 1 0x2000 0x40) sW).tenant 1).cmds = [0x40] ∧
    ((after (.registerWrite 1 0x3000 0x12345) sW).tenant 1).faultRing.rbase = 0x12000 ∧ ((after (.registerWrite 1 0x1000 0x12345) sW).subq 1 0).qbase = 0x12005 := by
  decide +kernel

/-! ### Debug registers and commands -/

/-- Breakpoints at core 0: one of context 1, which is tenant 1's, and one of context 2, which is not. -/
def sD : State :=
  { sW with
    cores := [(0, { Core.idle with breaks := [(0, { bpa := 0x1000, bpc := 0x401 }), (1, { bpa := 0x1000, bpc := 0x801 })], watches := [(0, { wpa := 0x1000, wpl := 0x1010, wpc := 0x401 })] })]
    hub := { sW.hub with allot := [(1, 2)] } }

theorem test_meets_debug_registers :
    (let b : BreakReg := { bpa := 0x1000, bpc := 0x401 }
     b = SMap.look (sD.core 0).breaks 0 { bpa := 0, bpc := 0 } ∧ b = breakFrom b.bpa b.bpc ∧ WriteCode sD 1 b.bpc b.bpc (dbits b.bpc 21 20 ≠ 3) 0 ∧
     WriteCode sD 1 b.bpc (breakFrom 0 0x801).bpc (dbits (breakFrom 0 0x801).bpc 21 20 ≠ 3) 1 ∧ WriteCode sD 1 b.bpc (breakFrom 0 0x300401).bpc (dbits (breakFrom 0 0x300401).bpc 21 20 ≠ 3) 2) ∧
    (let w : WatchReg := { wpa := 0x1000, wpl := 0x1010, wpc := 0x401 }
     w = SMap.look (sD.core 0).watches 0 { wpa := 0, wpl := 0, wpc := 0 } ∧ w.wpc = (watchFrom 0 0 w.wpc).wpc ∧ WriteCode sD 1 w.wpc w.wpc (WatchFits { w with wpl := 0x1020 }) 0 ∧
     WriteCode sD 1 w.wpc w.wpc (WatchFits { w with wpl := 0x800 }) 2) ∧
    (let s := { sD with ctxs := [(1, { Ctx.none with used := true, tenant := 1, encl := true })] }
     WriteCode s 1 0x401 0x401 (dbits (0x401 : Dword) 21 20 ≠ 3) 3) := by
  have f1 : ¬ Foreign sD 1 0x401 := by unfold Foreign; decide +kernel
  have u1 : ¬ Undebuggable sD 0x401 := by unfold Undebuggable; decide +kernel
  have n1 : ¬ (Foreign sD 1 0x401 ∨ Foreign sD 1 0x401) := fun h => h.elim f1 f1
  have w1 : WatchFits { wpa := 0x1000, wpl := 0x1020, wpc := 0x401 } := by unfold WatchFits; decide +kernel
  have w2 : ¬ WatchFits { wpa := 0x1000, wpl := 0x800, wpc := 0x401 } := by unfold WatchFits; decide +kernel
  refine ⟨⟨by decide +kernel, by decide +kernel, .inr (.inr (.inr ⟨n1, by decide +kernel, u1, rfl⟩)), .inl ⟨.inr ?_, rfl⟩, .inr (.inl ⟨?_, by decide +kernel, rfl⟩)⟩,
    ⟨by decide +kernel, by decide +kernel, .inr (.inr (.inr ⟨n1, w1, u1, rfl⟩)), .inr (.inl ⟨n1, w2, rfl⟩)⟩, .inr (.inr (.inl ⟨?_, by decide +kernel, ?_, rfl⟩))⟩ <;>
    (try unfold Foreign) <;> (try unfold Undebuggable) <;> decide +kernel

/-- A command from the host in core 0's debug unit, with its reply at host address 0x6000; w1 to w3 are doublewords 1 to 3. -/
def cmdD (op ctx : Nat) (w : List Dword) : DbgCmd :=
  { msg := vset (vset (vset (vset (vset (Vector.replicate 8 0) 0 (BitVec.ofNat 64 (2 + 256 * op + 2 ^ 26 * ctx))) 1 (w.getD 0 0)) 2 (w.getD 1 0)) 3 (w.getD 2 0)) 7 0x6000
    host := true, tenant := 1, ctx := 0, waiting := [], begun := false }

def sCmd (d : DbgCmd) (halted : Bool) : State :=
  { sD with
    groups := [(0, { gW with halted := halted, ordinal := 5 })]
    cores := sD.cores.map fun e => (e.1, { e.2 with dbg := [d] }) }

theorem debugs_of {d : DbgCmd} {b : Bool} (hh : d.host = true) (hw : SMap.wf Core.idle (sCmd d b).cores = true) : Debugs (sCmd d b) 0 d [] := by
  refine ⟨by decide, by simp [sCmd, sD, State.core, SMap.look], rfl, .inl ⟨hh, rfl⟩, no_session _ _ rfl, ⟨?_, ?_, hw⟩⟩
  · show sW.mem.wf = true; decide +kernel
  · cases b
    · exact (show SMap.wf Group.idle [(0, { gW with halted := false, ordinal := 5 })] = true by decide +kernel)
    · exact (show SMap.wf Group.idle [(0, { gW with halted := true, ordinal := 5 })] = true by decide +kernel)

theorem names_of {d : DbgCmd} {b : Bool} (h1 : dbits (vat d.msg 0 0) 31 26 = 1) (h2 : dbits (vat d.msg 1 0) 14 0 = 5) : Names (sCmd d b) 0 d 0 := by
  refine ⟨by decide, ?_, ?_⟩
  · rw [h1, h2]; cases b <;> exact ⟨rfl, rfl, rfl⟩
  · intro h hu _ _
    by_cases e : h = 0
    · exact e
    · exfalso
      have : (sCmd d b).grp h = Group.idle := by
        simp only [sCmd, State.grp, SMap.look]
        rw [if_neg (Ne.symm e)]
        split <;> rfl
      rw [this] at hu; cases hu

/-- Commands of the owner and of another tenant, an enclave's context, an unknown OP, no such group, one that is not halted, a group away. -/
theorem test_meets_debug_commands :
    Debugs (sCmd (cmdD 9 1 []) false) 0 (cmdD 9 1 []) [] ∧ (8 < dbits (vat (cmdD 9 1 []).msg 0 0) 15 8) ∧
    (Debugs (sCmd (cmdD 6 2 []) false) 0 (cmdD 6 2 []) [] ∧ SMap.look (sCmd (cmdD 6 2 []) false).hub.allot 2 0 ≠ 1 + 1) ∧
    (Debugs (sCmd (cmdD 6 1 [7]) false) 0 (cmdD 6 1 [7]) [] ∧ SMap.look (sCmd (cmdD 6 1 [7]) false).hub.allot 1 0 = 2 ∧ ((sCmd (cmdD 6 1 [7]) false).ctx 1).encl = false ∧
      ∀ g, ((sCmd (cmdD 6 1 [7]) false).grp g).used = true → ((sCmd (cmdD 6 1 [7]) false).grp g).ordinal ≠ dbits (7 : Dword) 14 0) ∧
    Names (sCmd (cmdD 6 1 [5]) false) 0 (cmdD 6 1 [5]) 0 ∧ ((sCmd (cmdD 6 1 [5]) false).grp 0).halted = false ∧
    (let s : State := { sD with
       groups := [(32768, { gW with ordinal := 5, crew := 0 })], hub := { sD.hub with crews := [(0, { crew0 with away := 1, gids := [32768] })] } }
     s.ordinalOn 0 1 5 = some 32768) ∧
    (let s : State := { sD with ctxs := [(1, { Ctx.none with used := true, tenant := 1, encl := true })] }
     (s.ctx 1).encl = true ∧ (s.ctx 1).policy.getLsbD 2 = false) := by
  refine ⟨debugs_of rfl (by decide +kernel), by decide, ⟨debugs_of rfl (by decide +kernel), by decide⟩,
    ⟨debugs_of rfl (by decide +kernel), by decide, by decide, ?_⟩, names_of (by decide) (by decide), by decide, by decide +kernel, by decide⟩
  · intro g hu
    by_cases e : g = 0
    · subst e; decide +kernel
    · have : (sCmd (cmdD 6 1 [7]) false).grp g = Group.idle := by
        simp only [sCmd, State.grp, SMap.look]
        rw [if_neg (Ne.symm e)]
        split <;> rfl
      rw [this] at hu; cases hu

/-- Core 0 with a RESUME of a crew of which one group is away. -/
def sHaltedAway : State :=
  { sD with
    groups := [(0, { gW with halted := true, ordinal := 5 }), (32768, { gW with halted := true, ordinal := 6 })]
    cores := sD.cores.map fun e => (e.1, { e.2 with dbg := [cmdD 4 1 [0x10005]] }) }

/-- A RESUME that waits for a group which is away. -/
theorem test_meets_resume_waits :
    Debugs sHaltedAway 0 (cmdD 4 1 [0x10005]) [] ∧ Names sHaltedAway 0 (cmdD 4 1 [0x10005]) 0 ∧ (sHaltedAway.grp 0).halted = true ∧
    InSet sHaltedAway 0 (dbits (vat (cmdD 4 1 [0x10005]).msg 1 0) 17 16) 32768 ∧ (sHaltedAway.grp 32768).halted = true := by
  refine ⟨⟨by decide, by simp [sHaltedAway, sD, State.core, SMap.look], rfl, .inl ⟨rfl, rfl⟩, no_session _ _ rfl, ⟨?_, ?_, by decide +kernel⟩⟩,
    ⟨by decide, by decide +kernel, ?_⟩, by decide +kernel, .inr ⟨by decide +kernel, by decide +kernel, .inl ⟨by decide +kernel, by decide +kernel⟩⟩, by decide +kernel⟩
  · show sW.mem.wf = true; decide +kernel
  · exact (show SMap.wf Group.idle sHaltedAway.groups = true by decide +kernel)
  · intro h hu _ ho
    by_cases e : h = 0
    · exact e
    · exfalso
      by_cases e2 : h = 32768
      · subst e2; revert ho; decide +kernel
      · have : sHaltedAway.grp h = Group.idle := by
          simp only [sHaltedAway, State.grp, SMap.look]
          rw [if_neg (Ne.symm e)]
          split
          · rfl
          · rw [if_neg (Ne.symm e2)]
            split <;> rfl
        rw [this] at hu; cases hu

/-- WRBP and WRWP of registers in and out of range; SETEV; HALT, RESUME, STEP, RDST and RDV of a group. -/
theorem test_meets_debug_operations :
    (Debugs (sCmd (cmdD 1 1 [0, 0x1004, 0x401]) false) 0 (cmdD 1 1 [0, 0x1004, 0x401]) [] ∧
      WriteCode (sCmd (cmdD 1 1 [0, 0x1004, 0x401]) false) 1 0x401 (breakFrom 0x1004 0x401).bpc (dbits (breakFrom 0x1004 0x401).bpc 21 20 ≠ 3) 0) ∧
    (Debugs (sCmd (cmdD 1 1 [8]) false) 0 (cmdD 1 1 [8]) [] ∧ 8 ≤ (8 : Dword).toNat) ∧
    (Debugs (sCmd (cmdD 2 1 [0x0100000000001000, 0x1010, 0x401]) false) 0 (cmdD 2 1 [0x0100000000001000, 0x1010, 0x401]) [] ∧ dbits (0x0100000000001000 : Dword) 63 58 = 0 ∧
      WatchFits (watchFrom 0x1000 0x1010 0x401) ∧ dbits (0x0400000000000000 : Dword) 63 58 ≠ 0) ∧
    (Debugs (sCmd (cmdD 8 1 [0x40]) false) 0 (cmdD 8 1 [0x40]) [] ∧ (0x40 : Dword).toNat % 64 = 0 ∧ (0x41 : Dword).toNat % 64 ≠ 0) ∧
    (let s := sCmd (cmdD 3 1 [5]) false
     Debugs s 0 (cmdD 3 1 [5]) [] ∧ Names s 0 (cmdD 3 1 [5]) 0 ∧ (s.tenant (s.ctx 1).tenant).debugRing.sen = 0 ∧
     (∀ h, (s.grp h).ctx = 1 → (s.grp h).runAhead = none ∧ (s.grp h).chunk.count = 0) ∧ ∀ n, (s.core n).setev = none) ∧
    (∀ op ∈ [4, 5, 6, 7], let s := sCmd (cmdD op 1 [5]) true; Debugs s 0 (cmdD op 1 [5]) [] ∧ Names s 0 (cmdD op 1 [5]) 0 ∧ (s.grp 0).halted = true) ∧
    (let f : Nat → Nat := fun n => dbits (BitVec.ofNat 64 (5 + n * 65536)) 22 16; f 3 < min 96 (gW.av) ∧ 96 ≤ f 100 ∧ f 100 < 112 ∧ 112 ≤ f 112 ∧ f 112 < 120 ∧ 120 ≤ f 120 ∧ min 96 gW.av ≤ f 50 ∧ f 50 < 96) := by
  have f1 : ¬ Foreign sD 1 0x401 := by unfold Foreign; decide +kernel
  have u1 : ¬ Undebuggable sD 0x401 := by unfold Undebuggable; decide +kernel
  refine ⟨⟨debugs_of rfl (by decide +kernel), .inr (.inr (.inr ⟨fun h => h.elim f1 f1, by decide +kernel, u1, rfl⟩))⟩,
    ⟨debugs_of rfl (by decide +kernel), by decide⟩, ⟨debugs_of rfl (by decide +kernel), by decide, ?_, by decide⟩,
    ⟨debugs_of rfl (by decide +kernel), by decide⟩,
    ⟨debugs_of rfl (by decide +kernel), names_of (by decide) (by decide), by decide +kernel, ?_, ?_⟩, ?_, by decide +kernel⟩
  · unfold WatchFits; decide +kernel
  · intro h _
    have : (sCmd (cmdD 3 1 [5]) false).grp h = { gW with halted := false, ordinal := 5 } ∨ (sCmd (cmdD 3 1 [5]) false).grp h = Group.idle := by
      simp only [sCmd, State.grp, SMap.look]
      split
      · exact .inl rfl
      · split <;> exact .inr rfl
    rcases this with e | e <;> rw [e] <;> exact ⟨rfl, rfl⟩
  · intro n
    simp only [sCmd, sD, State.core, List.map, SMap.look]
    split
    · rfl
    · split <;> rfl
  · intro op h
    simp only [List.mem_cons, List.not_mem_nil, or_false] at h
    rcases h with rfl | rfl | rfl | rfl <;>
      exact ⟨debugs_of rfl (by decide +kernel), names_of (by decide) (by decide), by decide⟩

/-- The reply's bytes of RDST; a breakpoint written; a halt and its end. -/
theorem test_debug :
    (let t := after (.rdst 0) (sCmd (cmdD 6 1 [5]) true)
     (Memory.le t.mem (hostLoc 0x6000) 8, Memory.le t.mem (hostLoc 0x6008) 8, Memory.le t.mem (hostLoc 0x6018) 8) = (0x682, 0x1000, 27)) ∧
    SMap.look ((after (.wrbp 0) (sCmd (cmdD 1 1 [0, 0x1004, 0x401]) false)).core 0).breaks 0 { bpa := 0, bpc := 0 } = { bpa := 0x1004, bpc := 0x401 } ∧
    ((after (.halt 0) (sCmd (cmdD 3 1 [5]) false)).grp 0).halted = true ∧ ((after (.resume 0) (sCmd (cmdD 4 1 [5]) true)).grp 0).halted = false := by
  decide +kernel

/-- A line of enclave memory whose next write-back takes its sector's minor past 63 (R358). -/
def sCount (major : Nat) : State :=
  { State.reset with
    ctxs := [(3, { Ctx.none with used := true, encl := true })]
    hub := { Hub.reset with encPages := [(32, 4)], encLines := [(0x1000, { major := major, minors := vset (Vector.replicate 8 5) 1 63 })] } }

/-- "The major increments, every minor resets to 0" (R358). -/
theorem test_enclave_minor_wraps :
    SMap.look ((sCount 7).encCount 0x200040).hub.encLines 0x1000 EncLine.fresh = { major := 8, minors := Vector.replicate 8 0 } := by
  decide +kernel

/-- At a major of 2^56 - 2^24 the region is exhausted; one before it, not (R358). -/
theorem test_enclave_exhausts :
    (((sCount (2 ^ 56 - 2 ^ 24 - 1)).encCount 0x200040).ctx 3).exhausted = true ∧
      (((sCount (2 ^ 56 - 2 ^ 24 - 2)).encCount 0x200040).ctx 3).exhausted = false := by decide +kernel

/-! ### The machine as a whole -/

/-- The machine after reset with SADD s1, s2, s3 where its next bundle is fetched. -/
def sFetch : State := State.reset.withFetchWord 32 0x04004103

/-- StepRunsDecoded's premises: the agenda's group with its word in its cluster's L2; and a word that decodes to no instruction. -/
theorem test_meets_step :
    (let u := { sFetch with agenda := [] }
     let w := u.toIssue 0 3
     let v := w.atBundle 0
     Moves sFetch 0 u ∧ u.session? (u.grp 0).ctx = none ∧ v.session? (v.grp 0).ctx = none ∧ w.mayIssue 0 = true ∧ v.ready 0 = true ∧ (w.grp 0).fresh = true ∧ v.breakAt 0 = none ∧ (v.grp 0).underWay = false ∧
     (∀ k, k < [(0x04004103 : Word)].length → WordAt v 0 ((v.grp 0).pc + BitVec.ofNat 64 (4 * k)) (([0x04004103] : List Word).getD k 0)) ∧
     decodeWords [0x04004103] = .ok (.sadd bare 1 2 3) []) ∧
    decodeWords [0x74000000] = .illegal ⟨1, 0x74000000⟩ ∧ decodeWords ([0x74000000] : List Word).dropLast = .short ∧
    WordAt (({ State.reset.withFetchWord 32 0x74000000 with agenda := [] }).atBundle 0) 0 (State.reset.withFetchWord 32 0x74000000 |>.grp 0).pc 0x74000000 := by
  have h : let u := { sFetch with agenda := [] }
      let w := u.toIssue 0 3
      let v := w.atBundle 0
      u.session? (u.grp 0).ctx = none ∧ v.session? (v.grp 0).ctx = none ∧ w.mayIssue 0 = true ∧ v.ready 0 = true ∧ (w.grp 0).fresh = true ∧ v.breakAt 0 = none ∧
        (v.grp 0).underWay = false := by decide +kernel
  refine ⟨⟨.inl ⟨[], rfl, rfl⟩, h.1, h.2.1, h.2.2.1, h.2.2.2.1, h.2.2.2.2.1, h.2.2.2.2.2.1, h.2.2.2.2.2.2, ?_, by decide +kernel⟩,
    by decide +kernel, by decide +kernel, ⟨0, 0, false, by decide +kernel⟩⟩
  intro k hk
  have : k = 0 := by simpa using hk
  subst this
  exact ⟨0, 0, false, by decide +kernel⟩

/-- R101, R445: the step runs the decoded instruction, and the table's word decodes to it; an undecodable word traps. -/
theorem test_step :
    decodeTableWord 32 0x04004103 = some (.sadd bare 1 2 3) ∧ decodeTableWord 32 0x74000000 = none ∧
    (match Machine.step sFetch with | .next t => decide ((t.grp 0).pc = (sFetch.grp 0).pc + 4) | _ => false) = true ∧
    (match Machine.step (State.reset.withFetchWord 32 0x74000000) with | .next t => decide ((t.grp 0).tcause = 1) | _ => false) = true ∧
    (match Machine.step State.reset with | .next _ => true | _ => false) = true := by
  decide +kernel

theorem test_meets_canonical : Canonical State.reset ∧ Canonical sFetch ∧ (∃ t, Machine.step sFetch = .next t) := by
  refine ⟨canonical_of (by decide), canonical_of (by decide +kernel), ?_⟩
  have h := test_step.2.2.1
  generalize Machine.step sFetch = o at h ⊢
  cases o with
  | next t => exact ⟨t, rfl⟩
  | fault f => cases h
  | refused r => cases h

/-- DecodeEncode's premise, at every prefix; an instruction of a bundle and an event for NothingRefused. -/
theorem test_meets_encode :
    (Instr.sadd ⟨true, { Pfx.none with imm := some 5, rep := some ⟨3, true, true, false, 1⟩ }⟩ 1 2 3).WellFormed = true ∧
    (Instr.vld ⟨false, { Pfx.none with ord := some ⟨.acquire, .pkg, false⟩ }⟩ 3 1 2 3).WellFormed = true ∧ (Instr.sadd bare 1 2 3).pre?.isSome = true := by
  decide +kernel

/-- IssueChecks: fields that are good and that are not, a repeat past the registers, a resume index past COUNT, a pending register, an EXHAUST due, an error of a
source's word, of a destination's under all lanes and under some, and of a scalar source's. -/
theorem test_meets_issue_checks :
    Ready s0 ∧
    (s0.me.runAhead = none ∧ scalarReason s0.me true 1 = 0 ∧ scalarReason s0.me false 2 = 0 ∧ scalarReason s0.me true 40 = 3 ∧ scalarReason s0.me true 100 = 4 ∧
     vectorReason s0.me true 100 = 0 ∧ vectorReason s0.me true 40 = 3 ∧ vectorReason s0.me true 113 = 4 ∧ pairReason s0.me true 3 = 0x0B ∧ pairReason s0.me true 40 = 3 ∧
     pairReason s0.me true 4 = 0 ∧ min 96 s0.me.as ≤ 30 + 2 * 2 ^ 0 ∧ ∀ j, j < 2 → 30 + j * 2 ^ 0 < min 96 s0.me.as) ∧
    (let u := sg fun g => { g with resume := 3 }; Ready u ∧ (2 : BitVec 6).toNat < u.me.resume) ∧
    (let u := sg fun g => { g with pend := [(.s 2, .marker)] }; Ready u ∧ u.me.unfin = 0 ∧ (u.me.pend.any fun p => p.1 == .s (u.me.sb + 2)) = true) ∧
    (let u := sg fun g => { g with due := [0x10000] }; Ready u ∧ u.me.due = 0x10000 :: []) ∧
    (∀ n ∈ [RegId.v 2, .v 3, .s 2], ∀ e : Word, let u := sg fun g => { g with regMarks := [⟨n, .located e⟩] }
     Ready u ∧ u.me.regMarks = [⟨n, .located e⟩] ∧ u.me.unfin = 0 ∧ u.me.pend = [] ∧ u.me.due = [] ∧ u.me.vb = 0 ∧ u.me.sb = 0) ∧
    (s0.me.act = s0.me.live ∧ (sg fun g => { g with em := 1 }).me.act ≠ (sg fun g => { g with em := 1 }).me.live) := by
  refine ⟨ready_s0, by decide +kernel, ⟨ready_of (by decide +kernel), by decide +kernel⟩, ⟨ready_of (by decide +kernel), by decide +kernel⟩,
    ⟨ready_of (by decide +kernel), by decide +kernel⟩, fun n hn e => ?_, by decide +kernel⟩
  have h : ∀ n ∈ [RegId.v 2, .v 3, .s 2], readyB (sg fun g => { g with regMarks := [⟨n, .correctable⟩] }) = true := by decide +kernel
  exact ⟨ready_of (h n hn), rfl, rfl, rfl, rfl, rfl, rfl⟩

/-- R124, R125: ILLEGAL with its reason, MARKV with the register, PRIV at a read-only register. -/
theorem test_issue_checks :
    [after (.sadd bare 40 1 2) s0, after (.vaddI64 bare 3 4 6) s0, after (.wrsr bare 1 .live) s0].map (fun t => (t.me.tcause, t.me.tval.toNat / 2 ^ 32)) = [(1, 3), (1, 0x0B), (3, 0)] ∧
    (let t := after (.sadd bare 3 2 1) (sg fun g => { g with pend := [(.s 2, .marker)] }); (t.me.tcause, t.me.tval) = (2, 130)) ∧
    (let t := after (.vaddI32 bare 3 2 1) (sg fun g => { g with regMarks := [⟨.v 2, .located 0xF0⟩] })
     t.me.live = (sg id).me.live &&& ~~~0xF0) := by
  decide +kernel

end Sys2Proof.Tests
end

/-! SUPPORT. The package's own events (O50): pins, pinned sectors, formats, injected errors and test mode; reset, self-test, power and temperature;
TDI states and the host link. -/

namespace Sys2Proof.Machine

open Sys2Proof.Safety

/-! ### Sparse tables: entries after a filter by key and after a map -/

section

variable {α : Type} [DecidableEq α] {d : α}

theorem SMap.look_filterFrom {lo k : Nat} {m : SMap α} (keep : Nat → Bool) (h : SMap.wfFrom d lo m = true) :
    SMap.look (m.filter fun e => keep e.1) k d = if keep k then SMap.look m k d else d := by
  induction m generalizing lo with
  | nil => simp [SMap.look]
  | cons e r ih =>
    obtain ⟨j, u⟩ := e
    simp only [SMap.wfFrom, Bool.and_eq_true, decide_eq_true_eq] at h
    have below : k ≤ j → SMap.look r k d = d := fun hk => SMap.look_below h.2 (by omega)
    rcases Nat.lt_trichotomy k j with hk | rfl | hk
    · have hne : j ≠ k := by omega
      cases hj : keep j <;> simp [SMap.look, ih h.2, hj, hne, hk, below (Nat.le_of_lt hk)]
    · cases hj : keep k <;> simp [SMap.look, ih h.2, hj]
    · have hne : j ≠ k := by omega
      cases hj : keep j <;> simp [SMap.look, ih h.2, hj, hne, show ¬ k < j by omega]

/-- An entry of a canonical table after the entries of some keys are dropped. -/
theorem SMap.look_filter {m : SMap α} (keep : Nat → Bool) (h : SMap.wf d m = true) (k : Nat) :
    SMap.look (m.filter fun e => keep e.1) k d = if keep k then SMap.look m k d else d :=
  SMap.look_filterFrom keep h

theorem SMap.mapAll_cons (f : α → α) (j : Nat) (u : α) (r : SMap α) :
    SMap.mapAll f d ((j, u) :: r) = if f u = d then SMap.mapAll f d r else (j, f u) :: SMap.mapAll f d r := by
  by_cases hu : f u = d <;> simp [SMap.mapAll, hu]

theorem SMap.look_mapAllFrom {lo k : Nat} {m : SMap α} {f : α → α} (hf : f d = d) (h : SMap.wfFrom d lo m = true) :
    SMap.look (SMap.mapAll f d m) k d = f (SMap.look m k d) := by
  induction m generalizing lo with
  | nil => exact hf.symm
  | cons e r ih =>
    obtain ⟨j, u⟩ := e
    simp only [SMap.wfFrom, Bool.and_eq_true, decide_eq_true_eq] at h
    have below : k ≤ j → SMap.look r k d = d := fun hk => SMap.look_below h.2 (by omega)
    rw [SMap.mapAll_cons]
    rcases Nat.lt_trichotomy k j with hk | rfl | hk
    · have hne : j ≠ k := by omega
      split <;> simp [SMap.look, ih h.2, hne, hk, below (Nat.le_of_lt hk), hf]
    · by_cases hu : f u = d <;> simp [SMap.look, ih h.2, below (Nat.le_refl k), hf, hu]
    · have hne : j ≠ k := by omega
      split <;> simp [SMap.look, ih h.2, hne, show ¬ k < j by omega]

/-- An entry of a canonical table after a map that keeps the default. -/
theorem SMap.look_mapAll {m : SMap α} {f : α → α} (hf : f d = d) (h : SMap.wf d m = true) (k : Nat) :
    SMap.look (SMap.mapAll f d m) k d = f (SMap.look m k d) :=
  SMap.look_mapAllFrom hf h

end

/-! ### Records of the management controller's log -/

/-- A record without a context goes behind the log that the state had, with its kind and unit (R310). -/
theorem reports_err {s u : State} {r : ErrRec} {kind unit : Nat} (h : u.hub.mcLog = s.hub.mcLog) (ek : r.kind = kind) (eu : r.unit = unit)
    (hk : kind < 256) (hu : unit < 65536) : Reports s (u.err none r) kind unit := by
  subst ek eu
  refine ⟨r.bytes 0, by simp [State.err, h], by simp [ErrRec.bytes, leBytes], ?_, ?_⟩ <;>
  · simp [fieldAt, ErrRec.bytes, leBytes, leNat]
    omega

/-! ### Pin swaps (R306) -/

section

variable {s : State} {stack channel pin : Nat} (hs : stack < 12) (hc : channel < 32) (hp : pin < 64)
include hs hc hp

/-- A pin that is swapped already, or whose channel has no lane left, stays. -/
theorem exec_pinSwap_none
    (h : (stack, channel, pin) ∈ s.hub.swaps ∨ 4 ≤ (s.hub.swaps.filter fun e => e.1 == stack && e.2.1 == channel).length) :
    exec (.pinSwap stack channel pin) s = .next s :=
  (if_neg (by simp; omega)).trans (if_pos (by simpa using h))

theorem exec_pinSwap_lane (hn : (stack, channel, pin) ∉ s.hub.swaps)
    (hl : (s.hub.swaps.filter fun e => e.1 == stack && e.2.1 == channel).length < 4) :
    ∃ t, exec (.pinSwap stack channel pin) s = .next t ∧ SameGroups s t ∧ t.mem = s.mem ∧
      t.hub.swaps = s.hub.swaps ++ [(stack, channel, pin)] ∧ Reports s t 0x08 (0x3000 + stack) := by
  refine ⟨_, (if_neg (by simp; omega)).trans (if_neg (by simp; exact ⟨hn, by omega⟩)), ?_⟩
  exact ⟨⟨rfl, rfl, rfl, rfl⟩, rfl, rfl, reports_err rfl rfl rfl (by decide) (by omega)⟩

end

/-! ### Pinned sectors and retired pages (R307, R309) -/

/-- Sound storage answers every read outside replays, and stays as it is (R294). -/
theorem readSector_sound {s : State} (h : Sound s) {c : Nat} (hc : s.session? c = none) (loc va : Nat) (who : Asker) :
    s.readSector loc c va who = (.ok, s) := by
  have hl : s.l3Strike loc = s := by simp [State.l3Strike, h.l3marks, SMap.look]
  simp [State.readSector, hl, State.readHome, State.replaying?_none hc, h.poison, h.marks, SMap.look]

/-- On sound storage a pinned sector changes the hub alone: the sector is in the list, and nothing is reported. -/
theorem pinSector_sound {s : State} (h : Sound s) (hn : ∀ c, s.session? c = none) (loc : Nat) :
    SameGroups s (s.pinSector loc) ∧ (s.pinSector loc).mem = s.mem ∧ (s.pinSector loc).hub.pinned = loc / 64 :: s.hub.pinned ∧
      (s.pinSector loc).hub.mcLog = s.hub.mcLog := by
  unfold State.pinSector
  simp only [readSector_sound h (hn _)]
  split <;> exact ⟨⟨rfl, rfl, rfl, rfl⟩, rfl, rfl, rfl⟩

theorem sliceOf_lt (loc : Nat) : sliceOf loc < 96 := Nat.mod_lt _ (by decide)

/-- A local location's error records name its stack (R310). -/
theorem unitOf_lt {loc : Nat} (h : isLocal loc = true) : unitOf loc < 65536 := by
  have hs : isSpad loc = false := by
    simp only [isLocal, isSpad, decide_eq_true_eq, decide_eq_false_iff_not] at h ⊢
    omega
  have := sliceOf_lt loc
  simp only [unitOf, hs, Bool.false_eq_true, if_false, stackOf]
  omega

section

variable {s : State} {pa : Nat} (hl : isLocal pa = true) (hp : pa / 64 ∉ s.hub.pinned)
include hl hp

/-- A sector goes into its line's way, or a new one of its set, while fewer than two are locked. -/
theorem exec_sectorPin_way (hs : Sound s) (hn : ∀ c, s.session? c = none)
    (h : (s.hub.pinned.any fun k => k / 8 == pa / 512) = true ∨ s.lockedWays none pa < 2) :
    ∃ t, exec (.sectorPin pa) s = .next t ∧ SameGroups s t ∧ t.mem = s.mem ∧ t.hub.pinned = pa / 64 :: s.hub.pinned ∧
      Reports s t 0x09 (0x2000 + sliceOf pa) := by
  have hlt := sliceOf_lt pa
  obtain ⟨hg, hm, hpin, hlog⟩ := pinSector_sound (s := s.draw.2) ⟨hs.marks, hs.l3marks, hs.poison⟩ hn pa
  refine ⟨_, (if_neg (by simp [hl, hp])).trans (if_pos (by simpa using h)), ?_⟩
  exact ⟨hg, hm, hpin, reports_err hlog rfl rfl (by decide) (by omega)⟩

/-- Where the set would lock a third way, the page is retired. -/
theorem exec_sectorPin_full (h : (s.hub.pinned.any fun k => k / 8 == pa / 512) = false) (hw : 2 ≤ s.lockedWays none pa) :
    ∃ t, exec (.sectorPin pa) s = .next t ∧ t.groups = s.groups ∧ t.mem = s.mem ∧ t.hub.pinned = s.hub.pinned ∧
      s.slotAt pa ∈ t.hub.retiredSlots ∧ s.slotAt pa / 65536 ∉ t.hub.pool ∧ Reports s t 0x06 (unitOf pa) := by
  refine ⟨_, (if_neg (by simp [hl, hp])).trans (if_neg (by simp [h]; omega)),
    rfl, rfl, rfl, ?_, ?_, reports_err rfl rfl rfl (by decide) (unitOf_lt hl)⟩
  · show s.slotAt pa ∈ if s.hub.retiredSlots.contains (s.slotAt pa) then s.hub.retiredSlots else s.slotAt pa :: s.hub.retiredSlots
    split <;> simp_all
  · show s.slotAt pa / 65536 ∉ s.hub.pool.filter (· != s.slotAt pa / 65536)
    simp

end

/-! ### Formats (R292) -/

theorem exec_format_held {s : State} {frame : Nat} (fmt : Cls) (hf : frame < 393216) (h : s.frameHeld frame = true) :
    exec (.format frame fmt) s = .next s :=
  (if_neg (by omega)).trans (if_pos h)

theorem exec_format_free {s : State} {frame : Nat} (fmt : Cls) (hf : frame < 393216) (h : s.frameHeld frame = false) (hm : s.mem.wf = true)
    (hw : SMap.wf Cls.p s.hub.formats = true) :
    ∃ t, exec (.format frame fmt) s = .next t ∧ SameGroups s t ∧ SMap.look t.hub.formats frame .p = fmt ∧
      (∀ z, Memory.byte t.mem z = if z / 2 ^ 21 = frame then 0 else Memory.byte s.mem z) ∧
      (∀ f, f ≠ frame → SMap.look t.hub.formats f .p = SMap.look s.hub.formats f .p) ∧
      t.hub.shoots = s.hub.shoots ++ [{ id := s.hub.nextShoot, ctx := none, base := 0, size := 2 ^ 64, tenant := none, seq := 0 }] := by
  refine ⟨_, (if_neg (by omega)).trans (if_neg (by simp [h])), ⟨rfl, rfl, rfl, rfl⟩, SMap.look_put_self frame fmt hw, fun z => ?_,
    fun f hne => SMap.look_put_ne fmt hw hne, rfl⟩
  refine (SMap.look_filter (fun k => !decide (k / 2 ^ 21 = frame)) hm z).trans ?_
  simp [Memory.byte]

/-! ### Injected errors (R312, R531) -/

theorem exec_inject_idle {s : State} (h : s.hub.testMode = false) (site : Site) (u d : Bool) : exec (.inject site u d) s = .next s := by
  show execInject site u d s = _
  simp [execInject, h]

/-- The code of an injected mark (R312). -/
def injected (u : Bool) : Nat := if u then 2 else 1

/-- A mark is listed: its code is not the default 0. -/
theorem put_injected (m : SMap Nat) (k : Nat) (u : Bool) : SMap.put m k (injected u) 0 = SMap.ins m k (injected u) := by
  cases u <;> rfl

section

variable {s : State} (ht : s.hub.testMode = true) {pa : Nat} (hl : isLocal pa = true) (u : Bool)
include ht

theorem exec_inject_row (d : Bool) {core off : Nat} (hc : core < 768) (ho : off < usable (s.core core).format) :
    exec (.inject (.row core off) u d) s =
      .next (s.onHub fun h => { h with marks := SMap.ins h.marks (s.secKey (spadLoc core off)) (injected u) }) := by
  show execInject (.row core off) u d s = _
  simp only [execInject, ht, Bool.not_true, Bool.false_eq_true, if_false, ← put_injected]
  rw [if_neg (by simp; omega)]
  rfl

include hl

theorem exec_inject_hbm (d : Bool) :
    exec (.inject (.hbm pa) u d) s = .next (s.onHub fun h => { h with marks := SMap.ins h.marks (pa / 64) (injected u) }) := by
  show execInject (.hbm pa) u d s = _
  simp only [execInject, ht, hl, Bool.not_true, Bool.false_eq_true, if_false, if_true, ← put_injected]
  rfl

theorem exec_inject_l3 (d : Bool) :
    exec (.inject (.l3 pa) u d) s = .next (s.onHub fun h => { h with l3marks := SMap.ins h.l3marks (pa / 64) (injected u) }) := by
  show execInject (.l3 pa) u d s = _
  simp only [execInject, ht, hl, Bool.not_true, Bool.false_eq_true, if_false, if_true, ← put_injected]
  rfl

variable {k : Nat} (hk : k < 12)
include hk

theorem exec_inject_l2_armed :
    exec (.inject (.l2 k pa) u true) s =
      .next (s.onCluster k fun q => { q with armed := (pa / 64, u) :: q.armed.filter fun e => e.1 != pa / 64 }) := by
  show execInject (.l2 k pa) u true s = _
  simp only [execInject, ht, hl, Bool.not_true, Bool.false_eq_true, if_false, if_true, if_neg (show ¬ 12 ≤ k by omega)]

theorem exec_inject_l2_absent (hv : (s.sector k pa).valid = 0) : exec (.inject (.l2 k pa) u false) s = .next s := by
  show execInject (.l2 k pa) u false s = _
  simp only [execInject, ht, hl, hv, Bool.not_true, Bool.false_eq_true, if_false, if_true, if_neg (show ¬ 12 ≤ k by omega)]

theorem exec_inject_l2_held (hv : (s.sector k pa).valid ≠ 0) :
    exec (.inject (.l2 k pa) u false) s = .next (s.setSector k pa { s.sector k pa with mark := injected u }) := by
  show execInject (.l2 k pa) u false s = _
  simp only [execInject, ht, hl, hv, Bool.not_true, Bool.false_eq_true, if_false, if_neg (show ¬ 12 ≤ k by omega)]
  rfl

end

/-! ### Test mode (R312, R348, R527, R531) -/

theorem exec_testModeEntry_enclave {s : State} (h : ∃ e ∈ s.ctxs, e.2.used = true ∧ e.2.encl = true) : exec .testModeEntry s = .next s := by
  show execTestModeEntry s = _
  exact if_pos (by simpa [State.anyEnclave] using h)

theorem exec_testModeEntry_plain {s : State} (h : ∀ e ∈ s.ctxs, e.2.used = true → e.2.encl = false) :
    exec .testModeEntry s = .next (s.onHub fun h => { h with testMode := true }) := by
  show execTestModeEntry s = _
  exact if_neg (by simpa [State.anyEnclave] using h)

theorem exec_testModeExit_idle {s : State} (h : s.hub.testMode = false) : exec .testModeExit s = .next s := by
  show execTestModeExit s = _
  simp [execTestModeExit, h]

/-- The device out of test mode, with the marks dropped that are armed in the clusters' L2s (R531). -/
def State.disarmed (s : State) : State :=
  { s.onHub fun h => { h with testMode := false } with
    clusters := SMap.mapAll (fun (k : Cluster) => { k with armed := [] }) Cluster.empty s.clusters }

theorem cluster_disarmed {s : State} (h : SMap.wf Cluster.empty s.clusters = true) (k : Nat) :
    s.disarmed.cluster k = { s.cluster k with armed := [] } :=
  SMap.look_mapAll (f := fun (k : Cluster) => { k with armed := [] }) rfl h k

theorem foldl_of_fixed {α β : Type} {f : α → β → α} {a : α} (h : ∀ b, f a b = a) (l : List β) : l.foldl f a = a := by
  induction l with
  | nil => rfl
  | cons b l ih => rw [List.foldl_cons, h, ih]

/-- Without an open session the end of test mode does nothing else. -/
theorem exec_testModeExit {s : State} (hd : s.hub.doomed = []) (h : s.hub.testMode = true) (hs : ∀ tn k, (s.sess tn k).en = false) :
    exec .testModeExit s = .next s.disarmed := by
  have hf : ∀ tn k, (s.disarmed.sess tn k).en = false := hs
  refine (if_neg (by simp [h])).trans ?_
  show Host.Outcome.next (State.reap (List.foldl _ s.disarmed _)) = _
  rw [foldl_of_fixed fun i => by simp only [hf, Bool.false_and, Bool.false_eq_true, if_false], State.reap_calm (by exact hd)]

/-! ### Reset, self-test and loss of power (R7 to R10, R20) -/

/-- The hub after a reset that has found the physical cores `all` bad (R8). -/
def hubAfterReset (s : State) (all : List Nat) : Hub := { Hub.reset with retiredCores := all, mappedCores := all, mcLog := s.hub.mcLog }

/-- The retirement list with the cores that a self-test found bad (R8). -/
def retiredWith (s : State) (bad : List Nat) : List Nat :=
  s.hub.retiredCores ++ (bad.filter fun p => decide (p < 816) && !(s.hub.retiredCores.contains p)).eraseDups

/-- The clusters that a list of bad cores leaves short (R10). -/
def shortOf (all : List Nat) : List Nat := (List.range 12).filter fun k => decide ((goodCores all k).length < 64)

/-- A device that comes up is empty but for what outlives a reset, by the model's reading (R8, log entry 59). -/
theorem exec_reset_up {s : State} {bad : List Nat} (dev : BitVec 12) (hs : shortOf (retiredWith s bad) = []) (hp : s.hub.pinned = []) :
    exec (.reset bad true dev) s = .next (emptied s { hubAfterReset s (retiredWith s bad) with device := dev }) := by
  refine (if_pos (List.isEmpty_iff.2 hs)).trans ?_
  rw [hp]
  rfl

/-- A device that stays in reset: not up, its link down, with its retirement list, its pinned sectors and a report of why (R10, R361). -/
theorem exec_reset_held {s : State} {bad : List Nat} {bootOk : Bool} (dev : BitVec 12)
    (h : bootOk = false ∨ shortOf (retiredWith s bad) ≠ []) :
    ∃ t, exec (.reset bad bootOk dev) s = .next t ∧ t.hub.up = false ∧ t.hub.linkUp = false ∧ t.hub.retiredCores = retiredWith s bad ∧
      t.hub.pinned = s.hub.pinned ∧ t.groups = [] ∧ s.hub.mcLog.length < t.hub.mcLog.length := by
  cases bootOk with
  | false =>
    refine ⟨_, rfl, rfl, rfl, rfl, rfl, rfl, ?_⟩
    show s.hub.mcLog.length < (s.hub.mcLog ++ [leBytes 8 0]).length
    simp
  | true =>
    have hs : shortOf (retiredWith s bad) ≠ [] := by simpa using h
    refine ⟨_, if_neg (by rwa [List.isEmpty_iff]), rfl, rfl, rfl, rfl, rfl, ?_⟩
    show s.hub.mcLog.length < (s.hub.mcLog ++ (shortOf (retiredWith s bad)).map _).length
    simpa using List.length_pos_iff.2 hs

section

variable {s : State} {core : Nat} (hc : core < 768)
include hc

theorem exec_hostSelfTest_none {pass : Bool}
    (h : pass = true ∨ (s.core core).resident.toList.any (·.isSome) = true ∨ (s.core core).unavailable = true) :
    exec (.hostSelfTest core pass) s = .next s := by
  refine (if_neg (by omega)).trans (if_pos ?_)
  simp only [Bool.or_eq_true]
  rcases h with h | h | h
  · exact .inl (.inr h)
  · exact .inl (.inl h)
  · exact .inr h

/-- The failing core is entered as the physical core that carries it, by the model's choice (R8, log entry 91). -/
theorem exec_hostSelfTest_fails {p : Nat} (hr : (s.core core).resident = Vector.replicate 4 none) (hu : (s.core core).unavailable = false)
    (hp : (goodCores s.hub.mappedCores (core / 64))[core % 64]? = some p) :
    exec (.hostSelfTest core false) s = .next { s.setCore core { s.core core with unavailable := true } with
      hub := { s.hub with retiredCores := s.hub.retiredCores ++ [p] } } := by
  have hn : nth (goodCores s.hub.mappedCores (core / 64)) (core % 64) 0 = p := by simp [nth, hp]
  refine (if_neg (by omega)).trans ((if_neg (by rw [hr, hu]; decide)).trans ?_)
  rw [← hn]
  rfl

end

theorem exec_cutoff_cool (s : State) {die temp : Nat} (hd : die < 8) (h : temp < 115) : exec (.overtemperatureCutoff die temp) s = .next s :=
  (if_neg (by omega)).trans (if_pos h)

/-- The package loses all its state; the log entry's bytes are the model's choice (R20, log entry 58). -/
theorem exec_cutoff_hot (s : State) {die temp : Nat} (hd : die < 8) (h : 115 ≤ temp) :
    exec (.overtemperatureCutoff die temp) s = .next (emptied s { Hub.reset with
      retiredCores := s.hub.retiredCores, mappedCores := s.hub.retiredCores, up := false, powered := false, linkUp := false
      pinned := s.hub.pinned, mcLog := s.hub.mcLog ++ [leBytes 2 die ++ leBytes 2 temp] }) :=
  (if_neg (by omega)).trans (if_neg (by omega))

/-! ### Narrowed mode and the power arbiter (R14 to R18, R20) -/

theorem mem_addOnce (l : List Nat) (a d : Nat) : d ∈ (if l.contains a then l else l ++ [a]) ↔ d ∈ l ∨ d = a := by
  split
  · next h =>
    have ha : a ∈ l := by simpa using h
    exact ⟨.inl, fun h => h.elim id fun e => e ▸ ha⟩
  · simp

theorem mem_dropOne (l : List Nat) (a d : Nat) : d ∈ l.filter (· != a) ↔ d ∈ l ∧ d ≠ a := by simp

theorem exec_powerAlarm (s : State) {die : Nat} (hd : die < 6) :
    ∃ h, exec (.powerAlarm die) s = .next { s with hub := h } ∧ (∀ d, d ∈ h.narrowed ↔ d ∈ s.hub.narrowed ∨ d = die) ∧
      (∀ d, d ∈ h.alarmed ↔ d ∈ s.hub.alarmed ∨ d = die) ∧ ∀ d, d ∈ h.clean ↔ d ∈ s.hub.clean ∧ d ≠ die :=
  ⟨_, if_neg (by omega), mem_addOnce _ _, mem_addOnce _ _, mem_dropOne _ _⟩

/-- Die d may leave narrowed mode: a full interval found it quiet, it is not hot, and no matrix operation runs on it (R16, R20). -/
def State.mayWiden (s : State) (d : Nat) : Prop := d ∈ s.hub.clean ∧ d ∉ s.hub.hot ∧ s.dieBusy d = false

/-- Die d at an operation boundary: it leaves narrowed mode if it may (R16). -/
def State.atBoundary (s : State) (d : Nat) : State := if s.dieBusy d then s else s.unnarrow d

/-- From s to t the dies of p leave narrowed mode, and nothing else changes. -/
structure Widened (p : Nat → Prop) (s t : State) : Prop where
  frame : ∃ n c, t = { s with hub := { s.hub with narrowed := n, clean := c } }
  narrowed : ∀ d, d ∈ t.hub.narrowed ↔ d ∈ s.hub.narrowed ∧ ¬ p d
  clean : ∀ d, d ∈ t.hub.clean ↔ d ∈ s.hub.clean ∧ ¬ p d

theorem Widened.refl {p : Nat → Prop} (s : State) (h : ∀ d, ¬ p d) : Widened p s s :=
  ⟨⟨_, _, rfl⟩, fun d => by simp [h d], fun d => by simp [h d]⟩

theorem Widened.trans {p q r : Nat → Prop} {s t u : State} (h : Widened p s t) (k : Widened q t u) (hr : ∀ d, r d ↔ p d ∨ q d) :
    Widened r s u := by
  obtain ⟨⟨_, _, rfl⟩, hn, hc⟩ := h
  obtain ⟨⟨n, c, e⟩, kn, kc⟩ := k
  refine ⟨⟨n, c, e⟩, fun d => ?_, fun d => ?_⟩
  · rw [kn, hn, hr, not_or, and_assoc]
  · rw [kc, hc, hr, not_or, and_assoc]

theorem Widened.mayWiden {p : Nat → Prop} {s t : State} (h : Widened p s t) (d : Nat) : t.mayWiden d ↔ s.mayWiden d ∧ ¬ p d := by
  have hc := h.clean d
  obtain ⟨⟨_, _, rfl⟩, _, _⟩ := h
  unfold State.mayWiden
  rw [hc]
  exact and_right_comm

theorem widened_atBoundary (s : State) (a : Nat) : Widened (fun d => d = a ∧ s.mayWiden d) s (s.atBoundary a) := by
  by_cases hb : s.mayWiden a
  · obtain ⟨hc, hh, hf⟩ := id hb
    have e : s.atBoundary a =
        { s with hub := { s.hub with narrowed := s.hub.narrowed.filter (· != a), clean := s.hub.clean.filter (· != a) } } := by
      simp [State.atBoundary, hf, State.unnarrow, State.onHub, hc, hh]
    rw [e]
    refine ⟨⟨_, _, rfl⟩, fun d => (mem_dropOne _ _ _).trans ?_, fun d => (mem_dropOne _ _ _).trans ?_⟩ <;> grind
  · have e : s.atBoundary a = s := by
      unfold State.atBoundary
      split
      · rfl
      · next hf =>
        have hq : ¬ (s.hub.clean.contains a && !s.hub.hot.contains a) = true := fun h => hb (by simpa [State.mayWiden, hf] using h)
        exact congrArg (fun h => ({ s with hub := h } : State)) (if_neg hq)
    rw [e]
    exact Widened.refl s fun d h => hb (h.1 ▸ h.2)

/-- Every die of a list at an operation boundary: those leave narrowed mode that may. -/
theorem widened_foldl (l : List Nat) (s : State) : Widened (fun d => d ∈ l ∧ s.mayWiden d) s (l.foldl State.atBoundary s) := by
  induction l generalizing s with
  | nil => exact Widened.refl s fun d h => absurd h.1 List.not_mem_nil
  | cons a l ih =>
    have h := widened_atBoundary s a
    refine h.trans (ih (s.atBoundary a)) fun d => ?_
    rw [h.mayWiden, List.mem_cons]
    by_cases hd : d = a <;> grind

section

variable (s : State) {die temp : Nat} (hd : die < 6)
include hd

theorem exec_junction_hot (ht : 105 ≤ temp) :
    ∃ h, exec (.junctionTemperatureAlarm die temp) s = .next { s with hub := h } ∧ (∀ d, d ∈ h.narrowed ↔ d ∈ s.hub.narrowed ∨ d = die) ∧
      ∀ d, d ∈ h.hot ↔ d ∈ s.hub.hot ∨ d = die :=
  ⟨_, (if_neg (by omega)).trans (if_pos ht), mem_addOnce _ _, mem_addOnce _ _⟩

theorem exec_junction_warm (hl : 100 ≤ temp) (hh : temp < 105) : exec (.junctionTemperatureAlarm die temp) s = .next s :=
  (if_neg (by omega)).trans ((if_neg (by omega)).trans (if_pos hl))

theorem exec_junction_cool (ht : temp < 100) :
    ∃ h, exec (.junctionTemperatureAlarm die temp) s = .next { s with hub := h } ∧ (∀ d, d ∈ h.hot ↔ d ∈ s.hub.hot ∧ d ≠ die) ∧
      ∀ d, d ∈ h.narrowed ↔ d ∈ s.hub.narrowed ∧ (d ≠ die ∨ die ∉ s.hub.clean ∨ s.dieBusy die = true) := by
  let s1 := s.onHub fun h => { h with hot := h.hot.filter (· != die) }
  have e : exec (.junctionTemperatureAlarm die temp) s = .next (s1.atBoundary die) :=
    (if_neg (by omega)).trans ((if_neg (by omega)).trans (if_neg (by omega)))
  obtain ⟨⟨n, c, hf⟩, hn, -⟩ := widened_atBoundary s1 die
  rw [hf] at e hn
  refine ⟨_, e, mem_dropOne _ _, fun d => (hn d).trans ?_⟩
  have hh : die ∉ s1.hub.hot := fun h => ((mem_dropOne _ _ _).1 h).2 rfl
  have hm : s1.mayWiden die ↔ die ∈ s.hub.clean ∧ s.dieBusy die = false := ⟨fun h => ⟨h.1, h.2.2⟩, fun h => ⟨h.1, hh, h.2⟩⟩
  show (d ∈ s.hub.narrowed ∧ _) ↔ _
  cases hb : s.dieBusy die <;> grind

end

/-- The hub when an interval of the arbiter ends: which dies it found quiet, and the grants that it takes (R14, R16). -/
def Hub.interval (h : Hub) (v : Interval) : Hub :=
  { h with
    clean := h.narrowed.filter fun d => !(h.alarmed.contains d), alarmed := []
    power := if h.mayGrant v.grants then v.grants else h.power }

/-- The hub with matrix issue held or freed for the package's average power (R18). -/
def Hub.heldAt (h : Hub) (mw : Nat) : Hub :=
  if 15000000 ≤ mw && decide (h.narrowed.length = 6) then
    { h with
      matrixHold := true, powerEvents := if h.matrixHold then h.powerEvents else h.powerEvents + 1
      mcLog := if h.matrixHold then h.mcLog else h.mcLog ++ [leBytes 8 mw] }
  else if mw < 14500000 then { h with matrixHold := false } else h

theorem exec_arbiterInterval_eq (s : State) (v : Interval) :
    exec (.arbiterInterval v) s =
      .next (((List.range 6).foldl State.atBoundary (s.onHub fun h => h.interval v)).onHub fun h => h.heldAt v.mw) := rfl

theorem Hub.heldAt_frame (h : Hub) (mw : Nat) :
    (h.heldAt mw).alarmed = h.alarmed ∧ (h.heldAt mw).narrowed = h.narrowed ∧ (h.heldAt mw).power = h.power := by
  unfold Hub.heldAt
  split
  · exact ⟨rfl, rfl, rfl⟩
  · split <;> exact ⟨rfl, rfl, rfl⟩

theorem Hub.heldAt_matrixHold (h : Hub) (mw : Nat) :
    (h.heldAt mw).matrixHold = if 15000000 ≤ mw ∧ h.narrowed.length = 6 then true else if mw < 14500000 then false else h.matrixHold := by
  simp only [Hub.heldAt, Bool.and_eq_true, decide_eq_true_eq]
  split
  · rfl
  · split <;> rfl

theorem mayGrant_iff (h : Hub) (g : Vector Nat 7) :
    h.mayGrant g = true ↔ g.toList.sum ≤ 15000000 ∧ (∀ i, i < 6 → budget.getD i 0 * 4 ≤ vat g i 0 * 5) ∧
      ((List.range 6).map fun i => vat g i 0 - vat h.power i 0).sum ≤ 1000000 := by
  have hb : ∀ i, i < 6 → vat powerBudget i 0 = budget.getD i 0 := by decide
  simp only [Hub.mayGrant, Bool.and_eq_true, decide_eq_true_eq, List.all_eq_true, List.mem_range, and_assoc]
  refine and_congr_right' (and_congr_left' (forall₂_congr fun i hi => ?_))
  rw [hb i hi]

/-- An interval of the arbiter, whose input in milliwatts and whose common widening are the model's choice (R14, R16, R18, log entry 57). -/
theorem exec_arbiterInterval (s : State) (v : Interval) :
    ∃ h, exec (.arbiterInterval v) s = .next { s with hub := h } ∧ h.alarmed = [] ∧
      (∀ d, d ∈ h.narrowed ↔ d ∈ s.hub.narrowed ∧ (6 ≤ d ∨ d ∈ s.hub.alarmed ∨ d ∈ s.hub.hot ∨ s.dieBusy d = true)) ∧
      h.matrixHold = (if 15000000 ≤ v.mw ∧ h.narrowed.length = 6 then true else if v.mw < 14500000 then false else s.hub.matrixHold) ∧
      h.power = if s.hub.mayGrant v.grants then v.grants else s.hub.power := by
  obtain ⟨⟨n, c, hf⟩, hn, -⟩ := widened_foldl (List.range 6) (s.onHub fun h => h.interval v)
  rw [hf] at hn
  let h : Hub := { s.hub.interval v with narrowed := n, clean := c }
  have e : exec (.arbiterInterval v) s = .next { s with hub := h.heldAt v.mw } :=
    (exec_arbiterInterval_eq s v).trans (by rw [hf]; rfl)
  obtain ⟨ha, hna, hp⟩ := h.heldAt_frame v.mw
  refine ⟨_, e, ha, fun d => ?_, ?_, hp⟩
  · have hq : d ∈ s.hub.narrowed.filter (fun d => !(s.hub.alarmed.contains d)) ↔ d ∈ s.hub.narrowed ∧ d ∉ s.hub.alarmed := by simp
    have hm : (s.onHub fun h => h.interval v).mayWiden d ↔ (d ∈ s.hub.narrowed ∧ d ∉ s.hub.alarmed) ∧ d ∉ s.hub.hot ∧ s.dieBusy d = false :=
      and_congr_left' hq
    have hd : d ∈ h.narrowed ↔ d ∈ s.hub.narrowed ∧ ¬ (d ∈ List.range 6 ∧ (s.onHub fun h => h.interval v).mayWiden d) := hn d
    rw [hna, hd, hm, List.mem_range]
    cases s.dieBusy d <;> grind
  · rw [hna]
    exact h.heldAt_matrixHold v.mw

/-! ### TDI states (R348) -/

theorem exec_tdiStateChange (s : State) {tn : Nat} (h : tn < 16) {st : Tdi} (hs : st ≠ .error) :
    exec (.tdiStateChange tn st) s = .next (s.onTenant tn fun y => { y with tdi := st }) :=
  (if_neg (by omega)).trans (if_neg hs)

theorem exec_tdiStateChange_error (s : State) {tn : Nat} (h : tn < 16) : exec (.tdiStateChange tn .error) s = .next s :=
  (if_neg (by omega)).trans (if_pos rfl)

/-- Context c exists, is an enclave and tenant tn's (R348). -/
def State.enclaveOf (s : State) (tn c : Nat) : Bool := (s.ctx c).used && (s.ctx c).encl && (s.ctx c).tenant == tn

/-- What TDI_ERROR does about context c (R348). -/
def State.tdiDoom (tn : Nat) (s : State) (c : Nat) : State := if (s.ctx c).encl && (s.ctx c).tenant == tn then s.doom c 2 else s

/-- A context that is not marked yet is marked when it is an enclave of the tenant. -/
theorem tdiDoom_eq {s : State} (tn : Nat) {c : Nat} (h : c ∉ s.hub.doomed.map (·.1)) :
    s.tdiDoom tn c = s.onHub fun h => { h with doomed := h.doomed ++ if s.enclaveOf tn c then [(c, 2)] else [] } := by
  have hd : (s.hub.doomed.any (·.1 == c)) = false := by
    simp only [List.any_eq_false, beq_iff_eq]
    exact fun e he hc => h (List.mem_map.2 ⟨e, he, hc⟩)
  have hz : s = s.onHub fun h => { h with doomed := h.doomed ++ [] } := by simp [State.onHub]
  simp only [State.tdiDoom, State.doom, State.enclaveOf, hd, Bool.and_assoc]
  cases (s.ctx c).used <;> cases ((s.ctx c).encl && (s.ctx c).tenant == tn)
  · exact hz
  · exact hz
  · exact hz
  · rfl

/-- The contexts of a list that are enclaves of the tenant are marked, in the list's order. -/
theorem foldl_tdiDoom (tn : Nat) {l : List Nat} {s : State} (hl : l.Nodup) (h : ∀ c ∈ l, c ∉ s.hub.doomed.map (·.1)) :
    l.foldl (State.tdiDoom tn) s = s.onHub fun h => { h with doomed := h.doomed ++ (l.filter (s.enclaveOf tn)).map fun c => (c, 2) } := by
  induction l generalizing s with
  | nil => simp [State.onHub]
  | cons a l ih =>
    obtain ⟨ha, hl⟩ := List.nodup_cons.1 hl
    rw [List.foldl_cons, tdiDoom_eq tn (h a List.mem_cons_self), ih hl]
    · simp only [List.filter_cons, State.onHub, List.append_assoc]
      cases s.enclaveOf tn a <;> rfl
    · intro c hc hm
      have hne : c ≠ a := fun e => ha (e ▸ hc)
      have hs := h c (List.mem_cons_of_mem a hc)
      simp only [State.onHub_hub, List.map_append, List.mem_append] at hm
      refine hm.elim hs fun hm => ?_
      split at hm <;> simp [hne] at hm

theorem exec_tdiError {s : State} (hd : s.hub.doomed = []) {tn : Nat} (h : tn < 16) :
    exec (.tdiError tn) s = .next ((s.onTenant tn fun y => { y with tdi := .error }).onHub fun h => { h with
      doomed := ((List.range 64).filter (s.enclaveOf tn)).map fun c => (c, 2) }).reap := by
  have hf := foldl_tdiDoom tn (s := s.onTenant tn fun y => { y with tdi := .error }) (List.nodup_range (n := 64))
    (by simp [hd])
  refine (if_neg (by omega)).trans (congrArg (fun t : State => Host.Outcome.next t.reap) (hf.trans ?_))
  simp [State.onHub, hd]
  rfl

/-- Without an enclave of the tenant nothing is terminated. -/
theorem exec_tdiError_plain {s : State} (hd : s.hub.doomed = []) {tn : Nat} (h : tn < 16)
    (hc : ∀ c, c < 64 → (s.ctx c).encl = true → (s.ctx c).tenant ≠ tn) :
    exec (.tdiError tn) s = .next (s.onTenant tn fun y => { y with tdi := .error }) := by
  have hn : (List.range 64).filter (s.enclaveOf tn) = [] := by
    simp only [List.filter_eq_nil_iff, List.mem_range, State.enclaveOf, Bool.and_eq_true, beq_iff_eq]
    exact fun c hlt ⟨⟨_, he⟩, ht⟩ => hc c hlt he ht
  rw [exec_tdiError hd h, hn, State.reap_calm rfl]
  exact congrArg (fun l => Host.Outcome.next ((s.onTenant tn fun y => { y with tdi := .error }).onHub fun h => { h with doomed := l })) hd.symm

/-! ### The host link (R346) -/

/-- Tenant t's core dump, if there is one, is handed over (R346). -/
def State.handOver (s : State) (t : Nat) : State :=
  let d := (s.tenant t).dump
  if d.isEmpty then s else (s.onTenant t fun x => { x with dump := [] }).onHub fun h => { h with dumped := h.dumped ++ [(t, d)] }

theorem handOver_frame (s : State) (t : Nat) :
    (s.handOver t).hub.linkUp = s.hub.linkUp ∧ (s.handOver t).groups = s.groups ∧ (s.handOver t).mem = s.mem := by
  unfold State.handOver
  simp only
  split <;> exact ⟨rfl, rfl, rfl⟩

theorem handOver_wf {s : State} (h : SMap.wf Tenant.reset s.tenants = true) (t : Nat) :
    SMap.wf Tenant.reset (s.handOver t).tenants = true := by
  unfold State.handOver
  simp only
  split
  · exact h
  · exact SMap.put_wf _ _ h

theorem tenant_handOver {s : State} (h : SMap.wf Tenant.reset s.tenants = true) (t k : Nat) :
    (s.handOver t).tenant k = if k = t then { s.tenant t with dump := [] } else s.tenant k := by
  unfold State.handOver
  simp only
  split <;> split
  · next hd hk =>
    rw [hk]
    exact congrArg (fun d => { s.tenant t with dump := d }) (List.isEmpty_iff.1 hd)
  · rfl
  · next hk =>
    rw [hk]
    exact SMap.look_put_self _ _ h
  · next hk => exact SMap.look_put_ne _ h hk

theorem mem_dumped_handOver (s : State) (t : Nat) (p : Nat × List (Nat × List Byte)) :
    p ∈ (s.handOver t).hub.dumped ↔ p ∈ s.hub.dumped ∨ (s.tenant t).dump ≠ [] ∧ p = (t, (s.tenant t).dump) := by
  unfold State.handOver
  simp only
  split <;> simp_all

/-- From s to t the core dumps of the first n tenants are handed over; the link, the groups and memory stay. -/
structure HandedOver (s : State) (n : Nat) (t : State) : Prop where
  frame : t.hub.linkUp = s.hub.linkUp ∧ t.groups = s.groups ∧ t.mem = s.mem
  wf : SMap.wf Tenant.reset t.tenants = true
  tenant : ∀ k, t.tenant k = if k < n then { s.tenant k with dump := [] } else s.tenant k
  dumped : ∀ k, k < n → (s.tenant k).dump ≠ [] → (k, (s.tenant k).dump) ∈ t.hub.dumped

theorem HandedOver.refl {s : State} (h : SMap.wf Tenant.reset s.tenants = true) : HandedOver s 0 s :=
  ⟨⟨rfl, rfl, rfl⟩, h, fun k => by simp, fun k hk => absurd hk (Nat.not_lt_zero k)⟩

theorem HandedOver.step {s t : State} {n : Nat} (h : HandedOver s n t) : HandedOver s (n + 1) (t.handOver n) := by
  have hn : t.tenant n = s.tenant n := by simp [h.tenant]
  obtain ⟨hl, hg, hm⟩ := handOver_frame t n
  obtain ⟨kl, kg, km⟩ := h.frame
  refine ⟨⟨hl.trans kl, hg.trans kg, hm.trans km⟩, handOver_wf h.wf n, fun k => ?_, fun k hk hd => ?_⟩
  · rw [tenant_handOver h.wf, hn, h.tenant]
    by_cases hk : k = n
    · simp [hk]
    · simp [hk, show k < n + 1 ↔ k < n by omega]
  · rw [mem_dumped_handOver, hn]
    rcases Nat.lt_or_eq_of_le (Nat.le_of_lt_succ hk) with hk | rfl
    · exact .inl (h.dumped k hk hd)
    · exact .inr ⟨hd, rfl⟩

theorem handedOver_foldl {s : State} (h : SMap.wf Tenant.reset s.tenants = true) (n : Nat) :
    HandedOver s n ((List.range n).foldl State.handOver s) := by
  induction n with
  | zero => exact HandedOver.refl h
  | succ n ih =>
    rw [List.range_succ, List.foldl_append]
    exact ih.step

theorem exec_hostLinkDown {s : State} (h : SMap.wf Tenant.reset s.tenants = true) :
    ∃ t, exec .hostLinkDown s = .next t ∧ t.hub.linkUp = false ∧ t.groups = s.groups ∧ t.mem = s.mem ∧
      ∀ tn, tn < 16 → t.tenant tn = { s.tenant tn with dump := [] } ∧ ((s.tenant tn).dump ≠ [] → (tn, (s.tenant tn).dump) ∈ t.hub.dumped) := by
  let s1 := s.onHub fun h => { h with linkUp := false }
  have e : exec .hostLinkDown s = .next ((List.range 16).foldl State.handOver s1) := rfl
  have k := handedOver_foldl (s := s1) h 16
  generalize (List.range 16).foldl State.handOver s1 = t at e k
  obtain ⟨hl, hg, hm⟩ := k.frame
  exact ⟨t, e, hl, hg, hm, fun tn ht => ⟨(k.tenant tn).trans (if_pos ht), k.dumped tn ht⟩⟩

/-! ### The statement -/

/-- Settles O50: one lemma for each event and case; the arbiter by the dies that reach an operation boundary, TDI_ERROR by the contexts that it
marks, and the link by the tenants whose dumps it hands over. -/
theorem packageEvents : Obligations.PackageEvents := by
  intro s calm
  refine ⟨fun stack channel pin hs hc hp => ⟨exec_pinSwap_none hs hc hp, exec_pinSwap_lane hs hc hp⟩,
    fun pa hl hp hs hn => ⟨exec_sectorPin_way hl hp hs hn, exec_sectorPin_full hl hp⟩,
    fun frame fmt hf => ⟨exec_format_held fmt hf, fun h hc hw => exec_format_free fmt hf h hc.mem hw⟩,
    fun u d k pa core off hl hk hc ho => ⟨fun h site => exec_inject_idle h site u d, fun h => ⟨exec_inject_hbm h hl u d, exec_inject_l3 h hl u d,
      exec_inject_row h u d hc ho, exec_inject_l2_armed h hl u hk, exec_inject_l2_absent h hl u hk, exec_inject_l2_held h hl u hk⟩⟩,
    exec_testModeEntry_enclave, exec_testModeEntry_plain, exec_testModeExit_idle,
    fun h hw hs => ⟨_, exec_testModeExit calm h hs, ⟨rfl, rfl, rfl, rfl⟩, rfl, rfl, cluster_disarmed hw⟩,
    ?reset,
    fun core pass hc => ⟨exec_hostSelfTest_none hc, fun p hp hr hu hg => hp ▸ exec_hostSelfTest_fails hc hr hu hg⟩,
    fun die temp hd => ⟨exec_powerAlarm s hd, exec_junction_hot s hd, exec_junction_warm s hd, exec_junction_cool s hd⟩,
    ?arbiter, by decide, by decide,
    fun die temp hd => ⟨exec_cutoff_cool s hd, exec_cutoff_hot s hd⟩,
    fun tn st ht => ⟨exec_tdiStateChange s ht, exec_tdiStateChange_error s ht, exec_tdiError_plain calm ht, exec_tdiError calm ht⟩,
    exec_hostLinkDown⟩
  case reset =>
    rintro bad bootOk dev _ _ rfl rfl
    exact ⟨fun hb hs hp => hb ▸ exec_reset_up dev hs hp, exec_reset_held dev⟩
  case arbiter =>
    intro v
    obtain ⟨h, e, ha, hn, hm, hp⟩ := exec_arbiterInterval s v
    refine ⟨h, e, ha, hn, hm, fun ok => ?_, fun ok => ?_⟩
    · rw [hp, if_pos ((mayGrant_iff s.hub v.grants).2 ok)]
    · rw [hp, if_neg fun g => ok ((mayGrant_iff s.hub v.grants).1 g)]

end Sys2Proof.Machine

/-! SUPPORT. The reset state (O57). -/

namespace Sys2Proof.Machine

open Sys2Proof.Safety

/-- A vector whose elements are all the default reads it everywhere. -/
theorem vat_replicate {α : Type} (n : Nat) (x : α) (i : Nat) : vat (Vector.replicate n x) i x = x := by
  unfold vat
  split <;> simp

/-- Settles O57: every table of the reset state is empty, so that every look-up gives its default. -/
theorem resetState : Obligations.ResetState := by
  refine ⟨⟨rfl, rfl, rfl⟩, rfl, fun _ => rfl, rfl, fun tn q => ?_, fun tn err => ?_, fun tn k => ?_, fun _ => ⟨rfl, rfl, rfl, rfl⟩,
    fun _ => rfl, fun _ => rfl, rfl, rfl, rfl⟩
  · exact vat_replicate 8 SubQueue.reset q
  · cases err <;> rfl
  · have e : State.reset.sess tn k = Session.reset := vat_replicate 4 Session.reset k
    rw [e]
    exact ⟨rfl, rfl, rfl, rfl, rfl, rfl, rfl⟩

end Sys2Proof.Machine

/-! SUPPORT. A step that issues a group executes the instruction that the words at its pc decode to (O56): the scan of a bundle's words, their
fetch through the cluster's L2, and the issue itself. -/

namespace Sys2Proof.Machine

open Sys2Proof.Safety

/-! ### The scan of a bundle -/

/-- Prefixes that a bundle has so far. -/
def prefixes (px : Pfx) : Nat := px.imm.isSome.toNat + px.ord.isSome.toNat + px.rep.isSome.toNat + px.lane.isSome.toNat

theorem prefixes_le (px : Pfx) : prefixes px ≤ 4 := by
  have := px.imm.isSome.toNat_le
  have := px.ord.isSome.toNat_le
  have := px.rep.isSome.toNat_le
  have := px.lane.isSome.toNat_le
  unfold prefixes
  omega

/-- A prefix word adds a prefix of a kind that the bundle does not have yet (R101). -/
theorem prefixes_addPrefix {px p : Pfx} {w : Word} (h : addPrefix px w = some (.ok p)) : prefixes p = prefixes px + 1 := by
  unfold addPrefix at h
  simp only at h
  repeat' split at h
  all_goals simp only [Option.some.injEq, Except.ok.injEq, reduceCtorEq] at h
  all_goals subst h; simp_all [prefixes]; try omega

theorem prefixes_scanWord {px p : Pfx} {w : Word} (h : scanWord px w = .more p) : prefixes p = prefixes px + 1 := by
  unfold scanWord at h
  split at h
  case h_1 q hq =>
    cases h
    exact prefixes_addPrefix hq
  case h_2 => cases h
  case h_3 =>
    split at h
    · cases h
    · split at h <;> cases h

/-! ### The fetch -/

theorem leNat_bytesOf (w : Word) : BitVec.ofNat 32 (leNat (bytesOf w)) = w := by
  apply BitVec.eq_of_toNat_eq
  have := w.isLt
  simp [leNat, bytesOf, bitsW, Nat.shiftRight_eq_div_pow]
  omega

/-- A word in an unmarked sector that the cluster's L2 holds is fetched, and nothing changes (R175, R183). -/
theorem fetchWord_of_wordAt {s : State} {g : Nat} {va : Dword} {w : Word} (h : WordAt s g va w) : s.fetchWord g va = (.inl w, s) := by
  obtain ⟨l, hint, enc, hspot, hmark, hpoison, hvalid, hbytes⟩ := h
  have hstrike : s.l2Strike (cluOf (coreOf g)) l = s := by simp [State.l2Strike, hmark]
  have hb : ((List.range 4).map fun i => (s.sector (cluOf (coreOf g)) l).byte (l % 64 + i)) = bytesOf w := by
    have b0 := hbytes 0 (by decide)
    have b1 := hbytes 1 (by decide)
    have b2 := hbytes 2 (by decide)
    have b3 := hbytes 3 (by decide)
    simp only [bytesOf, List.getD_cons_zero, List.getD_cons_succ, Nat.add_zero] at b0 b1 b2 b3
    simp [List.range_succ, b0, b1, b2, b3, bytesOf]
  simp only [State.fetchWord, hspot, hvalid, ne_eq, not_true_eq_false, if_false, State.l2Read, hstrike, if_true, hpoison, Bool.false_eq_true, hb,
    leNat_bytesOf]

/-- The words of `ws` stand at address va and behind it. -/
def WordsAt (s : State) (g : Nat) (va : Dword) (ws : List Word) : Prop :=
  ∀ k, k < ws.length → WordAt s g (va + BitVec.ofNat 64 (4 * k)) (ws.getD k 0)

theorem WordsAt.head {s : State} {g : Nat} {va : Dword} {w : Word} {ws : List Word} (h : WordsAt s g va (w :: ws)) : WordAt s g va w := by
  simpa using h 0 (by simp)

theorem WordsAt.tail {s : State} {g : Nat} {va : Dword} {w : Word} {ws : List Word} (h : WordsAt s g va (w :: ws)) : WordsAt s g (va + 4) ws := by
  intro k hk
  have e : va + 4 + BitVec.ofNat 64 (4 * k) = va + BitVec.ofNat 64 (4 * (k + 1)) := by
    rw [show 4 * (k + 1) = 4 + 4 * k by omega, BitVec.ofNat_add, ← BitVec.add_assoc]
    rfl
  rw [e]
  simpa using h (k + 1) (by simpa using hk)

/-- The words of a bundle are fetched one after another; there are never more than the fetch allows, for each prefix is of a new kind. -/
theorem fetchFrom_decodeFrom {s : State} {g : Nat} (ws : List Word) : ∀ (va : Dword) (pre : List Word) (px : Pfx) (n : Nat), WordsAt s g va ws →
    6 ≤ n + prefixes px →
    (∀ i, decodeFrom px ws = .ok i [] → s.fetchFrom g va pre px n = (.ok i, s.onGrp g fun x => { x with bundle := pre ++ ws })) ∧
    (∀ e, decodeFrom px ws = .illegal e → decodeFrom px ws.dropLast = .short → s.fetchFrom g va pre px n = (.illegal e, s)) := by
  induction ws with
  | nil => simp [decodeFrom]
  | cons w ws ih =>
    intro va pre px n hw hn
    obtain ⟨n, rfl⟩ : ∃ m, n = m + 1 := ⟨n - 1, by have := prefixes_le px; omega⟩
    have hf := fetchWord_of_wordAt hw.head
    cases hs : scanWord px w with
    | bad e => simp [decodeFrom, State.fetchFrom, hf, hs]
    | done i =>
      simp only [decodeFrom, State.fetchFrom, hf, hs, Decoded.ok.injEq, and_imp, reduceCtorEq, false_implies, implies_true, and_true]
      rintro _ rfl rfl
      rfl
    | more p =>
      have hp := prefixes_scanWord hs
      obtain ⟨hok, hbad⟩ := ih (va + 4) (pre ++ [w]) p n hw.tail (by omega)
      simp only [decodeFrom, State.fetchFrom, hf, hs]
      refine ⟨fun i h => by simpa using hok i h, fun e h hd => hbad e h ?_⟩
      cases ws with
      | nil => rfl
      | cons y ys => simpa [decodeFrom, hs] using hd

theorem fetch_of_wordsAt {s : State} {g : Nat} {ws : List Word} (hu : (s.grp g).underWay = false) (hw : WordsAt s g (s.grp g).pc ws) :
    (∀ i, decodeWords ws = .ok i [] → s.fetch g = (.ok i, s.onGrp g fun x => { x with bundle := ws })) ∧
    (∀ e, decodeWords ws = .illegal e → decodeWords ws.dropLast = .short → s.fetch g = (.illegal e, s)) := by
  have h := fetchFrom_decodeFrom ws (s.grp g).pc [] Pfx.none 6 hw (by decide)
  simpa only [State.fetch, hu, Bool.false_eq_true, if_false, List.nil_append, decodeWords] using h

/-! ### The issue -/

theorem traptDue_none {s : State} {g : Nat} (h : s.session? (s.grp g).ctx = none) (p : Nat → Bool) : s.traptDue g p = none := by
  simp [State.traptDue, State.replaying?_none h]

theorem atBundle_cur (s : State) (g : Nat) : (s.atBundle g).cur = g := by
  unfold State.atBundle
  simp only
  split <;> rfl

/-- A step whose move is the issue of group g (log entries 1 and 2). -/
theorem step_of_moves {s u : State} {g : Nat} (h : Moves s g u) (hg : g < 18432) : Machine.step s = u.issueGroup g := by
  have hm : u.move (.issue g) = u.issueGroup g := if_neg (by omega)
  rw [← hm]
  rcases h with ⟨r, ha, rfl⟩ | ⟨ha, hd, rfl⟩ <;> simp [step, *]

/-- Outside sessions, the group that its scheduler chooses runs the bundle at its pc, and the issue cycle passes (R76 to R79). -/
theorem issueGroup_runs {u w v : State} {g : Nat} (hw : w = u.toIssue g 3) (hv : v = w.atBundle g) (hu : u.session? (u.grp g).ctx = none)
    (hs : v.session? (v.grp g).ctx = none) (hmay : w.mayIssue g = true) (hr : v.ready g = true)
    (hb : (w.grp g).fresh = false ∨ v.breakAt g = none) : u.issueGroup g = afterIssue g v.runBundle := by
  have hdue : u.haltDue g = false := by simp [State.haltDue, traptDue_none hu]
  have hkill : v.replayKill g = v := by simp [State.replayKill, traptDue_none hs]
  have hbreak : (if (w.grp g).fresh then v.breakAt g else none) = none := by
    rcases hb with h | h <;> simp [h]
  simp only [State.issueGroup, hdue, Bool.false_eq_true, if_false, ← hw, hmay, Bool.not_true, ← hv, hkill, hr, hbreak]
  unfold afterIssue
  cases v.runBundle <;> rfl

/-- Settles O56: the step is the group's issue, and the fetch hands its words to the decoder one by one. -/
theorem stepRunsDecoded : Obligations.StepRunsDecoded := by
  intro s g u w v ws hmoves hg hw hv hu hs hmay hr hb huw hat
  have hcur : v.cur = g := by rw [hv, atBundle_cur]
  obtain ⟨hok, hbad⟩ := fetch_of_wordsAt (ws := ws) huw hat
  rw [step_of_moves hmoves hg, issueGroup_runs hw hv hu hs hmay hr hb]
  refine ⟨fun i h => ?_, fun e h hd => ?_⟩
  · simp only [State.runBundle, hcur, hok i h]
  · simp only [State.runBundle, hcur, hbad e h hd]

end Sys2Proof.Machine

/-! SUPPORT. Two statements about queues that fail (O43, O48): a device with one queue, on which the model evaluates to the refuting outcomes. -/

namespace Sys2Proof.Machine

open Sys2Proof.Safety

/-! ### A device with one queue -/

/-- The leaf of context 1 for the page at 0x10000: the class-P frame's slot at 0x200000, readable and writable. -/
def queueLeaf : TlbEntry := { ctx := 1, base := 0x10000, size := 65536, pte := 0x200E01 }

/-- A group of context 1 that holds the queue's ID in s1 and an entry for it in s2. -/
def queueGroup : Group :=
  { Group.idle with used := true, ctx := 1, pc := 0x1000, em := 1, live := 1, av := 8, as := 8, sregs := [(1, 0x4000010), (2, 0x77)] }

/-- Context 1 of tenant 1, whose page table at 0x400000 has that leaf, with a group in slot 0 and these bytes in the page of the queue's header;
the page table's line is in L3. -/
def queueDevice (page : Memory) : State :=
  { State.reset with
    groups := [(0, queueGroup)]
    cores := [(0, { Core.idle with l1tlb := [queueLeaf] })]
    ctxs := [(1, { Ctx.none with used := true, tvec := 0x2000, spapb := 0x10000000000, tenant := 1, ptroot := 0x400000 })]
    hub := { Hub.reset with window := [(1, 2), (2, 2)], slices := [(32, { Slice.reset with lines := [0x2000] })] }
    mem := page ++ [(0x400000, 1), (0x400002, 0x40), (0x400007, 0xC0), (0x400008, 1), (0x400009, 0x0E), (0x40000A, 0x20)] }

/-! ### A put over a table that lists a cluster twice -/

/-- A queue of two 8-byte slots, the first of them filled. -/
def putHdr : QHdr :=
  { id := 0x4000010, loc := 0x200000, logn := 1, e64 := false, fabric := false, peer := 0, ring := 0x10040, head := 0, tail := 1, free := 1, inflight := 0 }

/-- Its cluster table is not in canonical form. Reads find cluster 0's first entry, whose L2 holds the sector of the queue's second slot, with
nothing written; the second entry holds a written byte of the line behind it, at 0x200200. -/
def shadowed : State :=
  { queueDevice [(0x200000, 1), (0x200002, 0x51), (0x200003, 0x5A), (0x200004, 1), (0x200008, 0x40), (0x20000A, 1), (0x200018, 1), (0x200020, 1)] with
    clusters := [(0, { Cluster.empty with l2 := [(0x8001, { Sector.empty with valid := 1 })] }),
      (0, { Cluster.empty with l2 := [(0x8008, { Sector.empty with data := 0xAB, valid := 1, written := 1 })] })] }

theorem shadowed_clean : Clean shadowed := by
  intro k e he
  rcases Nat.eq_zero_or_pos k with rfl | hk
  · simp only [State.cluster, shadowed, SMap.look, if_true, List.mem_singleton] at he
    rw [he]
    rfl
  · simp [State.cluster, shadowed, SMap.look, Cluster.empty, Nat.ne_of_lt hk] at he

theorem shadowed_plain : Plain shadowed := ⟨rfl, by decide +kernel, by decide +kernel, rfl, rfl⟩

/-- The bundle QPUT s1, s2. -/
def putOp : Op := opStop (wordR Pre.plain 0x36 0 0 1 2) [⟨.a, .s, .rd, 1⟩, ⟨.b, .s, .rd, 2⟩] (some 3)

theorem shadowed_issues : Issues Pre.plain putOp shadowed := by
  refine ⟨rfl, ?_, rfl, ?_, rfl, rfl⟩ <;> decide +kernel

theorem shadowed_open :
    QueueOpen (atBody Pre.plain shadowed) (shadowed.readS (fieldsNow Pre.plain putOp shadowed).a) (shadowed.srcS Pre.plain (fieldsNow Pre.plain putOp shadowed).b)
      putHdr true [0x200048] where
  fresh := nofun
  fault := nofun
  slot := by decide
  asks := rfl
  header := by decide +kernel
  aligned := nofun
  places := by decide +kernel
  alone := nofun
  quiet := rfl
  clean := shadowed_clean
  memory := by decide +kernel
  sound := ⟨rfl, rfl, rfl⟩

/-- The put's request at the home. -/
def putReq : QueueReq := { queue := 0x4000010, gid := 0, put := true, entry := leBytes 8 0x77, dest := 0 }

/-- The put ends with the hidden byte at its home: dropping the slot's line takes cluster 0's first entry out of the table, and the second entry,
now read, is sent home with the rest of the lines that the write covers. -/
theorem shadowed_put {t : State} (h : exec (.qput Pre.plain 1 2) shadowed = .next t) : Memory.byte t.mem 0x200200 = 0xAB := by
  have e : (match exec (.qput Pre.plain 1 2) shadowed with
    | .next t => Memory.byte t.mem 0x200200
    | _ => 0) = 0xAB := by decide +kernel
  simpa only [h] using e

/-- Refutes O43: nothing asks the table of clusters to be in canonical form, and a put over a table that lists a cluster twice writes a byte
back that `Clean` does not see. -/
theorem not_queues : ¬ Obligations.Queues := by
  unfold Obligations.Queues
  intro h
  obtain ⟨hput, -⟩ := h Pre.plain 0 1 2 shadowed shadowed_plain
  obtain ⟨hputs, -⟩ := hput putOp rfl shadowed_issues
  have hstores := (hputs _ putHdr [0x200048] rfl shadowed_open).1 (leBytes 8 0x77) (atBody Pre.plain shadowed) ⟨by decide +kernel, rfl⟩ rfl
    shadowed_clean rfl ⟨rfl, rfl, rfl⟩ (by decide +kernel) putReq _ (by decide +kernel) rfl (by decide +kernel)
  obtain ⟨t, ht, -, -, -, hmem⟩ := hstores.1 (by decide) 0x200048 0 false (by decide +kernel)
  have hbyte := hmem 0x200200
  rw [shadowed_put ht] at hbyte
  exact absurd hbyte (by decide +kernel)

/-! ### A credit request under a device number that no device has -/

/-- A queue of two 64-byte slots, both free, for fabric senders of tenant 1. -/
def creditHdr : QHdr :=
  { id := 0x4000010, loc := 0x200000, logn := 1, e64 := true, fabric := true, peer := 1, ring := 0x10040, head := 0, tail := 0, free := 2, inflight := 0 }

/-- Context 1 replays a log whose one record is the token 1 of a request by an engine of core 0 at the queue; the count there is 0. -/
def replaying : State :=
  { queueDevice [(0x200000, 1), (0x200002, 0x51), (0x200003, 0x5A), (0x200004, 1), (0x200005, 3), (0x200006, 1), (0x200008, 0x40), (0x20000A, 1), (0x200020, 2)] with
    tenants := [(1, { Tenant.reset with
      sessions := vset Tenant.reset.sessions 0
        { Session.reset with lctl := 0x407, log := [mkRec 0x03 16 0 [(27, 4, 4), (37, 27, 1), (64, 64, 0x4000010)]] } })] }

theorem replaying_queueHere : QueueHere replaying 0x4000010 creditHdr := ⟨by decide +kernel, by decide, nofun⟩

/-- That state with the request of device 4,096 waiting at the queue's home. -/
def requested : State :=
  replaying.onHub fun u => { u with queueReqs := u.queueReqs ++ [{ queue := 0x4000010, gid := 2 ^ 20 + 4096, put := true, entry := [], dest := 0 }] }

/-- The home takes 4,096 for the engine of core 0, whose token is not due, and gives no credit. -/
theorem replaying_request {t : State} (h : exec (.fabricCreditRequest 4096 1 0x4000010) replaying = .next t) : t.hub.credits = [] := by
  have e : (match exec (.fabricCreditRequest 4096 1 0x4000010) replaying with
    | .next t => t.hub.credits
    | _ => [(0, 0)]) = [] := by decide +kernel
  simpa only [h] using e

/-- Refutes O48: `dev` may be a number above the 12 bits of sdev (R354), which stands for an engine of this device at the queue's home, and in a
replay that engine waits for its token. -/
theorem not_fabricEvents : ¬ Obligations.FabricEvents := by
  unfold Obligations.FabricEvents
  intro h
  obtain ⟨hcredit, -⟩ := h replaying rfl
  obtain ⟨-, hhere⟩ := hcredit 4096 1 0x4000010 creditHdr (by decide) (by decide +kernel)
  obtain ⟨-, hgives⟩ := (hhere replaying_queueHere).2 rfl rfl rfl ⟨fun _ => rfl, rfl, rfl, rfl⟩ requested rfl (by decide +kernel)
  obtain ⟨t, ht, -, -, hcredits, -⟩ := hgives (by decide)
  rw [replaying_request ht] at hcredits
  exact absurd hcredits (by decide)

end Sys2Proof.Machine

/-! SUPPORT. Bodies of instructions that wait at a unit of the device and complete with its answer, outside sessions (O42). -/

namespace Sys2Proof.Machine

open Sys2Proof.Safety

/-! ### States within a bundle's body -/

/-- u is a state in which the body of s's bundle runs: still outside sessions, at the repeat that s is about to execute. -/
structure Within (x : Pre) (s u : State) : Prop where
  plain : Plain u
  cur : u.cur = s.cur
  rep : u.me.rep = repNow x s
  pc : u.me.pc = s.me.pc

/-- A change of the current group's own state that the bundle's standing does not depend on. -/
theorem Within.onMe {x : Pre} {s u : State} (h : Within x s u) {f : Group → Group} (hu : (f u.me).used = u.me.used) (hc : (f u.me).ctx = u.me.ctx)
    (hs : (f u.me).step = u.me.step) (hr : (f u.me).rep = u.me.rep) (hpc : (f u.me).pc = u.me.pc) (hw : (f u.me).wait.cond ≠ .marker) :
    Within x s (u.onMe f) := by
  have e : (u.onMe f).me = f u.me := State.me_onMe u (hu.trans h.plain.used)
  refine ⟨⟨by rw [e, hu, h.plain.used], by rw [e]; exact hw, ?_, by rw [e, hs, h.plain.free], h.plain.calm⟩, h.cur, by rw [e, hr, h.rep],
    by rw [e, hpc, h.pc]⟩
  rw [e, hc]
  exact (State.session?_congr (s := u) rfl rfl _).trans h.plain.alone

/-- A change of anything but the groups, the contexts and the tenants, which marks no context. -/
theorem Within.congr {x : Pre} {s u v : State} (h : Within x s u) (hcur : v.cur = u.cur) (hg : v.groups = u.groups) (hc : v.ctxs = u.ctxs)
    (ht : v.tenants = u.tenants) (hd : v.hub.doomed = u.hub.doomed) : Within x s v := by
  have e : v.me = u.me := by simp only [State.me, State.grp, hg, hcur]
  refine ⟨⟨by rw [e, h.plain.used], by rw [e]; exact h.plain.awake, ?_, by rw [e, h.plain.free], by rw [hd, h.plain.calm]⟩, hcur.trans h.cur,
    by rw [e, h.rep], by rw [e, h.pc]⟩
  rw [e, State.session?_congr hc ht]
  exact h.plain.alone

theorem within_enter (x : Pre) {s : State} (h : Plain s) : Within x s (s.enter (repNow x s)) := by
  have e := enter_me h.used (repNow x s)
  refine ⟨plain_of h (elsewhere_enter h.used _) ?_ ?_ ?_ ?_, rfl, ?_, ?_⟩ <;> rw [e]

theorem Within.writeS {x : Pre} {s u : State} (h : Within x s u) (r : Reg) (v : Dword) : Within x s (u.writeS r v) :=
  h.onMe rfl rfl rfl rfl rfl h.plain.awake

/-- The current group goes on from its wait. -/
def woken (u : State) : State := u.onMe fun g => { g with wait := Wait.none }

theorem Within.woken {x : Pre} {s u : State} (h : Within x s u) : Within x s (woken u) :=
  h.onMe rfl rfl rfl rfl rfl nofun

theorem woken_me {u : State} (h : u.me.used = true) : (woken u).me = { u.me with wait := Wait.none } := State.me_onMe u h

theorem elsewhere_woken {u : State} (h : u.me.used = true) : Elsewhere u (woken u) := elsewhere_onMe u h

/-! ### How a body ends -/

/-- A body that goes on completes its repeat. -/
theorem finish_within {s u : State} (x : Pre) (code : Option Nat) (h : Within x s u) :
    ∃ t, finish x code (.next u) = .next t ∧ arch t.me = arch u.me ∧ Elsewhere u t ∧ Advances x (nextPc x s) s t := by
  obtain ⟨harch, helse, hpos⟩ := complete_plain x code none h.plain
  refine ⟨(u.complete x code none).reap, rfl, ?_⟩
  rw [State.reap_calm (by rw [helse.hub]; exact h.plain.calm)]
  simp only [Option.isNone_none, Bool.true_and, decide_eq_true_eq, Option.getD_none, h.rep, h.pc] at hpos
  exact ⟨harch, helse, hpos⟩

section

variable {i : Instr} {x : Pre} {o : Op} {s u : State} {body : Flds → State → Eff} (hi : Issues x o s) (hx : exec i s = issue x o body s)
include hi hx

/-- A body that goes on and has changed nothing outside its group. -/
theorem becomes_within {g : Group} (hb : body (fieldsNow x o s) (s.enter (repNow x s)) = .next u) (h : Within x s u) (he : Elsewhere s u)
    (hg : arch u.me = arch g) : Becomes i x s g := by
  obtain ⟨t, ht, harch, helse, hpos⟩ := finish_within x o.code h
  exact ⟨t, by rw [hx, issue_of_issues body hi, hb, ht], harch.trans hg, elsewhere_trans he helse, hpos⟩

/-- A body that goes on and has changed no other group and no byte of memory. -/
theorem stores_within {g : Group} (hb : body (fieldsNow x o s) (s.enter (repNow x s)) = .next u) (h : Within x s u)
    (hgrp : ∀ n, n ≠ s.cur → u.grp n = s.grp n) (hmem : ∀ z, Memory.byte u.mem z = Memory.byte s.mem z) (hg : arch u.me = arch g) : Stores i x s g (Memory.byte s.mem) := by
  obtain ⟨t, ht, harch, helse, hpos⟩ := finish_within x o.code h
  refine ⟨t, by rw [hx, issue_of_issues body hi, hb, ht], harch.trans hg, hpos, fun n hn => ?_, fun z => (helse.mem z).trans (hmem z)⟩
  rw [helse.groups n (by rw [h.cur]; exact hn), hgrp n hn]

/-- A body that raises an exception where it started. -/
theorem takesTrap_enter {cause : Nat} {v : Dword} (hr : Ready s)
    (hb : body (fieldsNow x o s) (s.enter (repNow x s)) = .trap cause v (s.enter (repNow x s))) :
    TakesTrap i x.px.rep.isSome (repNow x s) s cause v s.me := by
  have e := enter_me hr.plain.used (repNow x s)
  refine takesTrap_of hr hi hx hb (elsewhere_refl _) (stands_enter hr.plain.used _) ?_ ?_ ?_ ?_ <;> rw [e]
  · exact hr.out
  · rfl

end

theorem parkMe_me {u : State} (h : u.me.used = true) (n : Nat) (c : Cond) :
    (u.parkMe n c).me = { u.me with wait := { code := n, cond := c } } := State.me_onMe u h

/-- A wait for no request slots leaves the core's line of waiting groups, and opens no chunk outside sessions. -/
theorem finish_park {x : Pre} {s u : State} (code : Option Nat) (h : Within x s u) (n : Nat) {c : Cond} (hc : c.forSlots = false) :
    finish x code (.park n c u) = .next (u.parkMe n c) := by
  have hline : u.lineUp c = u := by simp [State.lineUp, hc]
  have halone : (u.parkMe n c).session? ((u.parkMe n c).grp u.cur).ctx = none := by
    have hctx : ((u.parkMe n c).grp u.cur).ctx = u.me.ctx := (congrArg Group.ctx (parkMe_me h.plain.used n c)).trans rfl
    rw [hctx]
    exact (State.session?_congr (s := u) rfl rfl _).trans h.plain.alone
  have hopen : (u.parkMe n c).opened u.cur c = u.parkMe n c := by simp [State.opened, State.openChunk, halone]
  simp only [finish, hline, hopen]
  rw [State.reap_calm (by exact h.plain.calm)]

/-! ### Another core's state -/

/-- The idle core has no request at its deque. -/
theorem core_ne_idle_of_dqReqs {k : Core} (h : k.dqReqs ≠ []) : k ≠ Core.idle := by
  rintro rfl
  exact h rfl

theorem core_ne_idle_of_dqHolder {k : Core} {c : Nat} (h : k.dqHolder = some c) : k ≠ Core.idle := by
  rintro rfl
  cases h

theorem onUnit_of_elsewhere {s u : State} (h : Elsewhere s u) (c : Nat) : OnUnit s u c (u.core c) :=
  ⟨h.cur, h.groups, h.mem, h.clusters, h.ctxs, h.tenants, by rw [h.hub], rfl, fun d _ => h.cores d⟩

theorem onUnit_onCore {s u : State} {c : Nat} {k : Core} (h : OnUnit s u c k) {f : Core → Core} (hf : f (u.core c) ≠ Core.idle) :
    OnUnit s (u.onCore c f) c (f (u.core c)) :=
  ⟨h.cur, h.groups, h.mem, h.clusters, h.ctxs, h.tenants, h.hub, congrArg uncounted (State.core_setCore_self u c hf),
    fun d hd => (congrArg uncounted (State.core_setCore_ne u hf hd)).trans (h.cores d hd)⟩

theorem onUnit_elsewhere {s u t : State} {c : Nat} {k : Core} (h : OnUnit s u c k) (he : Elsewhere u t) : OnUnit s t c k :=
  ⟨he.cur.trans h.cur, fun g hg => (he.groups g (h.cur ▸ hg)).trans (h.groups g hg), fun a => (he.mem a).trans (h.mem a),
    he.clusters.trans h.clusters, he.ctxs.trans h.ctxs, he.tenants.trans h.tenants, by rw [he.hub]; exact h.hub, (he.cores c).trans h.unit,
    fun d hd => (he.cores d).trans (h.cores d hd)⟩

/-! ### Values and tokens outside sessions -/

/-- A value read across a crossing is neither logged nor replaced. -/
theorem crossing_plain {s : State} {g : Nat} (h : s.session? (s.grp g).ctx = none) (src : Nat) (v : Dword) : s.crossing g src v = (v, s) := by
  simp [State.crossing, State.replaying?_none h, State.grpRec, State.addRec, State.recording?_none h]

/-- A group's request at a home takes its token there, which is not logged. -/
theorem tokenNow_plain {s : State} {g : Nat} (h : s.session? (s.grp g).ctx = none) (c kind loc : Nat) (lane : Option Nat) :
    s.tokenNow c kind loc (.group g) lane = s.takeTok kind loc (.group g) := by
  have hlogged : s.useLogged c kind loc (.group g) lane = s := by simp [State.useLogged, State.useToken, State.replaying?_none h]
  have h1 : (s.takeTok kind loc (.group g)).session? ((s.takeTok kind loc (.group g)).grp g).ctx = none :=
    (State.session?_congr (s := s) rfl rfl _).trans h
  simp [State.tokenNow, hlogged, State.token, State.grpRec, State.addRec, State.recording?_none h1]

/-- A core's copy of a context's bound registers, as it stands at their home. -/
def rebound (s : State) (core c : Nat) : State :=
  s.onCore core fun k => { k with bounds := SMap.put k.bounds c (s.ctx c).bounds noBounds }

theorem refreshBounds_plain {s : State} {g : Nat} (h : s.session? (s.grp g).ctx = none) (core c : Nat) :
    s.refreshBounds core c (some g) = (rebound s core c).takeTok 2 (boundLoc c) (.group g) :=
  tokenNow_plain (s := rebound s core c) ((State.session?_congr (s := s) rfl rfl _).trans h) c 2 (boundLoc c) none

/-- An acquire at PKG scope changes the cluster's caches, the core's bound registers and their token. -/
theorem acquireWide_plain {u : State} (h : u.session? u.me.ctx = none) : u.acquireWide u.cur =
    (rebound (u.invalidateAll (cluOf (coreOf u.cur))) (coreOf u.cur) u.me.ctx).takeTok 2 (boundLoc u.me.ctx) (.group u.cur) :=
  refreshBounds_plain (s := u.invalidateAll (cluOf (coreOf u.cur))) ((State.session?_congr (s := u) rfl rfl _).trans h) _ _

theorem Within.acquireWide {x : Pre} {s u : State} (h : Within x s u) :
    Within x s (u.acquireWide u.cur) ∧ (u.acquireWide u.cur).groups = u.groups ∧ (u.acquireWide u.cur).mem = u.mem ∧
      (u.acquireWide u.cur).cur = u.cur := by
  rw [acquireWide_plain h.plain.alone]
  exact ⟨h.congr rfl rfl rfl rfl rfl, rfl, rfl, rfl⟩

end Sys2Proof.Machine

/-! SUPPORT. The deque instructions (O42): a group that waits, one that has been answered, and the counts. -/

namespace Sys2Proof.Machine

open Sys2Proof.Safety

/-! ### The end of a wait -/

/-- The state of the body of an answered group's bundle, once its wait is over. -/
theorem within_woken_enter (x : Pre) {s : State} (h : Plain s) :
    Within x s (woken (s.enter (repNow x s))) ∧ Elsewhere s (woken (s.enter (repNow x s))) ∧
      arch (woken (s.enter (repNow x s))).me = arch s.me := by
  have hw := within_enter x h
  have e : (woken (s.enter (repNow x s))).me = { s.me with rep := repNow x s, resume := 0, wait := Wait.none } := by
    rw [woken_me hw.plain.used, enter_me h.used]
  refine ⟨hw.woken, elsewhere_trans (elsewhere_enter h.used _) (elsewhere_woken hw.plain.used), ?_⟩
  rw [e]
  rfl

/-- Bookkeeping does not matter to a scalar write. -/
theorem arch_setSabs {y z : Group} (h : arch y = arch z) (n : Nat) (v : Dword) : arch (y.setSabs n v) = arch (z.setSabs n v) := by
  have e : ∀ g : Group, arch (g.setSabs n v) = (arch g).setSabs n v := fun _ => rfl
  rw [e, e, h]

theorem arch_writeS {u : State} {y : Group} (hu : u.me.used = true) (h : arch u.me = arch y) (r : Reg) (v : Dword) :
    arch (u.writeS r v).me = arch (y.setSabs (y.sb + r.toNat) v) := by
  rw [writeS_me hu, arch_sb h]
  exact arch_setSabs h _ v

/-- A group that a push's deque has answered completes with the status in d. -/
theorem becomes_answered {i : Instr} {x : Pre} {o : Op} {s : State} {body : Flds → State → Eff} {d : Reg} {p : Dword} (hp : Plain s) (hi : Issues x o s)
    (hx : exec i s = issue x o body s)
    (hb : body (fieldsNow x o s) (s.enter (repNow x s)) = .next ((woken (s.enter (repNow x s))).writeS d p)) :
    Becomes i x s (s.me.setSabs (s.me.sb + d.toNat) p) := by
  obtain ⟨hw, he, ha⟩ := within_woken_enter x hp
  exact becomes_within hi hx hb (hw.writeS d p) (elsewhere_trans he (elsewhere_writeS hw.plain.used d p)) (arch_writeS hw.plain.used ha d p)

/-- A pair of scalar registers written. -/
theorem Within.writeTwo {x : Pre} {s u : State} (h : Within x s u) (r : Reg) (p q : Dword) :
    Within x s ((u.writeS r p).writeS (r + 1) q) ∧ Elsewhere u ((u.writeS r p).writeS (r + 1) q) ∧
      ∀ y, arch u.me = arch y → arch ((u.writeS r p).writeS (r + 1) q).me = arch (withTwo y r p q) := by
  have h1 := h.writeS r p
  exact ⟨h1.writeS _ q, elsewhere_trans (elsewhere_writeS h.plain.used r p) (elsewhere_writeS h1.plain.used _ q),
    fun y hy => arch_writeS h1.plain.used (arch_writeS h.plain.used hy r p) (r + 1) q⟩

/-- A pop or steal whose group the deque has answered with p and q: an entry, with q = 0, is an acquire (R391). -/
theorem takes_answered {i : Instr} {x : Pre} {o : Op} {s : State} {body : Flds → State → Eff} {d : Reg} {p q : Dword} (hp : Plain s)
    (hi : Issues x o s) (hx : exec i s = issue x o body s)
    (hb : body (fieldsNow x o s) (s.enter (repNow x s)) = dqTake { d := d, a := 0, b := 0, e := 0 } p q (woken (s.enter (repNow x s)))) :
    (q ≠ 0 → Becomes i x s (withTwo s.me d p q)) ∧ (q = 0 → Stores i x s (withTwo s.me d p q) (Memory.byte s.mem)) := by
  obtain ⟨hw, he, ha⟩ := within_woken_enter x hp
  generalize woken (s.enter (repNow x s)) = u at hw he ha hb
  refine ⟨fun hq => ?_, fun hq => ?_⟩
  · obtain ⟨hw2, he2, ha2⟩ := hw.writeTwo d p q
    refine becomes_within hi hx ?_ hw2 (elsewhere_trans he he2) (ha2 _ ha)
    rw [hb, dqTake, if_neg hq]
  · obtain ⟨hw1, hgroups, hmem, hcur⟩ := hw.acquireWide
    have hme : (u.acquireWide u.cur).me = u.me := by simp only [State.me, State.grp, hgroups, hcur]
    obtain ⟨hw2, he2, ha2⟩ := hw1.writeTwo d p q
    refine stores_within hi hx ?_ hw2 (fun n hn => ?_) (fun z => ?_) (ha2 _ (by rw [hme]; exact ha))
    · rw [hb, dqTake, if_pos hq]
    · rw [he2.groups n (by rw [hcur, he.cur]; exact hn), State.grp, hgroups]
      exact he.groups n hn
    · rw [he2.mem, hmem, he.mem]

/-! ### The bottom of a deque -/

/-- A core whose deque is context c's. -/
def dqHeld (c : Nat) (k : Core) : Core := { k with dqHolder := some c }

/-- A core at whose deque group g has made a request. -/
def dqAsked (g op : Nat) (v : Dword) (k : Core) : Core := { k with dqReqs := k.dqReqs ++ [{ gid := g, op := op, val := v, since := k.cycles }] }

/-- An L2 without written bytes has nothing to send home. -/
theorem writeBackAll_clean {s : State} (h : Clean s) (k : Nat) : s.writeBackAll k = s := by
  have e : ((s.cluster k).l2.filter fun e => e.2.written != 0) = [] := by
    rw [List.filter_eq_nil_iff]
    intro p hp
    simp [h k p hp]
  rw [State.writeBackAll, e]
  rfl

section

variable {op : Nat} {v : Dword} {k : Dword → Dword → State → Eff} {t : State}

theorem dqBottom_handed {p q : Dword} (h : t.me.wait.cond = .handed p q) : dqBottom op v k t = k p q (woken t) := by
  simp only [dqBottom, h]
  rfl

theorem dqBottom_foreign {n : Nat} (h : Fresh t) (hn : (t.core (coreOf t.cur)).dqHolder = some n) (hc : n ≠ t.me.ctx) :
    dqBottom op v k t = queueTrap 1 t := by
  unfold dqBottom
  split
  · next p q e => exact absurd e (h p q)
  · simp [hn, hc]

/-- The group takes the deque for its context, where no other has it, and waits there with a request. -/
theorem dqBottom_asks (h : Fresh t) (hc : (t.core (coreOf t.cur)).dqHolder = none ∨ (t.core (coreOf t.cur)).dqHolder = some t.me.ctx)
    (hw : t.dqWaits = false) (hf : t.me.flights = []) (hop : op = 0 → Clean t) :
    dqBottom op v k t = .park 13 .deque ((t.onCore (coreOf t.cur) (dqHeld t.me.ctx)).dqAsk (coreOf t.cur) op v) := by
  have hheld : ((t.core (coreOf t.cur)).dqHolder.any (· != t.me.ctx)) = false := by rcases hc with e | e <;> simp [e]
  have horder : t.me.orderWait = false := by simp [Group.orderWait, hf]
  unfold dqBottom
  split
  · next p q e => exact absurd e (h p q)
  · by_cases h0 : op = 0
    · simp only [hheld, hw, hf, h0, State.releaseWide, writeBackAll_clean (hop h0)]
      rfl
    · simp only [hheld, hw, horder, h0, decide_false, Bool.false_and, Bool.and_false, Bool.false_eq_true, if_false]
      rfl

end

/-! ### Requests -/

/-- A group that waits at a deque with a request has made that request and nothing else. -/
theorem onUnit_dqAsk {s u : State} {c : Nat} {k : Core} (h : OnUnit s u c k) (op : Nat) (v : Dword) :
    OnUnit s (u.dqAsk c op v) c (dqAsked u.cur op v (u.core c)) :=
  onUnit_onCore (f := dqAsked u.cur op v) h (core_ne_idle_of_dqReqs (by simp [dqAsked]))

theorem asks_of_park {i : Instr} {x : Pre} {o : Op} {s u : State} {body : Flds → State → Eff} {c : Nat} {k : Core} (hi : Issues x o s)
    (hx : exec i s = issue x o body s) (hb : body (fieldsNow x o s) (s.enter (repNow x s)) = .park 13 .deque u) (hw : Within x s u)
    (ha : arch u.me = arch s.me) (hk : OnUnit s u c k) : Asks i s c k := by
  refine ⟨u.parkMe 13 .deque, ?_, ?_, ?_, ?_, onUnit_elsewhere hk (elsewhere_onMe u hw.plain.used)⟩
  · rw [hx, issue_of_issues body hi, hb, finish_park o.code hw 13 rfl]
  all_goals rw [parkMe_me hw.plain.used]
  · exact ha
  · exact hw.pc

section

variable {i : Instr} {x : Pre} {o : Op} {s : State} {body : Flds → State → Eff} {op : Nat} {v : Dword} (hp : Plain s) (hi : Issues x o s)
  (hx : exec i s = issue x o body s)
include hp hi hx

/-- A push or pop at a deque that is free or its context's. -/
theorem asks_bottom {k : Dword → Dword → State → Eff}
    (hb : body (fieldsNow x o s) (s.enter (repNow x s)) = dqBottom op v k (s.enter (repNow x s))) (hf : Fresh s)
    (hc : (s.core (coreOf s.cur)).dqHolder = none ∨ (s.core (coreOf s.cur)).dqHolder = some s.me.ctx) (hw : s.dqWaits = false)
    (hfl : s.me.flights = []) (hop : op = 0 → Clean s) :
    Asks i s (coreOf s.cur) (dqAsked s.cur op v (dqHeld s.me.ctx (s.core (coreOf s.cur)))) := by
  have hu := hp.used
  have e := enter_me hu (repNow x s)
  have hasks := dqBottom_asks (op := op) (v := v) (k := k) (t := s.enter (repNow x s)) (by unfold Fresh; rw [e]; exact hf)
    (by rw [e]; exact hc) hw (by rw [e]; exact hfl) hop
  have hctx : (s.enter (repNow x s)).me.ctx = s.me.ctx := by rw [e]
  rw [hctx] at hasks
  have hne : dqHeld s.me.ctx ((s.enter (repNow x s)).core (coreOf s.cur)) ≠ Core.idle := core_ne_idle_of_dqHolder rfl
  have hcore : ((s.enter (repNow x s)).onCore (coreOf s.cur) (dqHeld s.me.ctx)).core (coreOf s.cur) = dqHeld s.me.ctx (s.core (coreOf s.cur)) :=
    State.core_setCore_self (s.enter (repNow x s)) (coreOf s.cur) hne
  have hunit := onUnit_dqAsk (onUnit_onCore (onUnit_of_elsewhere (elsewhere_enter hu (repNow x s)) (coreOf s.cur)) hne) op v
  rw [hcore] at hunit
  exact asks_of_park hi hx (hb.trans hasks) ((within_enter x hp).congr rfl rfl rfl rfl rfl) (SameReads.enter hu _).regs hunit

/-- A push or pop at a deque that another context holds. -/
theorem takesTrap_bottom {k : Dword → Dword → State → Eff}
    (hb : body (fieldsNow x o s) (s.enter (repNow x s)) = dqBottom op v k (s.enter (repNow x s))) (hr : Ready s) (hf : Fresh s) {n : Nat}
    (hn : (s.core (coreOf s.cur)).dqHolder = some n) (hc : n ≠ s.me.ctx) :
    TakesTrap i x.px.rep.isSome (repNow x s) s 0x11 1 s.me := by
  have e := enter_me hp.used (repNow x s)
  refine takesTrap_enter hi hx hr (hb.trans (dqBottom_foreign ?_ hn ?_))
  · unfold Fresh
    rw [e]
    exact hf
  · rw [e]
    exact hc

end

end Sys2Proof.Machine

/-! SUPPORT. The four deque instructions and O42. -/

namespace Sys2Proof.Machine

open Sys2Proof.Safety

/-! ### What the bodies read -/

/-- The wait of the group is that with which its bundle is issued. -/
theorem enter_wait {s : State} (h : s.me.used = true) (k : Nat) : (s.enter k).me.wait = s.me.wait := by rw [enter_me h]

theorem fresh_enter {s : State} (h : s.me.used = true) (k : Nat) (hf : Fresh s) : Fresh (s.enter k) := by
  unfold Fresh
  rw [enter_wait h]
  exact hf

/-- A core's number in a register, as the bodies of DQSTEAL and DQLEN read it. -/
theorem enter_readS {s : State} (h : s.me.used = true) (k : Nat) (r : Reg) : (s.enter k).readS r = s.readS r :=
  readS_congr (SameReads.enter h k) r

/-! ### The bodies of DQSTEAL and DQLEN -/

/-- The body of DQSTEAL. -/
def stealBody (r : Flds) (t : State) : Eff :=
  match t.me.wait.cond with
  | .handed p q => dqTake r p q (woken t)
  | _ =>
    let v := (t.readS r.a).toNat
    if 767 < v then queueTrap 11 t
    else if t.dqWaits then .park 13 .deque t
    else if t.me.orderWait then .park 31 .order t
    else .park 13 .deque (t.dqAsk v 2 0)

theorem exec_dqsteal (x : Pre) (d a : Reg) (s : State) :
    exec (.dqsteal x d a) s = issue x (opStop (wordR x 0x35 2 d a 0) [⟨.d, .t, .wr, d⟩, ⟨.a, .s, .rd, a⟩] (some 4)) stealBody s := rfl

theorem stealBody_handed {r : Flds} {t : State} {p q : Dword} (h : t.me.wait.cond = .handed p q) : stealBody r t = dqTake r p q (woken t) := by
  simp only [stealBody, h]

theorem stealBody_range {r : Flds} {t : State} (h : Fresh t) (hv : 767 < (t.readS r.a).toNat) : stealBody r t = queueTrap 11 t := by
  unfold stealBody
  split
  · next p q e => exact absurd e (h p q)
  · exact if_pos hv

theorem stealBody_asks {r : Flds} {t : State} (h : Fresh t) (hv : (t.readS r.a).toNat ≤ 767) (hw : t.dqWaits = false) (hf : t.me.flights = []) :
    stealBody r t = .park 13 .deque (t.dqAsk (t.readS r.a).toNat 2 0) := by
  have horder : t.me.orderWait = false := by simp [Group.orderWait, hf]
  unfold stealBody
  split
  · next p q e => exact absurd e (h p q)
  · simp [Nat.not_lt.mpr hv, hw, horder]

/-- The body of DQLEN. -/
def lenBody (r : Flds) (t : State) : Eff :=
  let v := (t.readS r.a).toNat
  if 767 < v then queueTrap 11 t
  else
    let (w, t1) := t.crossing t.cur 6 (BitVec.ofNat 64 ((t.core v).dqCount t.me.ctx))
    .next (t1.writeS r.d w)

theorem exec_dqlen (x : Pre) (d a : Reg) (s : State) :
    exec (.dqlen x d a) s = issue x (opStop (wordR x 0x35 3 d a 0) [⟨.d, .s, .wr, d⟩, ⟨.a, .s, .rd, a⟩] (some 4)) lenBody s := rfl

theorem lenBody_counts {r : Flds} {t : State} (h : Plain t) (hv : (t.readS r.a).toNat ≤ 767) :
    lenBody r t = .next (t.writeS r.d (BitVec.ofNat 64 ((t.core (t.readS r.a).toNat).dqCount t.me.ctx))) := by
  simp only [lenBody, if_neg (Nat.not_lt.mpr hv), crossing_plain (g := t.cur) h.alone]

/-! ### The four instructions -/

theorem dqpush_cases {x : Pre} {d b : Reg} {s : State} {o : Op} (hp : Plain s)
    (ho : o = opStop (wordR x 0x35 0 d 0 b) [⟨.d, .s, .wr, d⟩, ⟨.b, .s, .rd, b⟩] (some 4)) (hi : Issues x o s) :
    (∀ p q, s.me.wait.cond = .handed p q → Becomes (.dqpush x d b) x s (s.me.setSabs (s.me.sb + (fieldsNow x o s).d.toNat) p)) ∧
    (Fresh s → (s.core (coreOf s.cur)).dqHolder = none ∨ (s.core (coreOf s.cur)).dqHolder = some s.me.ctx → s.dqWaits = false →
      s.me.flights = [] → Clean s → Asks (.dqpush x d b) s (coreOf s.cur)
        (dqAsked s.cur 0 (s.srcS x (fieldsNow x o s).b) (dqHeld s.me.ctx (s.core (coreOf s.cur))))) ∧
    (Ready s → Fresh s → ∀ n, (s.core (coreOf s.cur)).dqHolder = some n → n ≠ s.me.ctx →
      TakesTrap (.dqpush x d b) x.px.rep.isSome (repNow x s) s 0x11 1 s.me) := by
  have hx : exec (.dqpush x d b) s = issue x o (fun r t => dqBottom 0 (t.srcS x r.b) (fun a _ u => .next (u.writeS r.d a)) t) s := by
    rw [ho]; rfl
  have hsrc : (s.enter (repNow x s)).srcS x (fieldsNow x o s).b = s.srcS x (fieldsNow x o s).b := srcS_congr (SameReads.enter hp.used _) x _
  refine ⟨fun p q hc => becomes_answered hp hi hx (dqBottom_handed (by rw [enter_wait hp.used]; exact hc)), fun hf hh hw hfl hclean => ?_,
    fun hr hf n hn hc => takesTrap_bottom hp hi hx rfl hr hf hn hc⟩
  exact asks_bottom hp hi hx (by rw [hsrc]) hf hh hw hfl fun _ => hclean

theorem dqpop_cases {x : Pre} {d : Reg} {s : State} {o : Op} (hp : Plain s) (ho : o = opStop (wordR x 0x35 1 d 0 0) [⟨.d, .t, .wr, d⟩] (some 4))
    (hi : Issues x o s) :
    (∀ p q, s.me.wait.cond = .handed p q → (q ≠ 0 → Becomes (.dqpop x d) x s (withTwo s.me (fieldsNow x o s).d p q)) ∧
      (q = 0 → Stores (.dqpop x d) x s (withTwo s.me (fieldsNow x o s).d p q) (Memory.byte s.mem))) ∧
    (Fresh s → (s.core (coreOf s.cur)).dqHolder = none ∨ (s.core (coreOf s.cur)).dqHolder = some s.me.ctx → s.dqWaits = false →
      s.me.flights = [] → Asks (.dqpop x d) s (coreOf s.cur) (dqAsked s.cur 1 0 (dqHeld s.me.ctx (s.core (coreOf s.cur))))) ∧
    (Ready s → Fresh s → ∀ n, (s.core (coreOf s.cur)).dqHolder = some n → n ≠ s.me.ctx →
      TakesTrap (.dqpop x d) x.px.rep.isSome (repNow x s) s 0x11 1 s.me) := by
  have hx : exec (.dqpop x d) s = issue x o (fun r t => dqBottom 1 0 (dqTake r) t) s := by rw [ho]; rfl
  exact ⟨fun p q hc => takes_answered hp hi hx (dqBottom_handed (by rw [enter_wait hp.used]; exact hc)),
    fun hf hh hw hfl => asks_bottom hp hi hx rfl hf hh hw hfl nofun, fun hr hf n hn hc => takesTrap_bottom hp hi hx rfl hr hf hn hc⟩

theorem dqsteal_cases {x : Pre} {d a : Reg} {s : State} {o : Op} {v : Nat} (hp : Plain s)
    (ho : o = opStop (wordR x 0x35 2 d a 0) [⟨.d, .t, .wr, d⟩, ⟨.a, .s, .rd, a⟩] (some 4)) (hi : Issues x o s)
    (hv : v = (s.readS (fieldsNow x o s).a).toNat) :
    (∀ p q, s.me.wait.cond = .handed p q → (q ≠ 0 → Becomes (.dqsteal x d a) x s (withTwo s.me (fieldsNow x o s).d p q)) ∧
      (q = 0 → Stores (.dqsteal x d a) x s (withTwo s.me (fieldsNow x o s).d p q) (Memory.byte s.mem))) ∧
    (Fresh s → v ≤ 767 → s.dqWaits = false → s.me.flights = [] → Asks (.dqsteal x d a) s v (dqAsked s.cur 2 0 (s.core v))) ∧
    (Ready s → Fresh s → 767 < v → TakesTrap (.dqsteal x d a) x.px.rep.isSome (repNow x s) s 0x11 11 s.me) := by
  have hx : exec (.dqsteal x d a) s = issue x o stealBody s := by rw [ho, exec_dqsteal]
  have hread : ((s.enter (repNow x s)).readS (fieldsNow x o s).a).toNat = v := by rw [enter_readS hp.used, hv]
  refine ⟨fun p q hc => takes_answered hp hi hx (stealBody_handed (by rw [enter_wait hp.used]; exact hc)), fun hf hle hw hfl => ?_,
    fun hr hf hlt => takesTrap_enter hi hx hr (stealBody_range (fresh_enter hp.used _ hf) (by rw [hread]; exact hlt))⟩
  have hb := stealBody_asks (r := fieldsNow x o s) (fresh_enter hp.used (repNow x s) hf) (by rw [hread]; exact hle) hw
    (by rw [enter_me hp.used]; exact hfl)
  rw [hread] at hb
  exact asks_of_park hi hx hb ((within_enter x hp).congr rfl rfl rfl rfl rfl) (SameReads.enter hp.used _).regs
    (onUnit_dqAsk (onUnit_of_elsewhere (elsewhere_enter hp.used _) v) 2 0)

theorem dqlen_cases {x : Pre} {d a : Reg} {s : State} {o : Op} {v : Nat} (hp : Plain s)
    (ho : o = opStop (wordR x 0x35 3 d a 0) [⟨.d, .s, .wr, d⟩, ⟨.a, .s, .rd, a⟩] (some 4)) (hi : Issues x o s)
    (hv : v = (s.readS (fieldsNow x o s).a).toNat) :
    (v ≤ 767 → Becomes (.dqlen x d a) x s
      (s.me.setSabs (s.me.sb + (fieldsNow x o s).d.toNat) (BitVec.ofNat 64 ((s.core v).dqCount s.me.ctx)))) ∧
    (Ready s → 767 < v → TakesTrap (.dqlen x d a) x.px.rep.isSome (repNow x s) s 0x11 11 s.me) := by
  have hx : exec (.dqlen x d a) s = issue x o lenBody s := by rw [ho, exec_dqlen]
  have hread : ((s.enter (repNow x s)).readS (fieldsNow x o s).a).toNat = v := by rw [enter_readS hp.used, hv]
  refine ⟨fun hle => ?_, fun hr hlt => takesTrap_enter hi hx hr (if_pos (by rw [hread]; exact hlt))⟩
  have hw := within_enter x hp
  have hb := lenBody_counts (r := fieldsNow x o s) hw.plain (by rw [hread]; exact hle)
  have hctx : (s.enter (repNow x s)).me.ctx = s.me.ctx := by rw [enter_me hp.used]
  rw [hread, hctx] at hb
  exact becomes_within hi hx hb (hw.writeS _ _) (elsewhere_trans (elsewhere_enter hp.used _) (elsewhere_writeS hw.plain.used _ _))
    (arch_writeS hw.plain.used (SameReads.enter hp.used _).regs _ _)

/-- Settles O42: a group that a deque has answered goes on with the answer; one that has not leaves its request at the deque, which outside
sessions changes nothing else. -/
theorem deques : Obligations.Deques := by
  unfold Obligations.Deques
  intro x d a b s hp c core k hc hcore hk
  subst hc hcore hk
  exact ⟨fun o ho hi => dqpush_cases hp ho hi, fun o ho hi => dqpop_cases hp ho hi, fun o v ho hi hv => dqsteal_cases hp ho hi hv,
    fun o v ho hi hv => dqlen_cases hp ho hi hv⟩

end Sys2Proof.Machine

/-! SUPPORT. WRSR (O10): what its body does with a value, and the group that it leaves. -/

namespace Sys2Proof.Machine

open Sys2Proof.Safety

/-! ### Updates of the current group within a body -/

/-- A body that updates its group, and leaves the bundle's standing, changes nothing else. -/
theorem Within.update {x : Pre} {s u : State} (h : Within x s u) {f : Group → Group} (hu : (f u.me).used = u.me.used) (hc : (f u.me).ctx = u.me.ctx)
    (hs : (f u.me).step = u.me.step) (hr : (f u.me).rep = u.me.rep) (hpc : (f u.me).pc = u.me.pc) (hw : (f u.me).wait = u.me.wait) :
    Within x s (u.onMe f) ∧ Elsewhere u (u.onMe f) ∧ (u.onMe f).me = f u.me :=
  ⟨h.onMe hu hc hs hr hpc (by rw [hw]; exact h.plain.awake), elsewhere_onMe u (hu.trans h.plain.used), State.me_onMe u (hu.trans h.plain.used)⟩

/-! ### The group after a write of a system register -/

/-- A system register's write leaves the bundle's standing. -/
theorem setSys_other (g : Group) (im : SysReg) (v : Dword) :
    (g.setSys im v).used = g.used ∧ (g.setSys im v).ctx = g.ctx ∧ (g.setSys im v).step = g.step ∧ (g.setSys im v).rep = g.rep ∧
      (g.setSys im v).pc = g.pc ∧ (g.setSys im v).wait = g.wait := by
  cases im <;> exact ⟨rfl, rfl, rfl, rfl, rfl, rfl⟩

/-- Bookkeeping does not matter to a system register's write. -/
theorem arch_setSys {y z : Group} (h : arch y = arch z) (im : SysReg) (v : Dword) : arch (y.setSys im v) = arch (z.setSys im v) := by
  have e : ∀ g : Group, arch (g.setSys im v) = arch ((arch g).setSys im v) := by
    intro g
    cases im <;> rfl
  rw [e, e z, h]

/-! ### The body of WRSR -/

/-- The body of WRSR (R517). -/
def wrsrBody (x : Pre) (a : Reg) (im : SysReg) (r : Flds) (t : State) : Eff :=
  let v := t.readS r.a
  if im = .fflags && !t.me.flagsQuiet then .park 29 .drain t
  else if v &&& sysReserved im ≠ 0 then .trap 1 (illegalVal (wordR x 0x39 1 0 a im.code) 2 0) t
  else if im = .tpc && decide (v.toNat % 4 ≠ 0) then .trap 4 v t
  else if im = .tpc && !canonical v then .trap 5 v t
  else .next (t.onMe fun g => g.setSys im v)

theorem exec_wrsr (x : Pre) (a : Reg) (im : SysReg) (s : State) : exec (.wrsr x a im) s = issue x (opWrsr x a im) (wrsrBody x a im) s := rfl

section

variable {x : Pre} {a : Reg} {im : SysReg} {r : Flds} {t : State} (hq : im = .fflags → t.me.flagsQuiet = true)
include hq

/-- Once every earlier flag is set, the value alone decides. -/
theorem wrsrBody_quiet : wrsrBody x a im r t =
    if t.readS r.a &&& sysReserved im ≠ 0 then .trap 1 (illegalVal (wordR x 0x39 1 0 a im.code) 2 0) t
    else if im = .tpc && decide ((t.readS r.a).toNat % 4 ≠ 0) then .trap 4 (t.readS r.a) t
    else if im = .tpc && !canonical (t.readS r.a) then .trap 5 (t.readS r.a) t
    else .next (t.onMe fun g => g.setSys im (t.readS r.a)) := by
  have hgo : (decide (im = .fflags) && !t.me.flagsQuiet) = false := by
    by_cases h : im = .fflags
    · rw [hq h, Bool.not_true, Bool.and_false]
    · rw [decide_eq_false h, Bool.false_and]
  simp only [wrsrBody, hgo, Bool.false_eq_true, if_false]

theorem wrsrBody_writes (h : t.readS r.a &&& sysReserved im = 0) (hpc : im = .tpc → (t.readS r.a).toNat % 4 = 0 ∧ canonical (t.readS r.a) = true) :
    wrsrBody x a im r t = .next (t.onMe fun g => g.setSys im (t.readS r.a)) := by
  rw [wrsrBody_quiet hq]
  by_cases hi : im = .tpc
  · obtain ⟨hmod, hcan⟩ := hpc hi
    simp only [h, hmod, hcan, ne_eq, not_true_eq_false, if_false, decide_false, Bool.and_false, Bool.not_true, Bool.false_eq_true]
  · simp only [h, decide_eq_false hi, ne_eq, not_true_eq_false, if_false, Bool.false_and, Bool.false_eq_true]

theorem wrsrBody_reserved (h : t.readS r.a &&& sysReserved im ≠ 0) :
    wrsrBody x a im r t = .trap 1 (illegalVal (wordR x 0x39 1 0 a im.code) 2 0) t := by
  rw [wrsrBody_quiet hq, if_pos h]

end

/-- TPC has no reserved bits. -/
theorem wrsrBody_tpc (x : Pre) (a : Reg) (r : Flds) (t : State) : wrsrBody x a .tpc r t =
    if (t.readS r.a).toNat % 4 ≠ 0 then .trap 4 (t.readS r.a) t
    else if canonical (t.readS r.a) = false then .trap 5 (t.readS r.a) t
    else .next (t.onMe fun g => g.setSys .tpc (t.readS r.a)) := by
  have hres : t.readS r.a &&& sysReserved .tpc = 0 := BitVec.and_zero
  simp only [wrsrBody_quiet (im := .tpc) nofun, hres, ne_eq, not_true_eq_false, if_false, decide_true, Bool.true_and, decide_eq_true_eq,
    Bool.not_eq_true']

/-- Settles O10: the value that WRSR reads decides between its write and its three traps; what it writes is `Group.setSys`, register by register. -/
theorem systemWrites : Obligations.SystemWrites := by
  unfold Obligations.SystemWrites
  intro x a im s v hp hflags hi hv
  have hread : (s.enter (repNow x s)).readS (fieldsNow x (opWrsr x a im) s).a = v := by rw [enter_readS hp.used, hv]
  have hquiet : im = .fflags → (s.enter (repNow x s)).me.flagsQuiet = true := fun h => by rw [enter_me hp.used]; exact hflags h
  refine ⟨fun hres hpc => ?_, fun hr hres => ?_, fun hr him hmod => ?_, fun hr him hmod hcan => ?_⟩
  · have hb := wrsrBody_writes (x := x) (a := a) (r := fieldsNow x (opWrsr x a im) s) hquiet (by rw [hread]; exact hres) (by rw [hread]; exact hpc)
    obtain ⟨hu, hc, hs, hr, hpc, hw⟩ := setSys_other (s.enter (repNow x s)).me im v
    obtain ⟨hw, he, hme⟩ := (within_enter x hp).update (f := fun g => g.setSys im v) hu hc hs hr hpc hw
    rw [hread] at hb
    have hset : Becomes (.wrsr x a im) x s (s.me.setSys im v) :=
      becomes_within hi (exec_wrsr x a im s) hb hw (elsewhere_trans (elsewhere_enter hp.used _) he)
        (by rw [hme]; exact arch_setSys (SameReads.enter hp.used _).regs im v)
    cases im <;> exact hset
  · exact takesTrap_enter hi (exec_wrsr x a im s) hr (wrsrBody_reserved hquiet (by rw [hread]; exact hres))
  · subst him
    exact takesTrap_enter hi (exec_wrsr x a .tpc s) hr (by rw [wrsrBody_tpc, hread, if_pos hmod])
  · subst him
    exact takesTrap_enter hi (exec_wrsr x a .tpc s) hr (by rw [wrsrBody_tpc, hread, if_neg (fun h => h hmod), if_pos hcan])

end Sys2Proof.Machine

/-! SUPPORT. Calls, returns and window moves (O15): a move that needs no attic, and what the five instructions make of the link stack and of the
bases, outside sessions. -/

namespace Sys2Proof.Machine

open Sys2Proof.Safety

/-! ### A move that needs no attic -/

theorem filledBy_free {low base : Nat} (h : low ≤ base) (w : Nat) : filledBy low base w = [] := if_neg (by omega)

theorem spilledBy_free {low base w a : Nat} (h : lowAfter low base w a = low) : spilledBy low base w a = [] := by
  rw [spilledBy, h, Nat.sub_self]
  rfl

/-- The stacks and bases of a group after a move (R85, R86). -/
def rebase (vb sb : Nat) (y : Group) : Group :=
  { y with
    vregs := clearFrom y.vregs (min (vb + y.wv) (y.vb + y.wv)), sregs := clearFrom y.sregs (min (sb + y.ws) (y.sb + y.ws)),
    vb := vb, sb := sb, vlow := lowAfter y.vlow vb y.wv y.av, slow := lowAfter y.slow sb y.ws y.as }

/-- The state after a move that spills and fills nothing. -/
def State.slid (t : State) (vb sb : Nat) : State := (t.onMe (rebase vb sb)).onMe fun y => { y with nextSeq := y.nextSeq + 1 }

theorem moveTo_free {t : State} {vb sb : Nat} (h : MovesFree t.me vb sb) (go : State → Eff) : t.moveTo vb sb go = go (t.slid vb sb) := by
  obtain ⟨hvs, hss, hvf, hsf, -⟩ := h
  simp only [State.moveTo, spilledBy_free hvs, spilledBy_free hss, filledBy_free hvf, filledBy_free hsf]
  rfl

theorem Within.slid {x : Pre} {s u : State} (h : Within x s u) (vb sb : Nat) :
    Within x s (u.slid vb sb) ∧ Elsewhere u (u.slid vb sb) ∧ (u.slid vb sb).me = movedTo u.me vb sb := by
  obtain ⟨hw, he, hme⟩ := h.update (f := rebase vb sb) rfl rfl rfl rfl rfl rfl
  rw [State.slid]
  generalize u.onMe (rebase vb sb) = v at hw he hme ⊢
  obtain ⟨hw2, he2, hme2⟩ := hw.update (f := fun y => { y with nextSeq := y.nextSeq + 1 }) rfl rfl rfl rfl rfl rfl
  exact ⟨hw2, elsewhere_trans he he2, hme2.trans (congrArg (fun y : Group => { y with nextSeq := y.nextSeq + 1 }) hme)⟩

/-- Bookkeeping does not matter to a window move. -/
theorem arch_movedTo {y z : Group} (h : arch y = arch z) (vb sb : Nat) : arch (movedTo y vb sb) = arch (movedTo z vb sb) := by
  have e : ∀ g : Group, arch (movedTo g vb sb) = movedTo (arch g) vb sb := fun _ => rfl
  rw [e, e, h]

/-- The group with a new link stack (R85). -/
def relink (f : Group → List (Dword × Reg)) (y : Group) : Group := { y with links := f y }

/-- The state after a move that spills and fills nothing, and a change of the link stack. -/
def State.slidLinks (t : State) (vb sb : Nat) (f : Group → List (Dword × Reg)) : State := (t.slid vb sb).onMe (relink f)

theorem Within.slidLinks {x : Pre} {s u : State} (h : Within x s u) (vb sb : Nat) (f : Group → List (Dword × Reg)) :
    Within x s (u.slidLinks vb sb f) ∧ Elsewhere u (u.slidLinks vb sb f) ∧ (u.slidLinks vb sb f).me = relink f (movedTo u.me vb sb) := by
  obtain ⟨hw, he, hme⟩ := h.slid vb sb
  rw [State.slidLinks]
  generalize u.slid vb sb = v at hw he hme ⊢
  obtain ⟨hw2, he2, hme2⟩ := hw.update (f := relink f) rfl rfl rfl rfl rfl rfl
  exact ⟨hw2, elsewhere_trans he he2, hme2.trans (congrArg (relink f) hme)⟩

/-! ### What the bodies read -/

theorem enter_srcS {s : State} (h : s.me.used = true) (k : Nat) (x : Pre) (r : Reg) : (s.enter k).srcS x r = s.srcS x r :=
  srcS_congr (SameReads.enter h k) x r

theorem enter_passesAttic {s : State} (h : s.me.used = true) (k vb sb : Nat) : (s.enter k).passesAttic vb sb = s.passesAttic vb sb := by
  simp only [State.passesAttic, enter_me h]
  rfl

theorem enter_moveMarkv {s : State} (h : s.me.used = true) (k : Nat) (vb sb : Int) : moveMarkv (s.enter k).me vb sb = moveMarkv s.me vb sb := by
  rw [enter_me h]
  rfl

theorem enter_movesFree {s : State} (h : s.me.used = true) (k : Nat) {vb sb : Nat} (hf : MovesFree s.me vb sb) : MovesFree (s.enter k).me vb sb := by
  obtain ⟨hvs, hss, hvf, hsf, hm⟩ := hf
  rw [enter_me h]
  exact ⟨hvs, hss, hvf, hsf, hm⟩

/-! ### How a body that jumps ends -/

/-- A body that jumps and has changed nothing outside its group. -/
theorem jumps_within {i : Instr} {x : Pre} {o : Op} {s u : State} {body : Flds → State → Eff} {dest : Dword} {g : Group} (hi : Issues x o s)
    (hx : exec i s = issue x o body s) (hb : body (fieldsNow x o s) (s.enter (repNow x s)) = .jump dest u) (h : Within x s u) (he : Elsewhere s u)
    (hg : arch u.me = arch g) : Jumps i s dest g := by
  obtain ⟨t, ht, harch, helse, hpc, hrep⟩ := finish_jump x o.code dest h.plain he
  exact ⟨t, by rw [hx, issue_of_issues body hi, hb, ht], harch.trans hg, helse, hpc, hrep⟩

/-! ### Calls (R380, R381) -/

section

variable {x : Pre} {k : BitVec 7} {dest : Dword} {aligned : Bool} {t : State} {vb sb : Nat}
  (hvb : vb = t.me.vb + 16 * (k.toNat / 16)) (hsb : sb = t.me.sb + 8 * (k.toNat % 16))
include hvb hsb

theorem callTo_full (hm : moveMarkv t.me vb sb = none) (hl : t.me.links.length = 32) : callTo x k dest aligned t = .trap 0x12 2 t := by
  subst hvb hsb
  simp only [callTo, hm, hl, if_true]

theorem callTo_attic (hm : moveMarkv t.me vb sb = none) (hl : t.me.links.length ≠ 32) (ha : t.passesAttic vb sb = true) :
    callTo x k dest aligned t = .trap 0x12 1 t := by
  subst hvb hsb
  simp only [callTo, hm, hl, ha, if_false, if_true]

theorem callTo_free (hl : t.me.links.length ≠ 32) (ha : t.passesAttic vb sb = false) (hal : aligned = true) (hc : canonical dest = true)
    (hf : MovesFree t.me vb sb) :
    callTo x k dest aligned t = .jump dest (t.slidLinks vb sb fun y => (afterBundle x y.pc, k) :: y.links) := by
  subst hvb hsb
  simp only [callTo, hf.markv, hl, ha, hal, hc, if_false, Bool.not_true, Bool.false_eq_true]
  exact moveTo_free hf _

end

/-- The two calls: each is the call to its own target. -/
theorem exec_calls {x : Pre} {k : BitVec 7} {im : BitVec 18} {a : Reg} {s : State} {i : Instr} {o : Op} {dest : Dword} (hu : s.me.used = true)
    (h : i = .call x k im ∧ o = opStop (wordLI x 0x0D k im) [] none ∧ dest = nextPc x s + 4 * immExt x im ∨
      i = .callr x k a ∧ o = opStop (wordR x 0x0E 2 k a 0) [⟨.a, .s, .rd, a⟩] none ∧ dest = s.readS (fieldsNow x o s).a) :
    ∃ body aligned, exec i s = issue x o body s ∧ (dest.toNat % 4 = 0 ∨ i = .call x k im → aligned = true) ∧
      body (fieldsNow x o s) (s.enter (repNow x s)) = callTo x k dest aligned (s.enter (repNow x s)) := by
  rcases h with ⟨rfl, rfl, rfl⟩ | ⟨rfl, rfl, rfl⟩
  · exact ⟨fun _ t => callTo x k (afterBundle x t.me.pc + 4 * immExt x im) true t, true, rfl, fun _ => rfl, by simp only [enter_me hu]; rfl⟩
  · exact ⟨fun r t => callTo x k (t.readS r.a) (decide ((t.readS r.a).toNat % 4 = 0)) t, _, rfl, fun h => decide_eq_true (h.resolve_right nofun),
      by simp only [enter_readS hu]⟩

theorem calls_cases {x : Pre} {k : BitVec 7} {s : State} {i : Instr} {o : Op} {dest : Dword} {body : Flds → State → Eff} {aligned : Bool}
    {vb sb : Nat} (hp : Plain s) (hi : Issues x o s) (hx : exec i s = issue x o body s)
    (hb : body (fieldsNow x o s) (s.enter (repNow x s)) = callTo x k dest aligned (s.enter (repNow x s)))
    (hvb : vb = s.me.vb + 16 * (k.toNat / 16)) (hsb : sb = s.me.sb + 8 * (k.toNat % 16)) :
    (s.me.links.length ≠ 32 → s.passesAttic vb sb = false → aligned = true → canonical dest = true → MovesFree s.me vb sb →
      Jumps i s dest { movedTo s.me vb sb with links := (nextPc x s, k) :: s.me.links }) ∧
    (Ready s → moveMarkv s.me vb sb = none → s.me.links.length = 32 → TakesTrap i x.px.rep.isSome (repNow x s) s 0x12 2 s.me) ∧
    (Ready s → moveMarkv s.me vb sb = none → s.me.links.length ≠ 32 → s.passesAttic vb sb = true →
      TakesTrap i x.px.rep.isSome (repNow x s) s 0x12 1 s.me) := by
  have hme := enter_me hp.used (repNow x s)
  have hlinks : (s.enter (repNow x s)).me.links = s.me.links := by rw [hme]
  have hvb' : vb = (s.enter (repNow x s)).me.vb + 16 * (k.toNat / 16) := by rw [hme, hvb]
  have hsb' : sb = (s.enter (repNow x s)).me.sb + 8 * (k.toNat % 16) := by rw [hme, hsb]
  refine ⟨fun hl ha hal hc hf => ?_, fun hr hm hl => ?_, fun hr hm hl ha => ?_⟩
  · obtain ⟨hw, he, hg⟩ := (within_enter x hp).slidLinks vb sb fun y => (afterBundle x y.pc, k) :: y.links
    have hcall := callTo_free (x := x) hvb' hsb' (by rw [hlinks]; exact hl) (by rw [enter_passesAttic hp.used]; exact ha) hal hc
      (enter_movesFree hp.used _ hf)
    refine jumps_within hi hx (hb.trans hcall) hw (elsewhere_trans (elsewhere_enter hp.used _) he) ?_
    rw [hg, hme]
    rfl
  · exact takesTrap_enter hi hx hr (hb.trans (callTo_full hvb' hsb' (by rw [enter_moveMarkv hp.used]; exact hm) (by rw [hlinks]; exact hl)))
  · exact takesTrap_enter hi hx hr (hb.trans (callTo_attic hvb' hsb' (by rw [enter_moveMarkv hp.used]; exact hm) (by rw [hlinks]; exact hl)
      (by rw [enter_passesAttic hp.used]; exact ha)))

/-! ### Returns (R442) -/

/-- The body of RET. -/
def retBody (_ : Flds) (t : State) : Eff :=
  match t.me.links with
  | [] => .trap 0x12 3 t
  | (ra, k) :: rest =>
    let vb : Int := (t.me.vb : Int) - (16 * (k.toNat / 16) : Nat)
    let sb : Int := (t.me.sb : Int) - (8 * (k.toNat % 16) : Nat)
    match moveMarkv t.me vb sb with
    | some v => .trap 2 v t
    | none =>
      if vb < 0 || sb < 0 then .trap 0x12 4 t
      else t.moveTo vb.toNat sb.toNat fun u => .jump ra (u.onMe fun y => { y with links := rest })

theorem exec_ret (x : Pre) (s : State) : exec (.ret x) s = issue x (opStop (wordR x 0x0E 0 0 0 0) [] none) retBody s := rfl

theorem retBody_empty {t : State} (r : Flds) (h : t.me.links = []) : retBody r t = .trap 0x12 3 t := by simp only [retBody, h]

theorem retBody_free {t : State} (r : Flds) {ra : Dword} {k : Reg} {rest : List (Dword × Reg)} {vb sb : Nat} (h : t.me.links = (ra, k) :: rest)
    (hvb : t.me.vb = vb + 16 * (k.toNat / 16)) (hsb : t.me.sb = sb + 8 * (k.toNat % 16)) (hf : MovesFree t.me vb sb) :
    retBody r t = .jump ra (t.slidLinks vb sb fun _ => rest) := by
  have hv : (t.me.vb : Int) - (16 * (k.toNat / 16) : Nat) = vb := by omega
  have hs : (t.me.sb : Int) - (8 * (k.toNat % 16) : Nat) = sb := by omega
  have hneg : (decide ((vb : Int) < 0) || decide ((sb : Int) < 0)) = false := by
    rw [decide_eq_false (by omega), decide_eq_false (by omega), Bool.or_false]
  simp only [retBody, h, hv, hs, hf.markv, hneg, Bool.false_eq_true, if_false, Int.toNat_natCast]
  exact moveTo_free hf _

theorem ret_cases {x : Pre} {k : BitVec 7} {s : State} (hp : Plain s) (hi : Issues x (opStop (wordR x 0x0E 0 0 0 0) [] none) s) :
    (∀ ra rest vb sb, s.me.links = (ra, k) :: rest → s.me.vb = vb + 16 * (k.toNat / 16) → s.me.sb = sb + 8 * (k.toNat % 16) →
      MovesFree s.me vb sb → Jumps (.ret x) s ra { movedTo s.me vb sb with links := rest }) ∧
    (Ready s → s.me.links = [] → TakesTrap (.ret x) x.px.rep.isSome (repNow x s) s 0x12 3 s.me) := by
  have hme := enter_me hp.used (repNow x s)
  refine ⟨fun ra rest vb sb hl hvb hsb hf => ?_, fun hr hl => ?_⟩
  · obtain ⟨hw, he, hg⟩ := (within_enter x hp).slidLinks vb sb fun _ => rest
    have hret := retBody_free (t := s.enter (repNow x s)) (fieldsNow x (opStop (wordR x 0x0E 0 0 0 0) [] none) s) (by rw [hme]; exact hl)
      (by rw [hme]; exact hvb) (by rw [hme]; exact hsb) (enter_movesFree hp.used _ hf)
    refine jumps_within hi (exec_ret x s) hret hw (elsewhere_trans (elsewhere_enter hp.used _) he) ?_
    rw [hg, hme]
    rfl
  · exact takesTrap_enter hi (exec_ret x s) hr (retBody_empty _ (by rw [hme, hl]))

/-! ### Moves of one window (R515, R516) -/

theorem slideTo_below {t : State} {v c : Int} (hm : moveMarkv t.me v c = none) (h : v < 0 ∨ c < 0) : slideTo v c t = .trap 0x12 4 t := by
  simp only [slideTo, hm, Bool.or_eq_true, decide_eq_true_eq, h, if_true]

theorem slideTo_free {t : State} {v c : Int} (hv : 0 ≤ v) (hc : 0 ≤ c)
    (ha : (t.me.vb : Int) < v ∨ (t.me.sb : Int) < c → t.passesAttic v.toNat c.toNat = false) (hf : MovesFree t.me v.toNat c.toNat) :
    slideTo v c t = .next (t.slid v.toNat c.toNat) := by
  have hm : moveMarkv t.me v c = none := by
    have h := hf.markv
    rwa [Int.toNat_of_nonneg hv, Int.toNat_of_nonneg hc] at h
  have hneg : ¬ (v < 0 ∨ c < 0) := by omega
  have hpass : ¬ (((t.me.vb : Int) < v ∨ (t.me.sb : Int) < c) ∧ t.passesAttic v.toNat c.toNat = true) := by
    rintro ⟨hup, hp⟩
    rw [ha hup] at hp
    cases hp
  simp only [slideTo, hm, Bool.or_eq_true, Bool.and_eq_true, decide_eq_true_eq, hneg, hpass, if_false]
  exact moveTo_free hf _

/-- The body of WINV and of WINS: one window moves by the operand. -/
def slideBody (x : Pre) (vec : Bool) (r : Flds) (t : State) : Eff :=
  let n := (t.srcS x r.b).toInt
  slideTo (t.me.vb + if vec then 16 * n else 0) (t.me.sb + if vec then 0 else 8 * n) t

theorem exec_slide (x : Pre) (vec : Bool) (b : Reg) (s : State) : exec (if vec then .winv x b else .wins x b) s =
    issue x (opStop (wordR x 0x0F (if vec then 0 else 1) 0 0 b) [⟨.b, .s, .rd, b⟩] none) (slideBody x vec) s := by
  cases vec
  · have e : slideBody x false = fun r t => slideTo t.me.vb (t.me.sb + 8 * (t.srcS x r.b).toInt) t := by
      funext r t
      simp only [slideBody, Bool.false_eq_true, if_false, Int.add_zero]
    rw [e]
    rfl
  · have e : slideBody x true = fun r t => slideTo (t.me.vb + 16 * (t.srcS x r.b).toInt) t.me.sb t := by
      funext r t
      simp only [slideBody, if_true, Int.add_zero]
    rw [e]
    rfl

theorem slide_cases {x : Pre} {b : Reg} {s : State} {vec : Bool} {o : Op} {n v c : Int} (hp : Plain s)
    (ho : o = opStop (wordR x 0x0F (if vec then 0 else 1) 0 0 b) [⟨.b, .s, .rd, b⟩] none) (hi : Issues x o s)
    (hn : n = (s.srcS x (fieldsNow x o s).b).toInt) (hv : v = s.me.vb + (if vec then 16 * n else 0)) (hc : c = s.me.sb + (if vec then 0 else 8 * n)) :
    let i : Instr := if vec then .winv x b else .wins x b
    (0 ≤ v → 0 ≤ c → (0 < n → s.passesAttic v.toNat c.toNat = false) → MovesFree s.me v.toNat c.toNat →
      Becomes i x s (movedTo s.me v.toNat c.toNat)) ∧
    (Ready s → moveMarkv s.me v c = none → v < 0 ∨ c < 0 → TakesTrap i x.px.rep.isSome (repNow x s) s 0x12 4 s.me) := by
  intro i
  have hme := enter_me hp.used (repNow x s)
  have hx : exec i s = issue x o (slideBody x vec) s := by rw [ho]; exact exec_slide x vec b s
  have hb : slideBody x vec (fieldsNow x o s) (s.enter (repNow x s)) = slideTo v c (s.enter (repNow x s)) := by
    simp only [slideBody, enter_srcS hp.used, ← hn, hme, ← hv, ← hc]
  refine ⟨fun hv0 hc0 ha hf => ?_, fun hr hm hneg => ?_⟩
  · obtain ⟨hw, he, hg⟩ := (within_enter x hp).slid v.toNat c.toNat
    have hvb : (s.enter (repNow x s)).me.vb = s.me.vb := by rw [hme]
    have hsb : (s.enter (repNow x s)).me.sb = s.me.sb := by rw [hme]
    have hup : ((s.enter (repNow x s)).me.vb : Int) < v ∨ ((s.enter (repNow x s)).me.sb : Int) < c → 0 < n := by
      rw [hvb, hsb, hv, hc]
      cases vec
      · simp only [Bool.false_eq_true, if_false]
        omega
      · simp only [if_true]
        omega
    have hslide := slideTo_free hv0 hc0 (fun h => by rw [enter_passesAttic hp.used]; exact ha (hup h)) (enter_movesFree hp.used _ hf)
    refine becomes_within hi hx (hb.trans hslide) hw (elsewhere_trans (elsewhere_enter hp.used _) he) ?_
    rw [hg]
    exact arch_movedTo (SameReads.enter hp.used _).regs _ _
  · exact takesTrap_enter hi hx hr (hb.trans (slideTo_below (by rw [enter_moveMarkv hp.used]; exact hm) hneg))

/-- Settles O15: the calls, RET, and the moves of one window, each by the cases of its body. -/
theorem windowsAndCalls : Obligations.WindowsAndCalls := by
  unfold Obligations.WindowsAndCalls
  intro x k im a b s hp
  refine ⟨fun i o dest vb sb hcall hi hvb hsb => ?_, fun o ho hi => ?_, fun vec o n v c ho hi hn hv hc => slide_cases hp ho hi hn hv hc⟩
  · obtain ⟨body, aligned, hx, hal, hb⟩ := exec_calls hp.used hcall
    obtain ⟨hjump, hfull, hattic⟩ := calls_cases hp hi hx hb hvb hsb
    exact ⟨fun hl ha h4 => hjump hl ha (hal h4), hfull, hattic⟩
  · subst ho
    exact ret_cases hp hi

end Sys2Proof.Machine

/-! SUPPORT. IssueChecks (O60) fails: a device whose table of tenants is not in canonical form, on which a consumed register error opens a
session. -/

namespace Sys2Proof.Machine

open Sys2Proof.Safety

/-! ### A table that lists a tenant twice -/

/-- A tenant whose error ring is off and has counted LOST up to its end (R352): the next record that finds no room wraps it to 0, and the tenant
equals the reset one. -/
def fullTenant : Tenant := { Tenant.reset with errorRing := { Ring.reset with rstat := 0xFFFFFFFF } }

/-- A tenant that records context 1. -/
def recordingTenant : Tenant := { Tenant.reset with sessions := vset Tenant.reset.sessions 0 { Session.reset with lctl := 0x401 } }

/-- A result of the special-function unit for lane 1 of v2. -/
def lateResult : Flight :=
  { id := 0, seq := 0, kind := .sfu, lane := 0, va := 0, loc := 0, width := 0, ord := .relaxed, scope := .grp, data := 0, cmp := 0, dest := [.v 2],
    sext := false, ctr := none, value := Lanes.zero, mask := 2, flags := 0, cover := false, hint := 0 }

/-- A group of 32 live lanes, of which lane 0 acts, whose v2 holds an error that is not located and waits for a result. -/
def markedGroup : Group :=
  { Group.idle with
    used := true, ctx := 1, pc := 0x1000, em := 1, live := 0xFFFFFFFF, av := 8, as := 8, regMarks := [⟨.v 2, .unlocated⟩], flights := [lateResult] }

/-- Context 1 of tenant 0 with that group in slot 0. The table of tenants is not in canonical form: reads find the first entry of tenant 0, which
has no session. -/
def twoTenants : State :=
  { State.reset with
    groups := [(0, markedGroup)], ctxs := [(1, { Ctx.none with used := true, tvec := 0x2000 })], tenants := [(0, fullTenant), (0, recordingTenant)] }

theorem twoTenants_ready : Ready twoTenants := ⟨⟨rfl, by decide +kernel, by decide +kernel, rfl, rfl⟩, rfl, by decide +kernel⟩

/-- The error of v2 kills lane 0, and its record takes the first entry out of the table, so that the second opens a session. The completion then
lands the late result, whose merge into v2 consumes the error again and kills the lanes that were left. -/
theorem twoTenants_vadd {t : State} (h : exec (.vaddI32 ⟨false, Pfx.none⟩ 3 2 1) twoTenants = .next t) : t.me.live = 0 := by
  have e : (match exec (.vaddI32 ⟨false, Pfx.none⟩ 3 2 1) twoTenants with
    | .next t => t.me.live
    | _ => 0xFFFFFFFF) = 0 := by decide +kernel
  simpa only [h] using e

/-- Refutes O60: nothing asks the table of tenants to be in canonical form, and in one that lists a tenant twice the record of a kill can open a
session for the group, which lands its late results as the instruction completes; lanes beyond those of ACT die. -/
theorem not_issueChecks : ¬ Obligations.IssueChecks := by
  unfold Obligations.IssueChecks
  intro h
  obtain ⟨-, -, -, -, -, -, herrors⟩ := h false 3 2 1 twoTenants twoTenants_ready rfl
  obtain ⟨hvec, -⟩ := herrors (.v 2) .unlocated rfl rfl rfl rfl (by decide) (by decide) (by decide) (by decide) (by decide)
  obtain ⟨hsource, -⟩ := hvec ⟨by decide, by decide, by decide⟩
  obtain ⟨t, ht, hlive, -⟩ := hsource rfl
  rw [twoTenants_vadd ht] at hlive
  exact absurd hlive (by decide +kernel)

end Sys2Proof.Machine

/-! SUPPORT. VPACK, VUNPK and VSCACC (O23): a register written with results and their flags, the parts of a packed word gathered into one result, and
registers written in turn. -/

namespace Sys2Proof.Machine

open Sys2Proof.Safety

/-! ### One register written with results -/

/-- A body that writes one vector register with results sets their flags. -/
theorem setsVector_writeF {i : Instr} {x : Pre} {o : Op} {f : Flds → State → Nat → FRes}
    (hx : ∀ s, exec i s = issue x o (vecBody x fun r t => t.writeF r.d (f r t)) s) (hf : ∀ s t r, FlagReads s t → f r t = f r s) :
    SetsVector i x o (fun r s j => BitVec.ofNat 32 (f r s j).bits) (fun r s j => (f r s j).fl) :=
  setsVector_of hx (fun s t r h => by rw [hf s t r h]) (fun s t r h => by rw [hf s t r h])

/-- The result of VSCACC in a lane (R165, R504). -/
def scaccElem (m : Nat) (x : Pre) (r : Flds) (s : State) (i : Nat) : FRes :=
  vscacc m s.me.rm s.me.ftz (s.srcVD r.d i).toNat (s.srcVA x r.a i).toNat (s.srcVB x r.b i).toNat

theorem FlagReads.scaccElem {s t : State} (h : FlagReads s t) (m : Nat) (x : Pre) (r : Flds) : scaccElem m x r t = scaccElem m x r s := by
  funext i
  simp only [Machine.scaccElem, h.rm, h.ftz, h.srcVD, h.srcVA, h.srcVB]

/-- VSCACC in each of its scale formats. -/
theorem setsVector_scacc {i : Instr} {x : Pre} {d a b : Reg} {m : Nat}
    (hx : ∀ s, exec i s = issue x (opVVV x 0x1B m .v .v .v .rw d a b) (vecBody x fun r t => t.writeF r.d (scaccElem m x r t)) s) :
    SetsVector i x (opVVV x 0x1B m .v .v .v .rw d a b) (fun r s j => BitVec.ofNat 32 (scaccElem m x r s j).bits)
      (fun r s j => (scaccElem m x r s j).fl) :=
  setsVector_writeF hx fun _ _ r h => h.scaccElem m x r

/-! ### Parts gathered into one word -/

/-- Results e of the parts of a word, w bits apart, gathered into one (R500). -/
def gather (w : Nat) (e : Nat → FRes) (l : List Nat) (acc : FRes) : FRes :=
  l.foldl (fun acc k => ⟨acc.bits + (e k).bits * 2 ^ (w * k), acc.fl ||| (e k).fl⟩) acc

/-- A gathered word is the sum of its parts, each in its place. -/
theorem gather_bits (w : Nat) (e : Nat → FRes) (l : List Nat) (acc : FRes) :
    (gather w e l acc).bits = acc.bits + (l.map fun k => (e k).bits * 2 ^ (w * k)).sum := by
  induction l generalizing acc with
  | nil => rfl
  | cons k l ih => exact (ih _).trans (by rw [List.map_cons, List.sum_cons, Nat.add_assoc])

/-- Its flags are those of all parts. -/
theorem gather_fl (w : Nat) (e : Nat → FRes) (l : List Nat) (acc : FRes) :
    (gather w e l acc).fl = (l.map fun k => (e k).fl).foldl (· ||| ·) acc.fl := by
  induction l generalizing acc with
  | nil => rfl
  | cons k l ih => exact ih _

theorem FlagReads.packSrc {s t : State} (h : FlagReads s t) (x : Pre) (a : Reg) (n : Nat) : t.packSrc x a n = s.packSrc x a n := by
  funext k i
  simp only [State.packSrc, h.srcWA, h.readReg]

/-- Part k of VPACK's word in a lane (R500). -/
def packElem (x : Pre) (c : BitVec 7) (r : Flds) (s : State) (i k : Nat) : FRes :=
  convert c.toNat (.ieee s.me.rm) s.me.ftz (s.packSrc x r.a (packN c) k i)

theorem FlagReads.packElem {s t : State} (h : FlagReads s t) (x : Pre) (c : BitVec 7) (r : Flds) : packElem x c r t = packElem x c r s := by
  funext i k
  simp only [Machine.packElem, h.rm, h.ftz, h.packSrc]

/-- VPACK's word is the sum of its converted elements, each in its place, with the flags of all. -/
theorem setsVector_vpack (x : Pre) (d a : Reg) (c : BitVec 7) :
    SetsVector (.vpack x d a c) x (opVpack x d a c)
      (fun r s i => BitVec.ofNat 32 ((List.range (packN c)).map fun k => (packElem x c r s i k).bits * 2 ^ (32 / packN c * k)).sum)
      (fun r s i => ((List.range (packN c)).map fun k => (packElem x c r s i k).fl).foldl (· ||| ·) 0) := by
  have h := setsVector_writeF (i := .vpack x d a c) (o := opVpack x d a c)
    (f := fun r s i => gather (32 / packN c) (packElem x c r s i) (List.range (packN c)) ⟨0, 0⟩) (fun _ => rfl)
    (fun _ _ r hr => by simp only [hr.packElem])
  simpa only [gather_bits, gather_fl, Nat.zero_add] using h

/-! ### Registers written in turn -/

theorem destV_congr {y z : Group} (h : arch y = arch z) (r : Reg) : destV y r = destV z r := by
  unfold destV
  rw [arch_vb h]

/-- Writes in turn leave the bundle's standing. -/
theorem writeTurns_other (g : Group) (d : Reg) (v : Nat → Nat → Word) (n : Nat) :
    (writeTurns g d v n).used = g.used ∧ (writeTurns g d v n).wait = g.wait ∧ (writeTurns g d v n).ctx = g.ctx ∧
      (writeTurns g d v n).step = g.step ∧ (writeTurns g d v n).pc = g.pc ∧ (writeTurns g d v n).rep = g.rep := by
  induction n with
  | zero => exact ⟨rfl, rfl, rfl, rfl, rfl, rfl⟩
  | succ n ih =>
    obtain ⟨hu, hw, hc, hs, hp, hr, -⟩ :=
      writeReg_other (writeTurns g d v n) (destV (writeTurns g d v n) (d + BitVec.ofNat 7 n)) (v n)
    obtain ⟨iu, iw, ic, is, ip, ir⟩ := ih
    exact ⟨hu.trans iu, hw.trans iw, hc.trans ic, hs.trans is, hp.trans ip, hr.trans ir⟩

/-- Writes in turn do not look at the flags. -/
theorem writeTurns_withFlags (g : Group) (m : Word) (d : Reg) (v : Nat → Nat → Word) (n : Nat) :
    writeTurns (withFlags g m) d v n = withFlags (writeTurns g d v n) m := by
  induction n with
  | zero => rfl
  | succ n ih => simp only [writeTurns, ih, destV_withFlags, writeReg_withFlags]

/-- Bookkeeping does not matter to writes in turn. -/
theorem arch_writeTurns {y z : Group} (h : arch y = arch z) (d : Reg) (v : Nat → Nat → Word) (n : Nat) :
    arch (writeTurns y d v n) = arch (writeTurns z d v n) := by
  induction n with
  | zero => exact h
  | succ n ih =>
    simp only [writeTurns, destV_congr ih]
    exact arch_writeReg ih _ _

/-- A run of register writes makes its turns of the current group, and changes nothing else. -/
theorem writeRun_turns {t : State} (h : t.me.used = true) (d : Reg) (v : Nat → Nat → Word) (n : Nat) :
    Elsewhere t (t.writeRun d v n) ∧ (t.writeRun d v n).me = writeTurns t.me d v n := by
  induction n with
  | zero => exact ⟨elsewhere_refl t, rfl⟩
  | succ n ih =>
    obtain ⟨he, hm⟩ := ih
    have hu : ((t.writeRun d v n).me.writeReg (destV (t.writeRun d v n).me (d + BitVec.ofNat 7 n)) (v n)).used = true := by
      rw [writeReg_used, hm, (writeTurns_other t.me d v n).1, h]
    rw [State.writeRun, writeTurns]
    exact ⟨elsewhere_trans he (elsewhere_onMe _ hu), (State.me_onMe _ hu).trans (by rw [hm])⟩

/-- A body that writes n vector registers in turn and sets flags. -/
theorem becomes_run {i : Instr} {x : Pre} {o : Op} {s : State} {n : Nat} {v : Flds → State → Nat → Nat → Word} {fl : Flds → State → Nat → Word}
    (hp : Plain s) (hi : Issues x o s)
    (hx : exec i s = issue x o (vecBody x fun r t => ((t.writeRun r.d (v r t) n).partialWrite).flag (flagsOf t.me.act (fl r t))) s)
    (hv : ∀ t r, FlagReads s t → v r t = v r s) (hfl : ∀ t r, FlagReads s t → fl r t = fl r s) :
    Becomes i x s (lanewise x s (withFlags (writeTurns s.me (fieldsNow x o s).d (v (fieldsNow x o s) s) n)
      (flagsOf s.me.act (fl (fieldsNow x o s) s)))) := by
  refine becomes_vec hp hi hx fun t hu ha hc hh _ => ?_
  have hr : FlagReads s t := ⟨⟨_, ha⟩, hc, hh⟩
  generalize fieldsNow x o s = r
  rw [hv t r hr, hfl t r hr, hr.act]
  obtain ⟨he, hm⟩ := writeRun_turns hu r.d (v r s) n
  obtain ⟨hpe, hpm⟩ := elsewhere_partialWrite (t.writeRun r.d (v r s) n)
  rw [hm] at hpm
  obtain ⟨ou, ow, oc, os, op, or⟩ := writeTurns_other t.me r.d (v r s) n
  have hu2 : (t.writeRun r.d (v r s) n).partialWrite.me.used = true := by rw [hpm, ou, hu]
  refine ⟨elsewhere_trans he (elsewhere_trans hpe (elsewhere_flag hu2 _)), ?_, stands_of_me ?_⟩
  · have harch := arch_writeTurns ha r.d (v r s) n
    rw [writeTurns_withFlags] at harch
    rw [flag_me hu2, hpm]
    exact (arch_withFlags harch _).trans (by rw [withFlags_flags])
  · rw [flag_me hu2, hpm]
    exact ⟨ou, ow, oc, os, op, or⟩

/-- Part k of VUNPK's word in a lane, converted (R500). -/
def unpackElem (x : Pre) (c : BitVec 7) (r : Flds) (s : State) (k i : Nat) : FRes :=
  convert c.toNat (.ieee .rne) s.me.ftz ((s.srcVA x r.a i).toNat / 2 ^ (32 / packN c * k) % 2 ^ (32 / packN c))

theorem FlagReads.unpackElem {s t : State} (h : FlagReads s t) (x : Pre) (c : BitVec 7) (r : Flds) : unpackElem x c r t = unpackElem x c r s := by
  funext k i
  simp only [Machine.unpackElem, h.ftz, h.srcVA]

/-- VUNPK writes a register per part, with the flags of all parts. -/
theorem becomes_vunpk {x : Pre} {d a : Reg} {c : BitVec 7} {s : State} (hp : Plain s) (hi : Issues x (opVunpk x d a c) s) :
    let r := fieldsNow x (opVunpk x d a c) s
    Becomes (.vunpk x d a c) x s (lanewise x s (withFlags (writeTurns s.me r.d (fun k i => BitVec.ofNat 32 (unpackElem x c r s k i).bits) (packN c))
      (flagsOf s.me.act fun i => ((List.range (packN c)).map fun k => (unpackElem x c r s k i).fl).foldl (· ||| ·) 0))) := by
  have h := becomes_run (i := .vunpk x d a c) (n := packN c) (v := fun r t k i => BitVec.ofNat 32 (unpackElem x c r t k i).bits)
    (fl := fun r t i => (List.range (packN c)).foldl (fun w k => w ||| (unpackElem x c r t k i).fl) 0) hp hi rfl
    (fun _ r hr => by simp only [hr.unpackElem]) (fun _ r hr => by simp only [hr.unpackElem])
  simpa only [List.foldl_map] using h

/-- Settles O23: VSCACC and VPACK write one register with results, VPACK's gathered from its parts; VUNPK writes a register for each part in turn. -/
theorem vectorPacking : Obligations.VectorPacking := by
  unfold Obligations.VectorPacking
  intro x d a b c
  refine ⟨⟨?e8m0, ?e4m3, ?bf16, ?f32⟩, setsVector_vpack x d a c, fun s hp hi => becomes_vunpk hp hi⟩
  case e8m0 => exact setsVector_scacc fun _ => rfl
  case e4m3 => exact setsVector_scacc fun _ => rfl
  case bf16 => exact setsVector_scacc fun _ => rfl
  case f32 => exact setsVector_scacc fun _ => rfl

end Sys2Proof.Machine
